-- ==== Sys2Proof/Word.lean ====
section
/-! DEFINITION. Bytes, words and the sorted sparse table that every table of the block is held in. -/

namespace Sys2Proof

/-- One byte. -/
abbrev Byte := BitVec 8

/-- A byte string, byte 0 first. -/
abbrev Bytes := List (BitVec 8)

/-- A 64-bit register word. -/
abbrev Word := BitVec 64

/-- A sparse table: (index, value) pairs with indices strictly rising and no value equal to the
table's default, so that equal tables are equal data. -/
abbrev Tab (α : Type) := List (Nat × α)

/-- The value at an index; `d` where none is listed. -/
def Tab.get {α : Type} (d : α) : Tab α → Nat → α
  | [], _ => d
  | (j, v) :: t, i => if i = j then v else Tab.get d t i

/-- Remove an index. -/
def Tab.erase {α : Type} (t : Tab α) (i : Nat) : Tab α := t.filter (fun p => p.1 ≠ i)

/-- List a value at an index, in place of what stood there. -/
def Tab.put {α : Type} : Tab α → Nat → α → Tab α
  | [], i, x => [(i, x)]
  | (j, v) :: t, i, x =>
    if i = j then (i, x) :: t else if i < j then (i, x) :: (j, v) :: t else (j, v) :: Tab.put t i x

/-- Write a value at an index; the default unlists it. -/
def Tab.set {α : Type} [DecidableEq α] (d : α) (t : Tab α) (i : Nat) (x : α) : Tab α :=
  if x = d then Tab.erase t i else Tab.put t i x

/-- Indices strictly rise. -/
def Tab.sorted {α : Type} : Tab α → Bool
  | [] => true
  | [_] => true
  | (i, _) :: (j, w) :: t => decide (i < j) && Tab.sorted ((j, w) :: t)

/-- The canonical form: indices strictly rise and the default is not listed. -/
def Tab.wf {α : Type} [DecidableEq α] (d : α) (t : Tab α) : Bool :=
  Tab.sorted t && t.all (fun p => decide (p.2 ≠ d))

/-- Bits [lo + w - 1 : lo] of a number. -/
def bits (lo w n : Nat) : Nat := (n >>> lo) % 2 ^ w

/-- Bit i of a number. -/
def bit1 (i n : Nat) : Bool := n.testBit i

/-- A truth value as a bit. -/
def b2n (b : Bool) : Nat := if b then 1 else 0

/-- Place a field of w bits at bit lo. -/
def fld (lo w v : Nat) : Nat := (v % 2 ^ w) <<< lo

/-- Replace bits [lo + w - 1 : lo] of old by v. -/
def putBits (lo w old v : Nat) : Nat := old - (bits lo w old) <<< lo + fld lo w v

/-- Bytes of a number, least significant first. -/
def leBytes : Nat → Nat → Bytes
  | 0, _ => []
  | n + 1, v => BitVec.ofNat 8 v :: leBytes n (v / 256)

/-- Bytes of a number, most significant first. -/
def beBytes (n v : Nat) : Bytes := (leBytes n v).reverse

/-- The number a byte string holds, least significant byte first. -/
def leNat : Bytes → Nat
  | [] => 0
  | b :: t => b.toNat + 256 * leNat t

/-- The number a byte string holds, most significant byte first. -/
def beNat (b : Bytes) : Nat := leNat b.reverse

/-- n zero bytes. -/
def zeros (n : Nat) : Bytes := List.replicate n 0

/-- Bytes [off, off + n) of a string, zero beyond its end. -/
def slice (off n : Nat) (b : Bytes) : Bytes :=
  let x := (b.drop off).take n
  x ++ zeros (n - x.length)

/-- A string with bytes [off, off + data.length) replaced; the string keeps its length. -/
def patch (off : Nat) (data b : Bytes) : Bytes :=
  (b.take off ++ data ++ b.drop (off + data.length)).take b.length

/-- The ASCII bytes of a label. -/
def ascii (s : String) : Bytes := s.toList.map (fun c => BitVec.ofNat 8 c.toNat)

/-- Bytewise exclusive or, as long as the shorter. -/
def xorBytes (a b : Bytes) : Bytes := List.zipWith (· ^^^ ·) a b

/-- A list with element i changed, where there is one. -/
def modifyAt {α : Type} (l : List α) (i : Nat) (f : α → α) : List α :=
  match l, i with
  | [], _ => []
  | x :: t, 0 => f x :: t
  | x :: t, n + 1 => x :: modifyAt t n f

/-- The number of set bits among bits 0 to w - 1. -/
def popcount : Nat → Nat → Nat
  | 0, _ => 0
  | w + 1, n => b2n (n % 2 = 1) + popcount w (n / 2)

end Sys2Proof
end

