-- ==== Sys2Proof/Syntax.lean ====
section
/-! DEFINITION. The commands of the block: one constructor per row of spec/opcode_table.json, with the
operands that come from outside the block or that name the queue, strand, session or register concerned. -/

namespace Sys2Proof

/-- Who makes a register access: Prity in the vendor world, the host physical function, or a virtual
function with the T bit of its request (R33, R34, R86). -/
inductive Master where
  | prity
  | pf
  | vf (n : Nat) (t : Bool)
  deriving DecidableEq, Repr

/-- A host function: the physical function or a virtual function (R91, R92). -/
inductive Fn where
  | pf
  | vf (n : Nat)
  deriving DecidableEq, Repr

/-- An SPDM channel: the sideband, or the DOE mailbox of a function (R456). -/
inductive Channel where
  | sideband
  | doe (f : Fn)
  deriving DecidableEq, Repr

/-- Where an SPDM message arrived: its channel, and its secured session if it came in one. -/
structure SpdmHdr where
  ch   : Channel
  sess : Option Nat
  deriving DecidableEq, Repr

/-- An upstream request (R55). -/
structure UpReq where
  op    : Nat
  addr  : Nat
  lines : Nat
  id    : Nat
  ord   : Nat
  ten   : Nat
  ctx   : Nat
  deriving DecidableEq, Repr

/-- A flit packet of a link flit port (R76); `framing` is false where no EOP came by the eighth beat
or a SOP came before the EOP. -/
structure Flit where
  sess    : Nat
  typ     : Nat
  ten     : Nat
  ctx     : Nat
  data    : Bytes
  framing : Bool
  deriving DecidableEq, Repr

/-- The straps (R114). -/
structure Straps where
  pilotSel   : Bool
  dieId      : Nat
  dieCount   : Nat
  tagSb      : Bool
  ideStreams : Nat
  sbSaddr    : Nat
  sbPid      : Nat
  deriving DecidableEq, Repr

/-- What the surroundings supply at the release of PORST_N_HM (R117): straps, OTP words, the non-zero
words of the NV store, raw entropy samples, the boot MBIST's failures (bit 0 the Harbourmaster island, bit 1
event and management), and whether the read-back of each root slot that is programmed matches. -/
structure StartInput where
  straps       : Straps
  otp          : List Nat
  nv           : List (Nat × Nat)
  samples      : List Bool
  mbistFail    : Nat
  rootReadback : List Bool
  deriving DecidableEq, Repr

/-- A register access of REGISTER_WRITE or REGISTER_READ (R86). -/
structure Access where
  m      : Master
  addr   : Nat
  wide   : Bool
  data   : Nat
  tag    : Nat
  deriving DecidableEq, Repr

/-- KEY_EXCHANGE: the requester's ephemeral key and, where it is mutually authenticated on the sideband,
the SHA-384 of its leaf public key (R457). -/
structure KexReq where
  exchange : Bytes
  leafHash : Option Bytes
  deriving DecidableEq, Repr

/-- IDE_KM message fields (R96, R97). -/
structure IdeKm where
  stream : Nat
  kset   : Nat
  dir    : Nat
  sub    : Nat
  port   : Nat
  key    : Nat
  ifv    : Nat
  deriving DecidableEq, Repr

/-- GET_OBJECT fields (R460). -/
structure ObjReq where
  obj    : Nat
  nonce  : Bytes
  offset : Nat
  length : Nat
  deriving DecidableEq, Repr

/-- VENDOR_DEFINED MBOX fields (R460). -/
structure MboxReq where
  cmd   : Nat
  opers : List Nat
  data  : Bytes
  deriving DecidableEq, Repr

/-- The commands of the block, one for each row of spec/opcode_table.json. -/
inductive Instr where
  -- start-up and islands
  | releaseOfPorstNHm (p : StartInput)
  | dataPathIslandRelease (island : Nat)
  | prityStartupDone (bistFail : Nat)
  | islandPowerRemoval (island : Nat)
  | harbourmasterPowerRemoval
  | prityRestart (ecc : Bool)
  -- Lichen
  | upstreamRequest (engine lane : Nat) (r : UpReq)
  | requestWithdrawal (engine lane : Nat) (r : UpReq)
  | writeDataBeat (engine lane : Nat) (data : Bytes) (be : Nat)
  | chainHandoff (engine entry : Nat)
  | downstreamIssue (engine ready qlvl : Nat)
  | downstreamReadResponse (engine id : Nat) (data : Bytes) (sb : Nat) (ue : Bool)
  | downstreamWriteComplete (engine id : Nat) (ue : Bool)
  | lichenInit (m : Master) (engine : Nat)
  | lichenFlush (m : Master) (engine : Nat)
  | frzStateWrite (region state : Nat)
  -- Tide
  | rekeyStart
  | tideJobStart (engine : Nat)
  | tidePaceWindow (engine : Nat)
  | tideTurn (engine : Nat)
  -- Quay
  | flitPacket (quay : Nat) (p : Flit)
  | frameStart (quay : Nat)
  | receivedFrame (quay : Nat) (frame : Bytes) (bad framing : Bool)
  | releaseFrame (sess : Nat)
  | ackDelayExpiry (sess : Nat)
  | retransmission (sess seq : Nat)
  | retransmissionLimit (sess seq : Nat)
  | generationMove (sess : Nat)
  | rxKeyDerived (sess : Nat)
  | linkDown (quay : Nat)
  | migrationMoveComplete (sess : Nat)
  | probeRepeat (sess : Nat)
  | gwFlushTime (quay sess : Nat)
  | quayCtrlWrite (m : Master) (quay value : Nat)
  | sessionOpen
  | sessionClose
  | sessionMigrate
  | sessionRotate
  -- reduction
  | operandArrival (slot chunk : Nat)
  | chunkStoreDone (slot chunk : Nat)
  -- submission queues and queue commands
  | sqDoorbell (m : Master) (queue tail : Nat)
  | ringFetch (queue : Nat)
  | queueEnable (m : Master) (queue value : Nat)
  | nop (queue : Nat)
  | objRegisterMemory (queue : Nat)
  | objRegisterBollard (queue : Nat)
  | objFree (queue : Nat)
  | objectReferencesZero (obj : Nat)
  | copy (queue : Nat)
  | programLaunch (queue : Nat)
  | bollardSignalAdd (queue : Nat)
  | bollardSignalReset (queue : Nat)
  | bollardWait (queue : Nat)
  | alloc (queue : Nat)
  | free (queue : Nat)
  | sealLoad (queue : Nat)
  | sealAbort (queue : Nat)
  | regionRelease (queue : Nat)
  | keyUnwrap (queue : Nat)
  | queryContext (queue : Nat)
  | contextRetire (queue : Nat)
  | allocDbAlloc (m : Master) (value : Nat)
  | allocDbFree (m : Master) (value : Nat)
  -- mailbox commands
  | quoteInstance
  | quotePackage
  | fwBegin
  | fwData
  | fwVerify
  | fwActivate
  | fwCommit
  | fwRevert
  | fwAbort
  | imageReady
  | activateTimeout
  | tenantAdmit
  | tenantRemove
  | domainChangeCipher
  | domainChangeDebug
  | domainChangeBwater
  | domainChangeInj
  | bistRun
  | bistComplete (island : Nat) (pass : Bool)
  | lcTransition
  | eraseUserSecrets
  -- keys
  | gen (value : Nat)
  | derive (value : Nat)
  | zeroise (value : Nat)
  | setState (value : Nat)
  | setMasters (value : Nat)
  | unwrap (value : Nat)
  | kmapWrite (value : Nat)
  | entropySample (sample : Bool)
  | entropyRetryExpiry
  | nvResponse (data : Nat) (err : Bool)
  | otpResponse (data : Nat)
  -- ports
  | doeObject (f : Fn) (dwords : List Nat)
  | evErr (f : Fn)
  | idekAck (status : Nat)
  | d2dMessage (src : Nat) (msg : Bytes)
  | gtrig
  | freezeAt
  | dftScanReq
  | dftBistStart (island : Nat)
  -- SPDM
  | getVersion (h : SpdmHdr)
  | getCapabilities (h : SpdmHdr)
  | negotiateAlgorithms (h : SpdmHdr)
  | getDigests (h : SpdmHdr)
  | getCertificate (h : SpdmHdr) (slot offset length : Nat)
  | challenge (h : SpdmHdr) (slot : Nat) (nonce : Bytes)
  | getMeasurements (h : SpdmHdr) (index : Nat) (nonce : Bytes)
  | keyExchange (h : SpdmHdr) (r : KexReq)
  | finish (h : SpdmHdr) (verify : Bytes)
  | spdmHeartbeat (h : SpdmHdr)
  | keyUpdate (h : SpdmHdr) (both : Bool)
  | endSession (h : SpdmHdr)
  | respondIfReady (h : SpdmHdr)
  | unsupportedRequest (h : SpdmHdr) (code : Nat)
  | getObject (h : SpdmHdr) (r : ObjReq)
  | pqBind (h : SpdmHdr) (ct : Bytes)
  | setOwnerKey (h : SpdmHdr) (hash : Bytes)
  | vendorMbox (h : SpdmHdr) (r : MboxReq)
  -- TDISP and IDE_KM
  | getTdispVersion (h : SpdmHdr) (vf : Nat)
  | getTdispCapabilities (h : SpdmHdr) (vf : Nat)
  | lockInterfaceRequest (h : SpdmHdr) (vf stream : Nat) (noFwUpdate : Bool)
  | getDeviceInterfaceReport (h : SpdmHdr) (vf : Nat)
  | getDeviceInterfaceState (h : SpdmHdr) (vf : Nat)
  | startInterfaceRequest (h : SpdmHdr) (vf : Nat) (nonce : Bytes)
  | stopInterfaceRequest (h : SpdmHdr) (vf : Nat)
  | tdispUnsupported (h : SpdmHdr) (vf : Nat)
  | ideKmQuery (h : SpdmHdr) (port : Nat)
  | keyProg (h : SpdmHdr) (k : IdeKm)
  | kSetGo (h : SpdmHdr) (k : IdeKm)
  | kSetStop (h : SpdmHdr) (k : IdeKm)
  -- federation
  | form (m : Master) (value : Nat)
  | joinReq
  | joinRsp
  | relayInPush (m : Master) (value : Nat)
  | relayOutTaken (m : Master)
  | heartbeat
  | hbAck
  | request
  | prepare
  | prepAck
  | prepNak
  | commit
  | abort
  | drained
  | fault
  | image
  | changeStart
  | heartbeatTimer
  | heartbeatLoss
  | prepareTimeout
  | catchupTimeout
  | dieEntryTimeout
  | drainWindowEnd (mooring : Nat)
  | lichenDrainEnd (mooring : Nat)
  -- events
  | evDb (m : Master) (value : Nat)
  | swDb (m : Master) (value : Nat)
  | raise (core src : Nat)
  | take (core src : Nat)
  | eqHeadWrite (m : Master) (queue head : Nat)
  | eqEnable (m : Master) (queue value : Nat)
  | eoi (m : Master) (core prio : Nat)
  | bankReset (m : Master) (core : Nat)
  | coalTimeExpiry (queue : Nat)
  | bankDelivery (bank : Nat)
  | eventRecordIssue
  -- Breakwater
  | bwaterApply (m : Master)
  | starveExpiry (engine op : Nat)
  | capWindow (engine : Nat)
  -- fences, dumps, soundings
  | fenceDomain (m : Master) (domain : Nat)
  | drainLimitExpiry (domain : Nat)
  | dumpWritten (domain : Nat)
  | dumpLimitExpiry (domain : Nat)
  | releaseDomain (m : Master) (domain : Nat)
  | snapshotRelease (m : Master)
  | reproClear (m : Master)
  | traceGroupTimeout (ring : Nat)
  | pregWrite (m : Master) (index value : Nat)
  | replayEnable (m : Master) (value : Nat)
  | registerWrite (a : Access)
  -- strand instructions
  | ifetchLineReturn (quay : Nat)
  | nopInstruction (quay strand : Nat)
  | halt (quay strand : Nat)
  | trap (quay strand : Nat)
  | br (quay strand : Nat)
  | beq (quay strand : Nat)
  | bne (quay strand : Nat)
  | blt (quay strand : Nat)
  | loop (quay strand : Nat)
  | endl (quay strand : Nat)
  | movi (quay strand : Nat)
  | addi (quay strand : Nat)
  | add (quay strand : Nat)
  | sub (quay strand : Nat)
  | and (quay strand : Nat)
  | or (quay strand : Nat)
  | xor (quay strand : Nat)
  | shl (quay strand : Nat)
  | shr (quay strand : Nat)
  | ld (quay strand : Nat)
  | st (quay strand : Nat)
  | copyInstruction (quay strand : Nat)
  | put (quay strand : Nat)
  | get (quay strand : Nat)
  | send (quay strand : Nat)
  | recv (quay strand : Nat)
  | reduce (quay strand : Nat)
  | rfwd (quay strand : Nat)
  | atomInstruction (quay strand : Nat)
  | waitb (quay strand : Nat)
  | sigb (quay strand : Nat)
  | rsigb (quay strand : Nat)
  | allocInstruction (quay strand : Nat)
  | freeInstruction (quay strand : Nat)
  | sealld (quay strand : Nat)
  | tstamp (quay strand : Nat)
  | fenceInstruction (quay strand : Nat)
  -- remote memory
  | write (quay : Nat)
  | read (quay : Nat)
  | atom (quay : Nat)
  | signal (quay : Nat)
  | poolRead (quay : Nat)
  | poolWrite (quay : Nat)
  | writeAck (quay : Nat)
  | readData (quay : Nat)
  | atomRsp (quay : Nat)
  | signalRsp (quay : Nat)
  | poolData (quay : Nat)
  | poolAck (quay : Nat)
  -- the remaining rows
  | linkUp (quay : Nat)
  | islandIsolation (island : Nat) (iso : Bool)
  | islandClockThrottle (island setting : Nat) (cap : Option Nat)
  | registerRead (a : Access)
  | reservedInstruction (quay strand : Nat)
  | coreTimerExpiry (core : Nat)
  | dynamicAddressAssignment (entdaa : Option Nat)
  | timebaseBackward (ns : Nat)
  deriving DecidableEq, Repr

end Sys2Proof
end

