-- ==== Sys2Proof/Config.lean ====
section
/-! DEFINITION. What the manual names and does not compute: the asymmetric algorithms of the standards it
cites, the certificates of a unit, and the values it leaves open. Nothing in Lean can evaluate them. -/

namespace Sys2Proof.Config

/-- A value that the manual leaves open, by its number (R1 gives no other rule for it). -/
opaque freeValue : Nat → Nat

/-- ECDSA P-384 public point (96 bytes) of a private key seed (FIPS 186-5, R452). -/
opaque ecPub : Bytes → Bytes

/-- ECDSA P-384 signature of a message under a seed, with the randomness drawn for it. -/
opaque ecSign : Bytes → Bytes → Bytes → Bytes

/-- ECDSA P-384 verification: public key, message, signature. -/
opaque ecVerify : Bytes → Bytes → Bytes → Bool

/-- ECDH P-384 shared secret of a private seed and a peer's point; none where the point is not valid. -/
opaque ecShared : Bytes → Bytes → Option Bytes

/-- ML-DSA-87 public key of a seed (FIPS 204, R452). -/
opaque mlPub : Bytes → Bytes

/-- ML-DSA-87 signature: seed, message, context string, randomness. -/
opaque mlSign : Bytes → Bytes → Bytes → Bytes → Bytes

/-- ML-DSA-87 verification: public key, message, context string, signature. -/
opaque mlVerify : Bytes → Bytes → Bytes → Bytes → Bool

/-- ML-KEM-1024 encapsulation key of a seed (FIPS 203, R463). -/
opaque kemPub : Bytes → Bytes

/-- ML-KEM-1024 decapsulation: seed and ciphertext. -/
opaque kemDecap : Bytes → Bytes → Bytes

/-- ML-KEM-1024 encapsulation: encapsulation key and randomness; ciphertext and shared secret. -/
opaque kemEncap : Bytes → Bytes → Bytes × Bytes

/-- X.509 certificate chain of an SPDM slot in DER (R455), of the identity that `identity` encodes: DeviceID
keys, Alias keys, SVN, FWID, vendorInfo. -/
opaque certChain : Nat → Bytes → Bytes

/-- What a chain of a slot carries where it has the form of R455: DeviceID public key, Alias public key, and the
life-cycle state code and DEBUG_EN of its vendorInfo. -/
opaque certParse : Nat → Bytes → Option (Bytes × Bytes × Nat × Nat)

/-- The SHA-384 of the boot ROM, a constant of block version 2.1 (R459). -/
opaque romHash : Bytes

/-- The SHA3-256 digest of the RAW_UNLOCK token, a constant of block version 2.1 (R416). -/
opaque rawUnlockDigest : Bytes

/-- Signature that the pilot's Alias makes for a follower (R461), by number: 0 for ECDSA, 1 for ML-DSA, and
which signature it is. The exchange with the pilot is not in the manual. -/
opaque pilotSign : Nat → Nat → Bytes

/-- MSG of the die-to-die messages to which the manual gives none: 0 the fence of domain 33 (R569), 1 the domain
secret (R499), 2 and 3 the request for a die entry and its answer (R470), 4 and 5 a follower's request for a
report and its answer (R465). -/
opaque fedMsg : Nat → Nat

/-- Gwynost's IANA Private Enterprise Number, which is given with the licence (R460). -/
opaque enterprise : Nat

end Sys2Proof.Config
end

