-- ==== Sys2Proof/Machine/Aes.lean ====
section
/-! DEFINITION. AES-256, GHASH and AES-256-GCM (FIPS 197, SP 800-38D), as R133, R134, R206 and R479 use them. -/

namespace Sys2Proof.Machine

/-- The AES substitution box, byte i at bits [8i + 7 : 8i]. -/
def aesSbox : Nat :=
  0x16bb54b00f2d99416842e6bf0d89a18cdf2855cee9871e9b948ed9691198f8e19e1dc186b95735610ef6034866b53e708a8bbd4b1f74dde8c6b4a61c2e2578ba08ae7a65eaf4566ca94ed58d6d37c8e779e4959162acd3c25c2406490a3a32e0db0b5ede14b8ee4688902a22dc4f816073195d643d7ea7c41744975fec130ccdd2f3ff1021dab6bcf5389d928f40a351a89f3c507f02f94585334d43fbaaefd0cf584c4a39becb6a5bb1fc20ed00d153842fe329b3d63b52a05a6e1b1a2c830975b227ebe28012079a059618c323c7041531d871f1e5a534ccf73f362693fdb7c072a49cafa2d4adf04759fa7dc982ca76abd7fe2b670130c56f6bf27b777c63

/-- SubBytes of one byte. -/
def aesSub (b : Nat) : Nat := bits (8 * b) 8 aesSbox

/-- Multiplication by x in the AES field. -/
def aesX (b : Nat) : Nat := if b < 128 then 2 * b else (2 * b) ^^^ 0x11B

/-- Bytewise exclusive or of byte lists held as numbers. -/
def xorNats (a b : List Nat) : List Nat := List.zipWith (· ^^^ ·) a b

/-- MixColumns of one column. -/
def aesCol : List Nat → List Nat
  | [a, b, c, d] =>
    let t := a ^^^ b ^^^ c ^^^ d
    [a ^^^ t ^^^ aesX (a ^^^ b), b ^^^ t ^^^ aesX (b ^^^ c),
     c ^^^ t ^^^ aesX (c ^^^ d), d ^^^ t ^^^ aesX (d ^^^ a)]
  | l => l

/-- MixColumns, four bytes at a time. -/
def aesMix : List Nat → List Nat
  | a :: b :: c :: d :: t => aesCol [a, b, c, d] ++ aesMix t
  | l => l

/-- ShiftRows of the column-ordered state. -/
def aesShift (s : List Nat) : List Nat :=
  [0, 5, 10, 15, 4, 9, 14, 3, 8, 13, 2, 7, 12, 1, 6, 11].map (fun i => s.getD i 0)

/-- Key expansion: from the eight words before it, newest first, prepend word i; n words to go. -/
def aesExpand : Nat → Nat → Nat → List (List Nat) → List (List Nat)
  | 0, _, _, ws => ws
  | n + 1, i, rcon, ws =>
    let t := ws.getD 0 []
    let w8 := ws.getD 7 []
    if i % 8 = 0 then
      let r := (t.drop 1 ++ t.take 1).map aesSub
      aesExpand n (i + 1) (aesX rcon) (xorNats w8 (xorNats r [rcon, 0, 0, 0]) :: ws)
    else if i % 8 = 4 then
      aesExpand n (i + 1) rcon (xorNats w8 (t.map aesSub) :: ws)
    else aesExpand n (i + 1) rcon (xorNats w8 t :: ws)

/-- Groups of four, as words. -/
def words4 : List Nat → List (List Nat)
  | a :: b :: c :: d :: t => [a, b, c, d] :: words4 t
  | _ => []

/-- The 15 round keys of AES-256. -/
def aesKeys (key : Bytes) : List (List Nat) :=
  let k := (slice 0 32 key).map (·.toNat)
  let ws := (aesExpand 52 8 1 (words4 k).reverse).reverse
  (List.range 15).map (fun r => ((ws.drop (4 * r)).take 4).flatten)

/-- The rounds after the first key addition. -/
def aesRounds : List (List Nat) → List Nat → List Nat
  | [], s => s
  | [k], s => xorNats (aesShift (s.map aesSub)) k
  | k :: ks, s => aesRounds ks (xorNats (aesMix (aesShift (s.map aesSub))) k)

/-- AES-256 of one 16-byte block under expanded keys. -/
def aesBlockK (ks : List (List Nat)) (b : Bytes) : Bytes :=
  match ks with
  | [] => b
  | k0 :: kt => (aesRounds kt (xorNats (b.map (·.toNat)) k0)).map (BitVec.ofNat 8)

/-- AES-256 of one 16-byte block. -/
def aesBlock (key b : Bytes) : Bytes := aesBlockK (aesKeys key) b

/-- Multiplication in the GHASH field, bit 127 of a number the first bit of a block. -/
def gfMul : Nat → Nat → Nat → Nat → Nat
  | 0, _, _, z => z
  | n + 1, x, v, z =>
    gfMul n x (if v % 2 = 1 then (v / 2) ^^^ (0xE1 <<< 120) else v / 2) (if x.testBit n then z ^^^ v else z)

/-- GHASH over whole blocks, zero-padding the last. -/
def ghashBlocks (h : Nat) : Nat → Nat → Bytes → Nat
  | 0, y, _ => y
  | n + 1, y, b => ghashBlocks h n (gfMul 128 (y ^^^ beNat (slice 0 16 b)) h 0) (b.drop 16)

/-- GHASH of SP 800-38D over additional data and ciphertext, then their bit lengths. -/
def ghash (h : Nat) (aad ct : Bytes) : Nat :=
  let y1 := ghashBlocks h ((aad.length + 15) / 16) 0 aad
  let y2 := ghashBlocks h ((ct.length + 15) / 16) y1 ct
  gfMul 128 (y2 ^^^ (((aad.length * 8) <<< 64) + ct.length * 8)) h 0

/-- Counter-mode keystream: n blocks from the 128-bit counter block c, incrementing its low 32 bits. -/
def ctr32 (ks : List (List Nat)) : Nat → Nat → Bytes
  | 0, _ => []
  | n + 1, c =>
    aesBlockK ks (beBytes 16 c) ++ ctr32 ks n (c - c % 2 ^ 32 + (c + 1) % 2 ^ 32)

/-- AES-256-GCM encryption under a 96-bit IV: ciphertext and 16-byte tag (SP 800-38D). -/
def gcmSeal (key iv aad pt : Bytes) : Bytes × Bytes :=
  let ks := aesKeys key
  let h := beNat (aesBlockK ks (zeros 16))
  let j0 := beNat (slice 0 12 iv) <<< 32 + 1
  let ct := xorBytes pt (ctr32 ks ((pt.length + 15) / 16) (j0 + 1))
  (ct, beBytes 16 (ghash h aad ct ^^^ beNat (aesBlockK ks (beBytes 16 j0))))

/-- AES-256-GCM decryption: the plaintext, or none where the tag fails. -/
def gcmOpen (key iv aad ct tag : Bytes) : Option Bytes :=
  let ks := aesKeys key
  let h := beNat (aesBlockK ks (zeros 16))
  let j0 := beNat (slice 0 12 iv) <<< 32 + 1
  if tag = beBytes 16 (ghash h aad ct ^^^ beNat (aesBlockK ks (beBytes 16 j0))) then
    some (xorBytes ct (ctr32 ks ((ct.length + 15) / 16) (j0 + 1)))
  else none

end Sys2Proof.Machine
end

