-- ==== Sys2Proof/Machine/Hash.lean ====
section
/-! DEFINITION. SHA3-256, KMAC256 (FIPS 202, SP 800-185), SHA-384, HMAC and the SPDM key expansion, and the
CTR_DRBG with AES-256 and derivation function (SP 800-90A), as R412, R414, R421 and R456 use them. -/

namespace Sys2Proof.Machine

/-- Round constants of Keccak, round r at bits [64r + 63 : 64r]. -/
def keccakRc : Nat :=
  0x8000000080008008000000008000000180000000000080808000000080008081800000008000000a000000000000800a8000000000000080800000000000800280000000000080038000000000008089800000000000008b000000008000808b000000008000000a00000000800080090000000000000088000000000000008a800000000000800980000000800080810000000080000001000000000000808b8000000080008000800000000000808a00000000000080820000000000000001

/-- Rotation offsets of Keccak, lane x + 5y. -/
def keccakRot : List Nat :=
  [0, 1, 62, 28, 27, 36, 44, 6, 55, 20, 3, 10, 43, 25, 39, 41, 45, 15, 21, 8, 18, 2, 61, 56, 14]

/-- Rotate a 64-bit lane left. -/
def rotl64 (n x : Nat) : Nat := (x <<< n) % 2 ^ 64 ^^^ (x >>> (64 - n))

/-- One round of Keccak-f[1600] on 25 lanes. -/
def keccakRound (a : List Nat) (rc : Nat) : List Nat :=
  let g (i : Nat) := a.getD i 0
  let c := (List.range 5).map (fun x => g x ^^^ g (x + 5) ^^^ g (x + 10) ^^^ g (x + 15) ^^^ g (x + 20))
  let d := (List.range 5).map (fun x => c.getD ((x + 4) % 5) 0 ^^^ rotl64 1 (c.getD ((x + 1) % 5) 0))
  let t := (List.range 25).map (fun i => g i ^^^ d.getD (i % 5) 0)
  -- rho and pi: lane (x, y) of the result comes from lane (x + 3y, x)
  let b := (List.range 25).map (fun i =>
    let x := i % 5
    let y := i / 5
    let j := (x + 3 * y) % 5 + 5 * x
    rotl64 (keccakRot.getD j 0) (t.getD j 0))
  let e := (List.range 25).map (fun i =>
    let y := i / 5 * 5
    let x := i % 5
    b.getD i 0 ^^^ ((b.getD ((x + 1) % 5 + y) 0 ^^^ (2 ^ 64 - 1)) &&& b.getD ((x + 2) % 5 + y) 0))
  match e with
  | [] => []
  | l0 :: t0 => (l0 ^^^ rc) :: t0

/-- Keccak-f[1600]. -/
def keccakF (a : List Nat) : List Nat :=
  (List.range 24).foldl (fun s r => keccakRound s (bits (64 * r) 64 keccakRc)) a

/-- Lanes of a byte string, n of them. -/
def lanes : Nat → Bytes → List Nat
  | 0, _ => []
  | n + 1, b => leNat (b.take 8) :: lanes n (b.drop 8)

/-- Absorb n blocks of 136 bytes. -/
def spongeAbsorb : Nat → List Nat → Bytes → List Nat
  | 0, a, _ => a
  | n + 1, a, b =>
    spongeAbsorb n (keccakF (List.zipWith (· ^^^ ·) a (lanes 17 b ++ List.replicate 8 0))) (b.drop 136)

/-- Squeeze n blocks of 136 bytes. -/
def spongeSqueeze : Nat → List Nat → Bytes
  | 0, _ => []
  | n + 1, a => ((a.take 17).map (leBytes 8)).flatten ++ spongeSqueeze n (keccakF a)

/-- The sponge of rate 136 bytes with a domain suffix, output of n bytes. -/
def sponge (suffix : Nat) (msg : Bytes) (n : Nat) : Bytes :=
  let p := 136 - msg.length % 136
  let pad : Bytes := if p = 1 then [BitVec.ofNat 8 (suffix + 128)]
    else BitVec.ofNat 8 suffix :: (zeros (p - 2) ++ [0x80])
  let m := msg ++ pad
  (spongeSqueeze ((n + 135) / 136) (spongeAbsorb (m.length / 136) (List.replicate 25 0) m)).take n

/-- SHA3-256. -/
def sha3 (msg : Bytes) : Bytes := sponge 6 msg 32

/-- The least number of bytes, at least one, that hold a number below 2^32. -/
def encLen (x : Nat) : Nat :=
  if x < 256 then 1 else if x < 65536 then 2 else if x < 16777216 then 3 else 4

/-- left_encode of SP 800-185. -/
def leftEnc (x : Nat) : Bytes := BitVec.ofNat 8 (encLen x) :: beBytes (encLen x) x

/-- right_encode of SP 800-185. -/
def rightEnc (x : Nat) : Bytes := beBytes (encLen x) x ++ [BitVec.ofNat 8 (encLen x)]

/-- encode_string of SP 800-185. -/
def encStr (s : Bytes) : Bytes := leftEnc (8 * s.length) ++ s

/-- bytepad to 136 bytes of SP 800-185. -/
def bytepad (x : Bytes) : Bytes :=
  let y := leftEnc 136 ++ x
  y ++ zeros ((136 - y.length % 136) % 136)

/-- KMAC256 with key k, input x, customisation label and n output bytes (R421). -/
def kmac (k x : Bytes) (n : Nat) (label : String) : Bytes :=
  sponge 4 (bytepad (encStr (ascii "KMAC") ++ encStr (ascii label)) ++ bytepad (encStr k) ++ x ++
    rightEnc (8 * n)) n

/-- Round constants of SHA-384, round i at bits [64i + 63 : 64i]. -/
def shaK : Nat :=
  0x6c44198c4a4758175fcb6fab3ad6faec597f299cfc657e2a4cc5d4becb3e42b6431d67c49c100d4c3c9ebe0a15c9bebc32caab7b40c7249328db77f523047d841b710b35131c471b113f9804bef90dae0a637dc5a2c898a606f067aa72176fbaf57d4f7fee6ed178eada7dd6cde0eb1ed186b8c721c0c207ca273eceea26619cc67178f2e372532bbef9a3f7b2c67915a4506cebde82bde990befffa23631e288cc702081a6439ec84c87814a1f0ab7278a5636f43172f60748f82ee5defb2fc682e6ff3d6b2b8a35b9cca4f7763e3734ed8aa4ae3418acb391c0cb3c5c95a6334b0bcb5e19b48a82748774cdf8eeb991e376c085141ab5319a4c116b8d2d0c8106aa07032bbd1b8f40e35855771202ad69906245565a910d192e819d6ef5218c76c51a30654be30c24b8b70d0f89791a81a664bbc423001a2bfe8a14cf1036492722c851482353b81c2c92e47edaee6766a0abb3c77b2a8650a73548baf63de53380d139d95b3df4d2c6dfc5ac42aed2e1b21385c26c92627b70a8546d22ffc142929670a0e6e7006ca6351e003826fd5a79147930aa725c6e00bf33da88fc2bf597fc7beef0ee4b00327c898fb213fa831c66d2db43210983e5152ee66dfab76f988da831153b55cb0a9dcbd41fbd44a7484aa6ea6e4832de92c6f592b0275240ca1cc77ac9c650fc19dc68b8cd5b5efbe4786384f25e3e49b69c19ef14ad2c19bf174cf6926949bdc06a725c7123580deb1fe3b1696b172be5d74f27b896f550c7dc3d5ffb4e2243185be4ee4b28c12835b0145706fbed807aa98a3030242ab1c5ed5da6d8118923f82a4af194f9b59f111f1b605d0193956c25bf348b538e9b5dba58189dbbcb5c0fbcfec4d3b2f7137449123ef65cd428a2f98d728ae22

/-- Rotate a 64-bit word right. -/
def rotr64 (n x : Nat) : Nat := (x >>> n) ^^^ ((x <<< (64 - n)) % 2 ^ 64)

/-- The message schedule, newest word first; n words to go. -/
def shaSched : Nat → List Nat → List Nat
  | 0, w => w
  | n + 1, w =>
    let w2 := w.getD 1 0
    let w15 := w.getD 14 0
    let s1 := rotr64 19 w2 ^^^ rotr64 61 w2 ^^^ (w2 >>> 6)
    let s0 := rotr64 1 w15 ^^^ rotr64 8 w15 ^^^ (w15 >>> 7)
    shaSched n ((s1 + w.getD 6 0 + s0 + w.getD 15 0) % 2 ^ 64 :: w)

/-- The compression rounds over the scheduled words. -/
def shaRounds : List Nat → Nat → List Nat → List Nat
  | [], _, v => v
  | w :: ws, i, [a, b, c, d, e, f, g, h] =>
    let t1 := h + (rotr64 14 e ^^^ rotr64 18 e ^^^ rotr64 41 e) + ((e &&& f) ^^^ ((e ^^^ (2 ^ 64 - 1)) &&& g)) +
      bits (64 * i) 64 shaK + w
    let t2 := (rotr64 28 a ^^^ rotr64 34 a ^^^ rotr64 39 a) + ((a &&& b) ^^^ (a &&& c) ^^^ (b &&& c))
    shaRounds ws (i + 1) [(t1 + t2) % 2 ^ 64, a, b, c, (d + t1) % 2 ^ 64, e, f, g]
  | _, _, v => v

/-- Big-endian 64-bit words of a byte string, n of them. -/
def beWords : Nat → Bytes → List Nat
  | 0, _ => []
  | n + 1, b => beNat (slice 0 8 b) :: beWords n (b.drop 8)

/-- Compress n blocks of 128 bytes. -/
def shaBlocks : Nat → List Nat → Bytes → List Nat
  | 0, v, _ => v
  | n + 1, v, b =>
    let w := (shaSched 64 (beWords 16 b).reverse).reverse
    shaBlocks n (List.zipWith (fun x y => (x + y) % 2 ^ 64) v (shaRounds w 0 v)) (b.drop 128)

/-- The initial hash value of SHA-384. -/
def sha384Init : List Nat :=
  [0xcbbb9d5dc1059ed8, 0x629a292a367cd507, 0x9159015a3070dd17, 0x152fecd8f70e5939, 0x67332667ffc00b31, 0x8eb44a8768581511, 0xdb0c2e0d64f98fa7, 0x47b5481dbefa4fa4]

/-- SHA-384. -/
def sha384 (msg : Bytes) : Bytes :=
  let p := 128 - (msg.length + 17) % 128
  let m := msg ++ [0x80] ++ zeros (p % 128) ++ beBytes 16 (8 * msg.length)
  ((shaBlocks (m.length / 128) sha384Init m).map (beBytes 8)).flatten.take 48

/-- HMAC with SHA-384. -/
def hmac384 (k m : Bytes) : Bytes :=
  let k0 := slice 0 128 (if k.length > 128 then sha384 k else k)
  sha384 (k0.map (· ^^^ 0x5C) ++ sha384 (k0.map (· ^^^ 0x36) ++ m))

/-- HKDF-Expand of at most 48 bytes, with the SPDM BinConcat label (DSP0274, key schedule). -/
def spdmExpand (secret : Bytes) (label : String) (ctx : Bytes) (n : Nat) : Bytes :=
  (hmac384 secret (leBytes 2 n ++ ascii "spdm1.2 " ++ ascii label ++ ctx ++ [1])).take n

/-- Exclusive or chain of BCC in the derivation function. -/
def drbgBcc (ks : List (List Nat)) : Nat → Bytes → Bytes → Bytes
  | 0, v, _ => v
  | n + 1, v, b => drbgBcc ks n (aesBlockK ks (xorBytes v (slice 0 16 b))) (b.drop 16)

/-- n blocks of output feedback of the derivation function. -/
def drbgOut (ks : List (List Nat)) : Nat → Bytes → Bytes
  | 0, _ => []
  | n + 1, x => let y := aesBlockK ks x; y ++ drbgOut ks n y

/-- Block_Cipher_df of SP 800-90A, 48 bytes. -/
def drbgDf (input : Bytes) : Bytes :=
  let s0 := beBytes 4 input.length ++ beBytes 4 48 ++ input ++ [0x80]
  let s := s0 ++ zeros ((16 - s0.length % 16) % 16)
  let k0 := aesKeys ((List.range 32).map (BitVec.ofNat 8))
  let t := ((List.range 3).map (fun i =>
    let d := beBytes 4 i ++ zeros 12 ++ s
    drbgBcc k0 (d.length / 16) (zeros 16) d)).flatten
  drbgOut (aesKeys (t.take 32)) 3 (t.drop 32)

/-- n counter blocks after V, and the last V. -/
def drbgCtr (ks : List (List Nat)) : Nat → Nat → Bytes × Nat
  | 0, v => ([], v)
  | n + 1, v =>
    let v1 := (v + 1) % 2 ^ 128
    let r := drbgCtr ks n v1
    (aesBlockK ks (beBytes 16 v1) ++ r.1, r.2)

/-- CTR_DRBG_Update: the next Key and V. -/
def drbgUpdate (data key v : Bytes) : Bytes × Bytes :=
  let t := xorBytes (drbgCtr (aesKeys key) 3 (beNat v)).1 (slice 0 48 data)
  (t.take 32, t.drop 32)

/-- CTR_DRBG instantiation from entropy input and nonce. -/
def drbgInit (entropy nonce : Bytes) : Bytes × Bytes :=
  drbgUpdate (drbgDf (entropy ++ nonce)) (zeros 32) (zeros 16)

/-- CTR_DRBG reseed. -/
def drbgReseed (entropy key v : Bytes) : Bytes × Bytes := drbgUpdate (drbgDf entropy) key v

/-- CTR_DRBG generate of n bytes: output, next Key and V. -/
def drbgGen (n : Nat) (key v : Bytes) : Bytes × Bytes × Bytes :=
  let r := drbgCtr (aesKeys key) ((n + 15) / 16) (beNat v)
  (r.1.take n, drbgUpdate (zeros 48) key (beBytes 16 r.2))

end Sys2Proof.Machine
end

