-- ==== Sys2Proof/Machine/State.lean ====
section
/-! DEFINITION. The state of one instance of the block, its faults and refusals, and the state after
reset. Every table is a `Tab`: an index it does not list holds the default of its type. -/

namespace Sys2Proof.Machine

/-- Why a step stops. -/
inductive Fault where
  /-- ISLAND_ISOLATION and ISLAND_POWER_REMOVAL raise it: the surroundings isolate an island, or take its
  power or clock, while its FENCED output is 0, where R31 and R118 leave the behaviour undefined. Safe. -/
  | islandNotFenced (island : Nat)
  deriving DecidableEq, Repr

/-- Why a command is refused. -/
inductive Refusal where
  /-- An arm of exec answers it for a command that has no meaning yet. Safe. -/
  | notModelled (mnemonic : String)
  deriving DecidableEq, Repr

/-- The status codes (R620). -/
inductive Status where
  | ok | eState | eLength | eBounds | eStale | eCtxLost | eKeyRevoked | eBerthBad | eIntegrity
  | ePoisoned | eCtrExhausted | eFrozen | eFenced | eAtomLost | eBroken | eWrap | ePermission
  | eBusy | eWear | eEpoch | eAuth | eNoRes | eLc | eToken | eEncoding | eAborted | eSeq
  deriving DecidableEq, Repr

/-- Whose an access, a berth or a piece of work is (R33, R424). -/
inductive World where
  | none
  | vendor
  | owner
  | tenant (t : Nat)
  deriving DecidableEq, Repr

/-- Power of the instance (R9, R117): off, held in PORST_N_HM, or running. -/
inductive Power where
  | off | held | on
  deriving DecidableEq, Repr

/-- Start-up, normal service or keeper mode (R43). -/
inductive Mode where
  | starting | normal | keeper
  deriving DecidableEq, Repr

/-- The identity of a piece of the block's own line work (R25): what its completion is for. -/
inductive Task where
  /-- the next line of operation `id`'s range -/
  | op (id : Nat)
  /-- a line of ring entries of a queue (R293) -/
  | ring (queue : Nat)
  /-- a fetch of a quay's instruction cache (R348) -/
  | ifetch (quay id : Nat)
  /-- an operand line of a reduction slot's chunk (R259) -/
  | operand (slot chunk idx : Nat)
  /-- a store line of a reduction slot's chunk (R261) -/
  | store (slot chunk idx : Nat)
  /-- a trace line of ring 256 (owner) or a mooring's ring (R591) -/
  | trace (ring : Nat)
  /-- a dump line of a reset domain (R573) -/
  | dump (domain idx : Nat)
  /-- the end of a Tide turn on an engine's slot (R182) -/
  | turn (engine slot : Nat)
  deriving DecidableEq, Repr

/-! ### Lichen (R123 to R176) -/

/-- Who asked for a line. -/
inductive Origin where
  /-- a line of an upstream request: lane, request serial, index in the request -/
  | up (lane req idx : Nat)
  /-- the block itself, through the internal channel (R25) -/
  | task (t : Task)
  /-- a Tide turn on a counter slot (R181, R193) -/
  | turn (slot : Nat) (scrub : Bool)
  deriving DecidableEq, Repr

/-- What is done to a line. -/
inductive LineKind where
  | read
  | full
  | part
  /-- SEAL_LOAD's write of a line of a LOADING region (R163) -/
  | seal
  /-- a re-key turn (R181) -/
  | rekey
  /-- a scrub turn (R193) -/
  | scrub
  deriving DecidableEq, Repr

/-- How far a line operation has come. -/
inductive LinePhase where
  /-- behind earlier work on its line, or not begun (R61) -/
  | waiting
  /-- waiting for the counter line, the old line or its tag -/
  | fetch
  /-- a read that shares the response of operation `lead` (R156) -/
  | share (lead : Nat)
  /-- a partial write in its chain: plaintext at hand or due, not yet merged (R151) -/
  | merge
  /-- merged; the next entry of the chain merges at CHAIN_HANDOFF (R153) -/
  | merged
  /-- reading the poison record before a clearing write (R159) -/
  | record
  /-- its downstream write is due (R150) -/
  | ready
  /-- its downstream write, and in carve-out mode its tag-line write, are outstanding -/
  | writing
  /-- its poison record is due or outstanding; the line then ends with this status (R158) -/
  | poison (st : Status)
  deriving DecidableEq, Repr

/-- The descriptor in force for a frozen line at its acceptance (R164). -/
structure FrzSnap where
  idx   : Nat
  state : Nat
  gen   : Nat
  deriving DecidableEq, Repr

/-- One line of work accepted by an engine, in acceptance order. -/
structure LineOp where
  id     : Nat
  org    : Origin
  kind   : LineKind
  pool   : Bool
  line   : Nat
  /-- controller data line of a local line; counter slot of the line -/
  dline  : Nat
  slot   : Nat
  keyid  : Nat
  ten    : Nat
  ctx    : Nat
  /-- key in force at acceptance (R137); for a turn the old key -/
  key    : Bytes
  /-- new key of a turn -/
  key2   : Bytes := []
  frz    : Option FrzSnap := none
  cls    : Nat := 63
  cyc    : Nat := 0
  phase  : LinePhase := .waiting
  beat   : Option (Bytes × Nat) := none
  /-- stored line, side-band or tag, uncorrectable flag, as they come back -/
  old    : Option (Bytes × Nat × Bool) := none
  tag    : Option (Nat × Bool) := none
  plain  : Option Bytes := none
  /-- the slot's value found by the lookup -/
  ctr    : Option Nat := none
  /-- counter to write under, where the poison record gives it (R159) -/
  base   : Option Nat := none
  /-- the counter of the write issued last -/
  used   : Nat := 0
  /-- the chain's first entry, and how many entries have merged before this one (R152) -/
  chain  : Option Nat := none
  dirty  : Bool := false
  /-- data write and tag write still due -/
  wData  : Bool := false
  wTag   : Bool := false
  wBad   : Bool := false
  /-- accepted before a fence, so it is answered in a drain (R549) -/
  fenced : Bool := false
  /-- its requester has been answered E_FENCED at DRAIN_LIMIT; the write alone goes on (R53, R157) -/
  told   : Bool := false
  deriving DecidableEq, Repr

/-- What a downstream request is for. -/
inductive DnUse where
  | data (op : Nat)
  | tag (op : Nat)
  | poison (op : Nat)
  | ctr (prefetch : Bool)
  | ctrWb (slots : List Nat) (flush : Bool)
  | tagJob
  | init
  deriving DecidableEq, Repr

/-- A downstream request, due or outstanding (R68, R552). -/
structure DnReq where
  id    : Nat
  wr    : Bool
  pool  : Bool := false
  line  : Nat
  cls   : Nat
  /-- a priority fixed by R546 in place of the class's: 0 for prefetch, 15 for fence and poison traffic -/
  prio  : Option Nat := none
  cyc   : Nat
  use   : DnUse
  data  : Bytes := []
  sb    : Nat := 0
  /-- DN_REQ_ID once issued -/
  rid   : Nat := 0
  deriving DecidableEq, Repr

/-- A tag carve-out line under update: its edits (tag slot, 64-bit value as stored, operation) (R130). -/
structure TagJob where
  line   : Nat
  edits  : List (Nat × Bytes × Nat)
  /-- 0 read due, 1 read outstanding, 2 write due, 3 write outstanding -/
  stage  : Nat := 0
  base   : Bytes := []
  deriving DecidableEq, Repr

/-- A resident line of the counter cache; lists of them stand most recently used first (R141). -/
structure CtrLine where
  line  : Nat
  slots : List Nat
  dirty : Bool := false
  deriving DecidableEq, Repr

/-- A stream tracker (R142). -/
structure Tracker where
  line : Nat
  live : Bool
  deriving DecidableEq, Repr

/-- An entry of the key cache (R136): the berth it was loaded from and what the checks test. -/
structure KeyEnt where
  keyid  : Nat
  berth  : Nat
  /-- true for a berth held for Tide (R185) -/
  tide   : Bool := false
  deriving DecidableEq, Repr

/-- How a line of an upstream request ended, its response beat still to be given: its status, its data, and
what Breakwater samples at the beat (class, acceptance cycle, none where R549 takes no sample). -/
structure LineEnd where
  idx    : Nat
  st     : Status
  data   : Bytes
  sample : Option (Nat × Nat)
  deriving DecidableEq, Repr

/-- An upstream request and the beats it still owes (R58, R62). -/
structure UpJob where
  serial : Nat
  req    : UpReq
  ends   : List LineEnd := []
  sent   : Nat := 0
  deriving DecidableEq, Repr

/-- A lane of an upstream port: accepted requests not fully answered, lines that wait for a write-data
beat (request serial, line index; R59), and the request that READY_P holds off (R63, R64). -/
structure Lane where
  jobs  : List UpJob := []
  beats : List (Nat × Nat) := []
  held  : Option UpReq := none
  deriving DecidableEq, Repr

/-- A frozen region descriptor as one engine holds it (R175). -/
structure Frz where
  base  : Nat := 0
  lines : Nat := 0
  state : Nat := 0
  keyid : Nat := 0
  gen   : Nat := 0
  fill  : Nat := 0
  fails : Nat := 0
  deriving DecidableEq, Repr

/-- A pool home window (R176). -/
structure Phome where
  base  : Nat := 0
  lines : Nat := 0
  slot  : Nat := 0
  valid : Bool := false
  deriving DecidableEq, Repr

/-- Registers of an engine (R170 to R173). -/
structure LicReg where
  ownerPcf : Bool := true
  pfEn     : Bool := true
  pfDist   : Nat := 48
  initBusy : Bool := false
  initDone : Bool := false
  base     : Nat := 0
  limit    : Nat := 0
  waysLog2 : Nat := 0
  way      : Nat := 0
  granLog2 : Nat := 12
  memLines : Nat := 0
  dataLines : Nat := 0
  tagBase  : Nat := 0
  ctrBase  : Nat := 0
  poisonCnt : Nat := 0
  failAddr : Nat := 0
  failPool : Bool := false
  failSt   : Nat := 0
  deriving DecidableEq, Repr

/-- One Lichen engine. -/
structure Engine where
  reg   : LicReg := {}
  frz   : Tab Frz := []
  phome : Tab Phome := []
  lanes : Tab Lane := []
  ops   : List LineOp := []
  due   : List DnReq := []
  out   : List DnReq := []
  tags  : List TagJob := []
  cc    : List CtrLine := []
  kc    : List KeyEnt := []
  trk   : List Tracker := []
  /-- cycle of the last downstream write of a line, pool lines at line + 2^43 (R140) -/
  lastWr : Tab Nat := []
  /-- next carve-out line that INIT fills (R131) -/
  fill  : Nat := 0
  qlvl  : Nat := 0
  /-- requests answered at DRAIN_LIMIT whose response is still due (R53) -/
  late  : List Nat := []
  deriving DecidableEq, Repr

/-! ### Tide (R177 to R200) -/

/-- A Tide slice (R199), with the credit and the window's observations of R188. -/
structure Slice where
  kind   : Nat := 0
  held   : Bool := false
  job    : Nat := 0
  keyid  : Nat := 0
  moor   : Nat := 0
  rate   : Nat := 0
  tideLine : Nat := 0
  localFirst : Nat := 0
  localEnd   : Nat := 0
  poolFirst  : Nat := 0
  poolEnd    : Nat := 0
  oldBerth : Nat := 0
  newBerth : Nat := 0
  credit : Nat := 0
  /-- downstream bytes of other traffic in the window, and whether DN_QLVL reached QLVL_HI in it -/
  other  : Nat := 0
  press  : Bool := false
  /-- next slot without a turn, and finished slots above the tide line -/
  next   : Nat := 0
  fin    : List Nat := []
  /-- further intervals of a scrub, walked after this one -/
  more   : List (Nat × Nat) := []
  deriving DecidableEq, Repr

/-- A Tide job (R200) with its totals (R182). -/
structure TideJob where
  state : Nat := 0
  kind  : Nat := 0
  keyid : Nat := 0
  moor  : Nat := 0
  mask  : Nat := 0
  done  : Nat := 0
  start : Nat := 0
  order : Nat := 0
  oldBerth : Nat := 0
  newBerth : Nat := 0
  tDone : Nat := 0
  tSkip : Nat := 0
  tClear : Nat := 0
  tFail : Nat := 0
  /-- engines on which the job has started -/
  began : Nat := 0
  deriving DecidableEq, Repr

/-- The counter slots of a KeyID's arena on one engine (R178). -/
structure ArenaIv where
  localFirst : Nat := 0
  localEnd   : Nat := 0
  poolFirst  : Nat := 0
  poolEnd    : Nat := 0
  deriving DecidableEq, Repr

/-- The Tide controller. -/
structure Tide where
  basePct  : Nat := 10
  maxPct   : Nat := 50
  minPct   : Nat := 2
  pressPrio : Nat := 12
  qlvlHi   : Nat := 12
  scrubBerth : Nat := 0
  slices : Tab Slice := []
  jobs   : Tab TideJob := []
  order  : Nat := 0
  /-- keyed by KeyID * 8 + engine -/
  arena  : Tab ArenaIv := []
  deriving DecidableEq, Repr

/-! ### Breakwater (R545 to R563) -/

/-- A class entry (R561). -/
structure BwClass where
  base   : Nat := 0
  limit  : Nat := 0
  en     : Bool := false
  target : Nat := 1000000
  prio   : Nat := 0
  res    : Bool := false
  maxPct : Nat := 0
  alpha  : Nat := 4
  deriving DecidableEq, Repr

/-- An engine's regulator state for a class (R548, R550, R555). -/
structure BwReg where
  /-- AVG in sixteenths of a nanosecond -/
  avg     : Nat := 0
  level   : Nat := 0
  samples : Nat := 0
  credit  : Nat := 0
  /-- lines accepted before this cycle are not sampled (R549) -/
  since   : Nat := 0
  /-- cycle of the last sample, plus one -/
  last    : Nat := 0
  deriving DecidableEq, Repr

/-- The global fields of Breakwater (R560). -/
structure BwCtrl where
  qlvlThr  : Nat := 12
  throttle : Nat := 7
  starve   : Nat := 10
  deriving DecidableEq, Repr

/-- Breakwater. -/
structure Bwater where
  ctrlStaged : BwCtrl := {}
  ctrl       : BwCtrl := {}
  staged     : Tab BwClass := []
  cls        : Tab BwClass := []
  /-- keyed by engine * 64 + class -/
  reg        : Tab BwReg := []
  /-- operations raised to priority 14 by STARVE (engine, operation; R552) -/
  starved    : List (Nat × Nat) := []
  deriving DecidableEq, Repr

/-! ### Event unit (R518 to R544) -/

/-- A record raised and not yet issued on the port (R530): its queue, its 32 bytes, and whether it is
of a privileged source (R537). -/
structure EvRec where
  queue : Nat
  data  : Bytes
  priv  : Bool := false
  deriving DecidableEq, Repr

/-- State of a queue's interrupt (R532). -/
inductive Arm where
  | armed | ready | disarmed
  deriving DecidableEq, Repr

/-- An event queue (R542). -/
structure EvQueue where
  base  : Nat := 0
  size  : Nat := 4
  prio  : Nat := 0
  coalCnt  : Nat := 1
  coalTime : Nat := 1
  en    : Bool := false
  ten   : Nat := 256
  arm   : Arm := .armed
  overflow : Bool := false
  msiAddr : Nat := 0
  msiData : Nat := 0
  head  : Nat := 0
  tail  : Nat := 0
  ovf   : Nat := 0
  pend  : Nat := 0
  timer : Bool := false
  lost  : Nat := 0
  lostNs : Nat := 0
  deriving DecidableEq, Repr

/-- A bank's stack of priorities in service, top first, and its FAULT bit (R534). -/
structure Bank where
  stack : List Nat := []
  fault : Bool := false
  deriving DecidableEq, Repr

/-- A source's target entry: queue and EN. -/
structure EvTarget where
  eq : Nat := 0
  en : Bool := false
  deriving DecidableEq, Repr

/-- The event unit. -/
structure EvUnit where
  gdis   : Bool := false
  privEq : Nat := 0
  privWritten : Bool := false
  ownerAsync : EvTarget := {}
  ownerSw : Tab EvTarget := []
  prio0  : Nat := 0
  prio1  : Nat := 0
  route  : Nat := 0
  store  : List EvRec := []
  queues : Tab EvQueue := []
  /-- banks 0-3 and 4 and 8 + t (R534) -/
  banks  : Tab Bank := []
  /-- pending bits of a Harbourmaster core (R540) -/
  hmPend : Tab Nat := []
  deriving DecidableEq, Repr

/-! ### Contexts, queues, objects, bollards, mailbox (R280 to R342) -/

/-- State of a context (R282, R284). -/
inductive CtxState where
  | clean | lost | retiring
  deriving DecidableEq, Repr

/-- A context table entry (R282). -/
structure CtxEnt where
  state  : CtxState := .clean
  cause  : Nat := 0
  active : Nat := 0
  busyNs : Nat := 0
  bytes  : Nat := 0
  held   : Nat := 0
  /-- timebase value at which ACTIVE last rose above 0 -/
  since  : Nat := 0
  deriving DecidableEq, Repr

/-- A submission queue (R340), with the entries fetched and not started, the line fetch under way and the
number of commands executing (R294). -/
structure SubQueue where
  base  : Nat := 0
  size  : Nat := 4
  eq    : Nat := 0
  quay  : Nat := 0
  ten   : Nat := 0
  en    : Bool := false
  stopped : Bool := false
  stopSt  : Nat := 0
  head  : Nat := 0
  tail  : Nat := 0
  progress : Nat := 0
  /-- ring index and 64 bytes of fetched entries, oldest first -/
  fetched : List (Nat × Bytes) := []
  /-- line fetches under way: ring index of the first entry wanted and entry count; at most two (R293) -/
  fetching : List (Nat × Nat) := []
  running : Nat := 0
  /-- the descriptor is unusable after a double-bit error (R39) -/
  bad   : Bool := false
  deriving DecidableEq, Repr

/-- State of an object table entry (R310). -/
inductive ObjState where
  | free | live | freeing | retired
  deriving DecidableEq, Repr

/-- Type of an object (R310). -/
inductive ObjType where
  | memory | bollard | extent
  deriving DecidableEq, Repr

/-- An object table entry (R310). -/
structure Obj where
  state : ObjState := .free
  ten   : Nat := 0
  typ   : ObjType := .memory
  addr  : Nat := 0
  size  : Nat := 0
  boll  : Nat := 0
  gen   : Nat := 1
  refs  : Nat := 0
  /-- context that allocated an extent -/
  ctx   : Nat := 0
  /-- the operation whose OBJ_FREE or FREE waits for the references -/
  waiter : Option Nat := none
  /-- the entry is unusable after a double-bit error (R39) -/
  bad   : Bool := false
  deriving DecidableEq, Repr

/-- A bollard store entry (R316, R341). -/
structure Bollard where
  value : Nat := 0
  /-- 0 FREE, 1 LIVE, 2 BROKEN -/
  state : Nat := 0
  ten   : Nat := 0
  signaller : Nat := 0
  noSig : Bool := false
  obj   : Nat := 0
  bad   : Bool := false
  deriving DecidableEq, Repr

/-- The mailbox registers and window (R339), with the requester of the running command: none for the
register port, a session number for a command that came in an SPDM session (R460). -/
structure Mbox where
  busy   : Bool := false
  code   : Nat := 0
  result : Nat := 0
  serial : Nat := 0
  eq     : Nat := 0
  reject : Nat := 0
  startNs : Nat := 0
  endNs  : Nat := 0
  oper   : Tab Nat := []
  res    : Tab Nat := []
  dataLen : Nat := 0
  /-- bytes of the window, keyed by 32-byte block -/
  data   : Tab Bytes := []
  sess   : Option Nat := none
  deriving DecidableEq, Repr

/-- Read or write of a byte range, one line at a time, through the engines that own its lines (R25). -/
structure RangeIo where
  wr   : Bool
  addr : Nat
  len  : Nat
  pos  : Nat := 0
  buf  : Bytes := []
  deriving DecidableEq, Repr

/-! ### Quays and sessions (R201 to R248, R398 to R400) -/

/-- State of a session (R247). -/
inductive SessState where
  | closed | opened | migrating | revoking | broken
  deriving DecidableEq, Repr

/-- What ends when a packet's frame has started, or its reply arrives. -/
inductive TxOrg where
  /-- a flit packet of a tile -/
  | flit
  /-- a strand's operation -/
  | op (id : Nat)
  /-- the FED unit (R501) -/
  | fed
  /-- the request of an engine's pool lines (R405) -/
  | pool (id : Nat)
  /-- a reply of the memory path (R392), or the FED unit's answer -/
  | reply
  deriving DecidableEq, Repr

/-- A packet that waits for its frame (R214). -/
structure TxItem where
  sess : Nat
  typ  : Nat
  data : Bytes
  ten  : Nat
  ctx  : Nat
  org  : TxOrg
  /-- built from a packet of more than one beat, so PAYLOAD_LEN is 0xFFFF (R205) -/
  long : Bool := false
  deriving DecidableEq, Repr

/-- A frame in replay space (R216, R223). -/
structure Replay where
  seq   : Nat
  gen   : Nat
  typ   : Nat
  epoch : Nat
  header : Bytes
  frame : Bytes
  data  : Bytes
  long  : Bool
  /-- contexts whose packets the frame carries -/
  ctxs  : List (Nat × Nat)
  orgs  : List TxOrg
  tries : Nat := 0
  sack  : Bool := false
  dest  : Nat
  src   : Nat
  deriving DecidableEq, Repr

/-- An authenticated data frame in reassembly space (R219). -/
structure RxFrame where
  typ   : Nat
  data  : Bytes
  gen   : Nat
  /-- the frame header as received (R571) -/
  header : Bytes := []
  /-- records of a BULK frame already handed on -/
  done  : Nat := 0
  deriving DecidableEq, Repr

/-- A generation's key and salt; the berth that holds it (R207, R210). -/
structure GenKey where
  gen   : Nat
  berth : Nat
  salt  : Nat
  /-- the derivation has finished (R227) -/
  ready : Bool := true
  deriving DecidableEq, Repr

/-- A counted operation of the initiator (R399): its request packet as sent, RID, origin and context. -/
structure Pend where
  anum : Nat
  sess : Nat
  data : Bytes
  org  : TxOrg
  ten  : Nat
  ctx  : Nat
  /-- due for re-sending under R402 -/
  resend : Bool := false
  deriving DecidableEq, Repr

/-- A session index (R207, R212). -/
structure Session where
  state : SessState := .closed
  ten   : Nat := 0
  gw    : Bool := false
  quay  : Nat := 0
  dest  : Nat := 0
  peerSess : Nat := 0
  cause : Nat := 0
  serial : Nat := 0
  /-- berth of the master secret, and reserved receive-key berths that hold no generation (R207) -/
  master : Option Nat := none
  spare : List Nat := []
  /-- this end's direction: 0 from the lower to the higher instance, 1 the other way (R210) -/
  dir   : Nat := 0
  /-- transmit generation and the keys of it and the next -/
  txGen : Nat := 0
  txKeys : List GenKey := []
  /-- receive generation R and the keys of R - 2 to R + 1 -/
  rxGen : Nat := 0
  rxKeys : List GenKey := []
  peerRxGen : Nat := 0
  rot   : Bool := false
  genFrames : Nat := 0
  at62  : Bool := false
  seq   : Nat := 1
  ctl   : Nat := 0
  replay : List Replay := []
  rel   : Nat := 0
  /-- highest control number accepted, plus one -/
  ctlRx : Nat := 0
  rx    : Tab RxFrame := []
  ackRx : Nat := 0
  /-- releases not yet acknowledged, and an acknowledgement held for a derivation (R220, R227) -/
  unacked : Nat := 0
  /-- a frame of a generation whose successor key is not yet derived has been taken -/
  ackHold : Bool := false
  /-- repetitions of the PROBE since the migration; none while no PROBE is awaited -/
  probe : Option Nat := none
  anum  : Nat := 1
  wmark : Nat := 0
  /-- record area of the mooring, and the peer it is kept for (R400, R402) -/
  area  : Option Nat := none
  areaPeer : Nat := 0
  areaPeerSess : Nat := 0
  areaTen : Nat := 0
  /-- the strand operation of a posted RECV (R363) -/
  recv  : Option Nat := none
  /-- a federation session's use: none for an ordinary session (R501) -/
  fed   : Bool := false
  deriving DecidableEq, Repr

/-- A coalescing buffer of a gateway quay (R237). -/
structure GwBuf where
  sess : Nat
  data : Bytes
  items : List TxItem
  flush : Bool := false
  deriving DecidableEq, Repr

/-- A control frame that is due (R214, R220, R234). -/
inductive CtlDue where
  | ack (sess : Nat)
  | probe (sess : Nat) (migrated : Bool)
  deriving DecidableEq, Repr

/-- Fault injection values (R246). -/
structure Inj where
  dropEn : Bool := false
  corrEn : Bool := false
  reordEn : Bool := false
  depth  : Nat := 1
  types  : Nat := 0
  drop   : Nat := 0
  corr   : Nat := 0
  reord  : Nat := 0
  deriving DecidableEq, Repr

/-- A packet handed to the memory path: its session and its bytes (R388, R390). -/
structure MemPkt where
  sess : Nat
  data : Bytes
  deriving DecidableEq, Repr

/-- A line of the instruction cache (R348): object index and generation, line of the object, words. -/
structure ICLine where
  obj  : Nat
  gen  : Nat
  line : Nat
  data : Bytes
  /-- fetched ahead and not yet issued from -/
  ahead : Bool := false
  deriving DecidableEq, Repr

/-- A fetch of a program line under way. -/
structure ICFetch where
  id   : Nat
  obj  : Nat
  gen  : Nat
  line : Nat
  ten  : Nat
  ctx  : Nat
  ahead : Bool
  /-- the line as it came back, to be taken at IFETCH_LINE_RETURN -/
  back : Option (Status × Bytes) := none
  deriving DecidableEq, Repr

/-- State of a strand (R345). -/
inductive StrandState where
  | idle | running | paused | draining
  deriving DecidableEq, Repr

/-- What a running strand waits for at its present instruction (R382's WAIT). -/
inductive StrandWait where
  | no
  /-- the instruction cache -/
  | fetch
  /-- WAITB on an object index, with the target and the instruction -/
  | bollard (obj target word : Nat)
  /-- FENCE, SIGB, FREE or HALT, the word given: earlier outstanding operations -/
  | drain (word : Nat)
  /-- ALLOC or FREE: the operation with this identifier -/
  | op (id : Nat)
  deriving DecidableEq, Repr

/-- A loop-stack entry (R343). -/
structure LoopEnt where
  body  : Nat
  endl  : Nat
  count : Nat
  deriving DecidableEq, Repr

/-- A strand (R343 to R345, R382). -/
structure Strand where
  state : StrandState := .idle
  pc    : Nat := 0
  /-- g1 to g15 -/
  g     : Tab (BitVec 64) := []
  loops : List LoopEnt := []
  fault : Status := .ok
  /-- offset and opcode of the faulting instruction, and CODE of a TRAP (R356) -/
  faultPc : Nat := 0
  faultOp : Nat := 0
  trap  : Nat := 0
  wait  : StrandWait := .no
  /-- the operation of the PROGRAM_LAUNCH -/
  launch : Nat := 0
  /-- handle of the program object -/
  prog  : Nat := 0
  /-- objects named, to which the strand holds a reference (R312) -/
  refs  : List Nat := []
  ten   : Nat := 0
  ctx   : Nat := 0
  deriving DecidableEq, Repr

/-- One quay. -/
structure Quay where
  spare  : Nat := 0
  gwEn   : Bool := false
  retxLimit : Nat := 8
  rotLog2 : Nat := 32
  ackDelay : Nat := 32
  ackEvery : Nat := 16
  addr   : Nat := 0
  linkUp : Bool := false
  injStaged : Inj := {}
  injSeed : Nat := 1
  injActive : Bool := false
  inj    : Inj := {}
  lfsr   : Nat := 1
  sessSel : Nat := 0
  flit   : List TxItem := []
  fedTx  : List TxItem := []
  strandTx : List TxItem := []
  redTx  : List (Nat × Nat) := []
  gw     : List GwBuf := []
  memTx  : List TxItem := []
  ctl    : List CtlDue := []
  retx   : List (Nat × Nat) := []
  rr     : Nat := 0
  /-- frames held back by injection, with the frames still to pass (R241) -/
  heldTx : List (Nat × Bytes) := []
  memIn  : List MemPkt := []
  pend   : List Pend := []
  icache : List ICLine := []
  ifetch : List ICFetch := []
  strands : Tab Strand := []
  /-- strand that issued last (R346) -/
  rrStrand : Nat := 3
  rxReady : Bool := true
  deriving DecidableEq, Repr

/-! ### Reduction (R249 to R279) -/

/-- A value of the datapath: an FP32 pattern or an INT64 pattern, one per element. -/
abbrev Vals := List Nat

/-- A partial of a chunk: ranks covered and values (R257, R260). -/
structure Partial where
  first : Nat
  count : Nat
  vals  : Vals
  /-- quay whose reassembly beats hold it, and how many; none for the local operand -/
  quay  : Option (Nat × Nat) := none
  /-- made by FIXED's combinations alone (R271) -/
  contig : Bool := true
  /-- header and payload of the frame it came in (R571) -/
  raw   : Bytes := []
  deriving DecidableEq, Repr

/-- A chunk in progress (R259 to R262). -/
structure Chunk where
  idx  : Nat
  /-- holds an accumulator entry (R250) -/
  entry : Bool := false
  acc  : Option Partial := none
  staged : List Partial := []
  /-- ranges of the partials accepted so far, counted from BASE, the local operand's rank included -/
  covered : List (Nat × Nat) := []
  /-- the read of the operand's elements, or of its scales; elements read; outcome of the whole (R259) -/
  operand : Option RangeIo := none
  opData : Bytes := []
  opScales : Bool := false
  opBack : Option Status := none
  /-- the local operand has been decoded, or there is none -/
  loaded : Bool := false
  /-- the ranges still to be written for a STORE -/
  store : List RangeIo := []
  storing : Bool := false
  storeBack : Option Status := none
  /-- combinations made -/
  combos : Nat := 0
  /-- complete and handed to its output; the chunk has been output -/
  done  : Bool := false
  out   : Bool := false
  deriving DecidableEq, Repr

/-- A reduction slot (R251, R278). -/
structure Slot where
  armed : Bool := false
  ten   : Nat := 0
  ctx   : Nat := 0
  tag   : Nat := 0
  op    : Nat := 0
  fmt   : Nat := 0
  wide  : Bool := false
  arrival : Bool := false
  group : Nat := 0
  base  : Nat := 0
  expect : Nat := 0
  localRank : Nat := 0
  elems : Nat := 0
  chunkElems : Nat := 0
  src   : Nat := 0
  srcScale : Nat := 0
  forward : Bool := false
  dst   : Nat := 0
  dstScale : Nat := 0
  sess  : Nat := 0
  peerSlot : Nat := 0
  bollard : Nat := 0
  lastTag : Nat := 0
  lastSt : Nat := 0
  chunksDone : Nat := 0
  chunks : List Chunk := []
  /-- chunks whose operand read is due, from chunk 0 -/
  nextChunk : Nat := 0
  refs  : List Nat := []
  /-- the arming's identifier, which its line work carries -/
  serial : Nat := 0
  deriving DecidableEq, Repr

/-- A released REDUCE frame that waits for its slot (R258). -/
structure RedWait where
  quay : Nat
  sess : Nat
  slot : Nat
  tag  : Nat
  data : Bytes
  header : Bytes := []
  deriving DecidableEq, Repr

/-- The reduction datapath. -/
structure Reduce where
  pfChunks : Nat := 2
  arrivalEn : Bool := true
  slotSel : Nat := 0
  slots  : Tab Slot := []
  waits  : List RedWait := []
  deriving DecidableEq, Repr

/-! ### Operations under way -/

/-- Who waits for an operation's end. -/
inductive Owner where
  /-- a queue command: queue, ring index, USER, QUIET (R296) -/
  | queue (q idx user : Nat) (quiet : Bool)
  /-- a strand's instruction at an offset (R347) -/
  | strand (quay k pc : Nat)
  /-- a request served for a session's peer: session, its serial, request header (R390) -/
  | target (sess serial : Nat) (header : Bytes)
  /-- a mooring's ALLOC_DB request (R329) -/
  | allocDb (moor : Nat)
  /-- the block itself, with nobody waiting -/
  | block
  deriving DecidableEq, Repr

/-- How far a SEAL_LOAD has come (R480 to R482). -/
structure SealSt where
  quay   : Nat
  region : Nat
  berth  : Nat
  consume : Bool
  /-- the model key as loaded (R427) -/
  key    : Bytes
  /-- address of the ring's first byte, and its bytes -/
  src    : Nat
  len    : Nat
  /-- bollard objects; drain 0 for none -/
  fill   : Nat
  drain  : Nat
  /-- 0 staging space, 1 FILL of the header, 2 header read, 3 FILL of a record, 4 record read, 5 lines written -/
  stage  : Nat := 0
  /-- container byte that the next read takes, bytes still to read, and what was read -/
  pos    : Nat := 0
  want   : Nat := 0
  got    : Bytes := []
  header : Bytes := []
  total  : Nat := 0
  record : Nat := 0
  /-- verified plaintext of the record being written, and the next line of the region -/
  plain  : Bytes := []
  line   : Nat := 0
  deriving DecidableEq, Repr

/-- What an operation does. -/
inductive Body where
  /-- nothing further: it ends with its status -/
  | plain
  | copy (quay src dst len : Nat) (writing : Bool)
  | launch (quay k : Nat)
  | wait (obj target : Nat)
  | objFree (obj : Nat)
  /-- ALLOC with ZERO: extent address and size, pool, object index -/
  | allocZero (addr size : Nat) (pool : Bool) (regD regH : Nat)
  | alloc (regD regH : Nat)
  | sealLoad (z : SealSt)
  | unwrap (args : List Nat) (data : Bytes)
  | queryCtx
  | retire (target squashed : Nat)
  | ld (reg : Nat)
  | st
  /-- PUT: next local address, session, remote handle, next remote offset, bytes still to read; RIDs awaiting a reply -/
  | put (loc sess handle off len : Nat) (rids : List Nat)
  /-- GET: session; pieces awaiting a reply (RID, local address, length); local writes still to be made -/
  | get (sess : Nat) (pieces : List (Nat × Nat × Nat)) (writes : List (Nat × Bytes))
  /-- SEND: session, next local address, bytes still to read, frames handed over and not started -/
  | send (sess loc len unstarted : Nat)
  /-- RECV: session, buffer address, length, bytes taken, writes waiting -/
  | recv (sess loc len taken : Nat) (queued : List (Nat × Bytes))
  | atom (sess reg : Nat) (fetch : Bool) (typ : Nat)
  | rsig (sess : Nat)
  /-- pool lines of an engine on a session, in line order (R405) -/
  | poolReq (engine sess : Nat) (wr : Bool) (lines : List Nat)
  | tgtWrite
  | tgtRead
  /-- ATOM at the target: engine line op, word offset in the line, operation, type, operand, compare, prior -/
  | tgtAtom (aop typ off x c prior : Nat)
  /-- SIGNAL at the target: bollard object, value, and the RECV it waits for with the bytes that RECV had taken -/
  | tgtSignal (obj value : Nat) (recv : Option (Nat × Nat))
  | tgtPoolRead (lines : List Nat) (images : Bytes) (cur : Bytes)
  | tgtPoolWrite (lines : List (Nat × Bytes)) (tagNext : Bool)
  /-- replay of a counted request: the record is read (R401) -/
  | tgtRecord (anum kind : Nat)
  | recordWrite
  /-- the zero fill of a mooring's metadata area (R488): mooring, address, bytes -/
  | admitFill (t addr size : Nat)
  deriving DecidableEq, Repr

/-- An operation under way. -/
structure Op where
  own   : Owner
  ten   : Nat
  ctx   : Nat
  code  : Nat
  body  : Body
  io    : Option RangeIo := none
  refs  : List Nat := []
  compl : Nat := 0
  st    : Status := .ok
  res   : Nat := 0
  handle : Nat := 0
  /-- ACTIVE of the context counts it (R282) -/
  counted : Bool := true
  /-- it has ended with `st`, `res` and `handle`, and its owner has not heard of it yet -/
  fin   : Bool := false
  /-- false while an earlier operation of the strand on the same session has packets to hand over (R347) -/
  begun : Bool := true
  /-- packets to hand over when it begins -/
  pkts  : List Bytes := []
  deriving DecidableEq, Repr

/-! ### Berths, life cycle, entropy (R411 to R451) -/

/-- State of a berth (R424). -/
inductive BerthState where
  | empty | valid | revoking | quarantine | bad
  deriving DecidableEq, Repr

/-- A berth (R424); `fault` marks a corrupted tag or a double-bit error not yet met by a load (R39, R41). -/
structure Berth where
  key     : Bytes := []
  masters : Nat := 0
  world   : Nat := 0
  tenant  : Nat := 0
  lcmask  : Nat := 0
  usage   : Nat := 0
  state   : BerthState := .empty
  tag     : Nat := 0
  deriving DecidableEq, Repr

/-- A KeyID map entry (R432). -/
structure KmapEnt where
  berth   : Nat := 0
  alt     : Nat := 0
  altMask : Nat := 0
  valid   : Bool := false
  deriving DecidableEq, Repr

/-- The life-cycle fields of LC_STATUS (R449); `otp` is the OTP words as read and programmed. -/
structure LifeCycle where
  otp     : Tab Nat := []
  /-- state code in force -/
  state   : Nat := 7
  pending : Bool := false
  pendTarget : Nat := 0
  recoverable : Bool := false
  intrWord : Nat := 0
  intrTarget : Nat := 0
  rootState : Nat := 0
  /-- the root secret as the KDF hardware reads it (R417) -/
  root    : Bytes := []
  fillBusy : Bool := false
  fillNext : Nat := 0
  tokenFails : Nat := 0
  tokenLock : Bool := false
  /-- programming under way: words still to program (index, bits), words programmed, and the target -/
  prog    : List (Nat × Nat) := []
  target  : Nat := 0
  /-- an erase under way comes before the programming -/
  erasing : Bool := false
  deriving DecidableEq, Repr

/-- State of the entropy source (R413). -/
inductive EntState where
  | startup | ok | retry | failed
  deriving DecidableEq, Repr

/-- Entropy source and DRBG (R411 to R415). -/
structure Entropy where
  state  : EntState := .startup
  fails  : Nat := 0
  /-- samples of the start-up run so far -/
  seen   : Nat := 0
  /-- repetition count: last sample and its run; adaptive proportion: first sample, count, position -/
  last   : Bool := false
  run    : Nat := 0
  first  : Bool := false
  recur  : Nat := 0
  pos    : Nat := 0
  /-- raw samples toward the next conditioned output, newest first -/
  raw    : List Bool := []
  /-- conditioned outputs not yet used -/
  pool   : List Bytes := []
  drbgKey : Bytes := []
  drbgV  : Bytes := []
  inst   : Bool := false
  requests : Nat := 0
  deriving DecidableEq, Repr

/-- Berth table, KeyID map and the KEYLC registers (R424 to R450). -/
structure KeyUnit where
  berths : Tab Berth := []
  tagKey : Bytes := []
  kmap   : Tab KmapEnt := []
  berthSel : Nat := 0
  stage  : Nat := 0
  status : Nat := 0
  kdfCtx : Tab Byte := []
  kmapSel : Nat := 0
  otpSel : Nat := 0
  gate   : Bool := false
  /-- outcomes of the read-backs to come, true for a mismatch (R40) -/
  rbFail : List Bool := []
  /-- the asymmetric crypto unit's input buffer: the ciphertext of an UNWRAP (R477) -/
  ctIn   : Bytes := []
  deriving DecidableEq, Repr

/-! ### Attestation, SPDM, TDISP, IDE (R452 to R474) -/

/-- The asymmetric crypto unit's key store (R452, R453). -/
structure KeyStore where
  valid   : Bool := false
  /-- berth of the UDS -/
  uds     : Option Nat := none
  devE    : Bytes := []
  devM    : Bytes := []
  aliasE  : Bytes := []
  aliasM  : Bytes := []
  deriving DecidableEq, Repr

/-- An object held for GET_OBJECT (R460). -/
structure HeldObj where
  obj   : Nat
  nonce : Bytes
  data  : Bytes
  deriving DecidableEq, Repr

/-- An SPDM session (R456 to R463). -/
structure SpdmSess where
  id    : Nat
  world : World
  /-- 0 after KEY_EXCHANGE, 1 after FINISH -/
  stage : Nat := 0
  transcript : Bytes := []
  th    : Bytes := []
  master : Bytes := []
  /-- handshake and application secrets, requester direction first -/
  hsReq : Bytes := []
  hsRsp : Bytes := []
  secReq : Bytes := []
  secRsp : Bytes := []
  seqReq : Nat := 0
  seqRsp : Nat := 0
  /-- 0 none, 1 OBJ 3 fetched, 2 bound -/
  pq    : Nat := 0
  pqSeed : Bytes := []
  pqEk  : Bytes := []
  held  : List HeldObj := []
  /-- a mailbox result that RESPOND_IF_READY collects -/
  mbox  : Bool := false
  deriving DecidableEq, Repr

/-- An SPDM channel's connection (R456). -/
structure SpdmConn where
  /-- 0 none, 1 after GET_VERSION, 2 after GET_CAPABILITIES, 3 after NEGOTIATE_ALGORITHMS -/
  stage : Nat := 0
  vca   : Bytes := []
  m1    : Bytes := []
  l1    : Bytes := []
  sess  : List SpdmSess := []
  nextId : Nat := 1
  /-- objects held outside any session -/
  held  : List HeldObj := []
  deriving DecidableEq, Repr

/-- State of a TDI (R472). -/
inductive TdiState where
  | unlocked | locked | run | error
  deriving DecidableEq, Repr

/-- A TDI, keyed by virtual function. -/
structure Tdi where
  state  : TdiState := .unlocked
  nonce  : Bytes := []
  stream : Nat := 0
  noFw   : Bool := false
  deriving DecidableEq, Repr

/-- An IDE key command waiting or under way (R96, R474): IDEK_OP, the message, its channel and session. -/
structure IdeCmd where
  op  : Nat
  km  : IdeKm
  hdr : SpdmHdr
  deriving DecidableEq, Repr

/-- Who asked for a report (R460, R465): the mailbox, a GET_OBJECT, or a follower. -/
inductive Asker where
  | mailbox
  | object (h : SpdmHdr) (offset length : Nat)
  | die (d : Nat)
  deriving DecidableEq, Repr

/-- A report under construction (R470): by a pilot from its followers' entries, or by a follower that has
asked its pilot. -/
structure ReportJob where
  kind   : Nat
  nonce  : Bytes
  moor   : Nat := 0
  /-- tenant identity of a KIND 2 report -/
  tenant : Bytes := []
  /-- entries received from followers, by die, with their tenant sections -/
  got    : Tab Bytes := []
  /-- dies not heard of yet -/
  waits  : List Nat := []
  asker  : Asker
  deriving DecidableEq, Repr

/-- Attestation. -/
structure Attest where
  store : KeyStore := {}
  /-- connections: 0 sideband, 1 physical function, 2 + n virtual function n -/
  conns : Tab SpdmConn := []
  /-- DOE request object held for a function: keys as in conns, from 1 -/
  doeHeld : List Nat := []
  tdi   : Tab Tdi := []
  /-- per stream, the key set in use plus one -/
  ideUse : Tab Nat := []
  ideQ  : List IdeCmd := []
  report : Option ReportJob := none
  /-- a SET_OWNER_KEY whose registers are being written -/
  ownerSet : Option SpdmHdr := none
  /-- sideband dynamic address -/
  sbAddr : Option Nat := none
  deriving DecidableEq, Repr

/-! ### Moorings (R342, R484 to R493, R543, R608) -/

/-- State of a mooring (R484). -/
inductive MoorState where
  | free | admitting | active | removing | quarantine | scrubbing
  deriving DecidableEq, Repr

/-- The admission record's settings of a mooring (R486 to R490). -/
structure Admission where
  policy : Nat := 0
  ctxLog2 : Nat := 0
  qFirst : Nat := 0
  qCount : Nat := 0
  slotFirst : Nat := 0
  slotCount : Nat := 0
  eqFirst : Nat := 0
  eqCount : Nat := 0
  quota  : Nat := 0
  keyL   : Nat := 0
  keyP   : Nat := 0
  sessMax : Nat := 0
  lbase  : Nat := 0
  lsize  : Nat := 0
  scratch : Nat := 0
  pool   : Nat := 0
  pbase  : Nat := 0
  poolSess : Nat := 0
  poolRline : Nat := 0
  tenantId : Bytes := []
  tserial : Nat := 0
  traceKib : Nat := 0
  dumpKib : Nat := 0
  /-- (region, LINES, BASE) -/
  regions : List (Nat × Nat × Nat) := []
  deriving DecidableEq, Repr

/-- Free blocks of a buddy arena: (log2 of the size, offset), in rising offset (R324, R325). -/
abbrev Buddy := List (Nat × Nat)

/-- The window registers of a mooring (R342, R543, R608). -/
structure MoorWin where
  qsel   : Nat := 0
  dbErr  : Nat := 0
  rangeCnt : Nat := 0
  allocPending : Bool := false
  allocSt : Nat := 0
  allocHandle : Nat := 0
  allocAddr : Nat := 0
  bsel   : Nat := 0
  eqsel  : Nat := 0
  async  : EvTarget := {}
  sw     : Tab EvTarget := []
  view   : Bool := false
  trHead : Nat := 0
  trTail : Nat := 0
  trDrop : Nat := 0
  dumpSeq : Nat := 0
  replay : Bool := false
  replayCtx : Nat := 0
  deriving DecidableEq, Repr

/-- A mooring. -/
structure Mooring where
  state  : MoorState := .free
  vf     : Option Nat := none
  lastSt : Nat := 0
  adm    : Admission := {}
  win    : MoorWin := {}
  /-- berth of the tenant domain key and of the tenant link key -/
  dkey   : Option Nat := none
  link   : Option Nat := none
  bLocal : Buddy := []
  bPool  : Buddy := []
  /-- objects not FREE or RETIRED -/
  objs   : Nat := 0
  /-- removal: the revocation point has passed, the Lichen drain has ended -/
  revoked : Bool := false
  drained : Bool := false
  /-- SCRUBBING, with no place yet among the Tide jobs for its scrub -/
  scrubDue : Bool := false
  /-- the removal completes on this instance alone (R515) -/
  alone  : Bool := false
  /-- regions loaded: region, MODEL_ID, TOTAL (R468) -/
  models : List (Nat × Bytes × Nat) := []
  deriving DecidableEq, Repr

/-! ### Federation (R496 to R517) -/

/-- FED.STATUS.STATE (R516). -/
inductive FedState where
  | alone | pkgJoining | package | domJoining | member | faulted
  deriving DecidableEq, Repr

/-- A change and its number (R505, R506): KIND and the 48-byte BODY. -/
structure Change where
  kind : Nat
  body : Bytes
  num  : Nat := 0
  /-- started by a mailbox command of this instance -/
  mine : Bool := false
  deriving DecidableEq, Repr

/-- A federation message handed to the FED unit: where it came from and its 64 bytes (R502). -/
structure FedMsg where
  /-- none: the die-to-die port; some s: session s -/
  sess : Option Nat
  die  : Nat
  data : Bytes
  deriving DecidableEq, Repr

/-- A join in progress at its requester (R496). -/
structure Join where
  /-- a domain join, or a package join -/
  domain : Bool
  request : Bytes
  nonce  : Bytes
  dhSeed : Bytes
  kemSeed : Bytes
  /-- parts of the outgoing message not yet placed in RELAY_OUT -/
  parts  : List Bytes := []
  deriving DecidableEq, Repr

/-- A committed REVOKE that waits for DRAINED (R512, R514): its change number, TENANT_ID and TSERIAL, and who
has drained. -/
structure Revoke where
  num  : Nat
  who  : Bytes
  self : Bool := false
  dies : List Nat := []
  pkgs : List Nat := []
  deriving DecidableEq, Repr

/-- A message that arrives in fragments (R500): its kind, its fragment count, the next index, its bytes. -/
structure Gather where
  kind  : Nat := 0
  count : Nat := 0
  next  : Nat := 0
  data  : Bytes := []
  deriving DecidableEq, Repr

/-- A pool route (R409). -/
structure Proute where
  base  : Nat := 0
  limit : Nat := 0
  valid : Bool := false
  sess  : Nat := 0
  rline : Nat := 0
  deriving DecidableEq, Repr

/-- The pool store of this instance (R409). -/
structure Pstore where
  keyid : Nat := 0
  valid : Bool := false
  base  : Nat := 0
  lines : Nat := 0
  deriving DecidableEq, Repr

/-- The FED registers and the relay windows (R409, R516). -/
structure FedReg where
  pkg    : Nat := 0
  anchor : Bool := false
  fsess  : Nat := 0
  msel   : Nat := 0
  memberSel : Nat := 0
  osBase : Nat := 0
  osValid : Bool := false
  relayIn : Tab Byte := []
  relayOut : Bytes := []
  outReady : Bool := false
  outLast : Bool := false
  inLast : Bool := false
  inFull : Bool := false
  inLen  : Nat := 0
  proute : Tab Proute := []
  pstore : Pstore := {}
  deriving DecidableEq, Repr

/-- The federation unit. -/
structure Fed where
  reg    : FedReg := {}
  state  : FedState := .alone
  epoch  : Nat := 0
  cause  : Nat := 0
  /-- the staged change (R508) -/
  prepared : Option Change := none
  /-- anchor: 0 IDLE, 1 PREPARING, 2 COMMITTED -/
  chgState : Nat := 0
  running : Option Change := none
  queue  : List Change := []
  num    : Nat := 0
  /-- acknowledgements received: packages at the anchor, dies at a pilot -/
  acksPkg : List Nat := []
  acksDie : List Nat := []
  ackSelf : Bool := false
  /-- epochs shown in HB_ACK, plus one: by package since the COMMIT, by die since the last HEARTBEAT -/
  hbPkg  : Tab Nat := []
  hbDie  : Tab Nat := []
  /-- committed REVOKEs whose DRAINED is not complete -/
  revokes : List Revoke := []
  /-- packages joined whose federation session is not yet open (R501) -/
  joinPend : List Nat := []
  /-- berths: domain secret, package secret, package federation key, D2D wrap key, owner link key -/
  domSecret : Option Nat := none
  pkgSecret : Option Nat := none
  fedKey : Option Nat := none
  wrapKey : Option Nat := none
  ownerLink : Option Nat := none
  domainId : Bytes := []
  /-- DEVID_HASH of pilots by package, and of this package's followers that have joined -/
  members : Tab Bytes := []
  dies   : List Nat := []
  mode   : Bytes := []
  hbSeen : Bool := false
  /-- a HEARTBEAT has come in the present period (R517) -/
  hbNow  : Bool := false
  inbox  : List FedMsg := []
  /-- IMAGE parts gathered -/
  image  : List Bytes := []
  join   : Option Join := none
  /-- messages being gathered, keyed by source die (relay 8) plus 16 for each class: 0 joins, 1 die entries,
  2 reports -/
  gather : Tab Gather := []
  /-- the pilot's die, and its certificate chains, as the package join gave them -/
  pilotDie : Option Nat := none
  pilotChains : Bytes × Bytes := ([], [])
  /-- complete join messages to be checked: source die or 8, kind, bytes -/
  joined : List (Nat × Nat × Bytes) := []
  /-- answers waiting for RELAY_OUT -/
  outParts : List Bytes := []
  deriving DecidableEq, Repr

/-! ### Faults, soundings, trace, audit, firmware (R564 to R608) -/

/-- State of a reset domain (R567). -/
inductive DomState where
  | active | draining | dumping | fenced
  deriving DecidableEq, Repr

/-- An entry of a dump: its area (none: the owner's), its bytes (R572). -/
structure DumpEnt where
  moor : Option Nat
  data : Bytes
  deriving DecidableEq, Repr

/-- A dump area being written (R573 to R575). -/
structure DumpArea where
  moor : Option Nat
  addr : Nat
  size : Nat
  ten  : Nat
  pos  : Nat := 64
  count : Nat := 0
  trunc : Bool := false
  left : List Bytes := []
  /-- the entry or header being written -/
  io   : Option RangeIo := none
  /-- 0 entries, 1 header, 2 done, 3 a header given up at DUMP_LIMIT -/
  stage : Nat := 0
  deriving DecidableEq, Repr

/-- A reset domain (R566). -/
structure Dom where
  state : DomState := .active
  cause : Nat := 0
  seq   : Nat := 0
  ns    : Nat := 0
  areas : List DumpArea := []
  map   : Nat := 0
  /-- the domain whose fence this one follows: itself, or 32 or 33 -/
  lead  : Nat := 0
  /-- DRAIN_LIMIT has passed, and the entries taken then -/
  limit : Bool := false
  held  : List DumpEnt := []
  deriving DecidableEq, Repr

/-- An island (R116). -/
structure Island where
  powered : Bool := false
  clocked : Bool := false
  iso    : Bool := false
  /-- the FENCED output -/
  fenced : Bool := true
  clk    : Nat := 15
  temp   : Nat := 0
  bistFail : Bool := false
  /-- 0 none, 2 BIST_RUN, 3 DFT port, 4 a return to NORMAL -/
  bistRun : Nat := 0
  /-- waits for one of the two places (R581), coded as bistRun -/
  bistWait : Nat := 0
  hbCount : Nat := 0
  deriving DecidableEq, Repr

/-- FAULT, and the DFT port (R119 to R122, R605). -/
structure FaultUnit where
  islands : Tab Island := []
  doms   : Tab Dom := []
  safe   : Bool := false
  drainLimit : Nat := 200
  dumpLimit : Nat := 200
  relStatus : Nat := 0
  relDom : Nat := 0
  odumpBase : Nat := 0
  odumpSize : Nat := 0
  dumpSeq : Nat := 0
  scanAck : Bool := false
  dftPass : Bool := false
  /-- privileged records held while the event unit is fenced (R568) -/
  heldPriv : List Bytes := []
  corePc : Tab Nat := []
  logRing : Tab Byte := []
  deriving DecidableEq, Repr

/-- SOUND, the reproducibility record and the owner trace ring (R275, R585, R606). -/
structure Sound where
  view   : Bool := false
  armAt  : Bool := false
  gtrigEn : Bool := true
  held   : Bool := false
  snapSeq : Nat := 0
  freezeAt : Nat := 0
  snapNs : Nat := 0
  missed : Nat := 0
  tbBack : Nat := 0
  thermLim : Nat := 0x320
  pwrCap : Nat := 0
  clearNs : Nat := 0
  declared : Tab Nat := []
  otBase : Nat := 0
  otSize : Nat := 8
  otEn   : Bool := false
  otHead : Nat := 0
  otTail : Nat := 0
  otDrop : Nat := 0
  /-- records of an open trace group, by ring: mooring, or 256 for the owner (R591) -/
  groups : Tab (List Bytes) := []
  deriving DecidableEq, Repr

/-- A request on the NV port and what its end means (R101, R104, R594). -/
inductive NvUse where
  | wear (i value : Nat) (host : Bool)
  | preg (i value : Nat) (host : Bool)
  | fill
  | audit (data : Bytes) (word : Nat)
  | checkpoint
  deriving DecidableEq, Repr

/-- An NV request. -/
structure NvReq where
  wr   : Bool
  addr : Nat
  data : Nat
  use  : NvUse
  deriving DecidableEq, Repr

/-- What an OTP request is for (R106). -/
inductive OtpUse where
  | program
  | back (want : Nat) (last : Bool)
  | arb
  | arbBack (want : Nat)
  deriving DecidableEq, Repr

/-- An OTP request. -/
structure OtpReq where
  prog : Bool
  addr : Nat
  data : Nat
  use  : OtpUse
  deriving DecidableEq, Repr

/-- The audit ring, its mirror and the persistent registers (R592 to R599, R607). -/
structure Audit where
  key    : Bytes := []
  chainErr : Bool := false
  unkeyed : Bool := false
  headSeq : Nat := 0
  chain  : Bytes := []
  /-- records waiting for the NV port -/
  buf    : List Bytes := []
  mirBase : Nat := 0
  mirSize : Nat := 8
  mirEn  : Bool := false
  mirHead : Nat := 0
  mirTail : Nat := 0
  mirDrop : Nat := 0
  pregIdx : Nat := 0
  pregSt : Nat := 0
  preg   : Tab Nat := []
  wear   : Tab Nat := []
  nv     : List NvReq := []
  otp    : List OtpReq := []
  deriving DecidableEq, Repr

/-- State of a firmware bank (R600, R602). -/
inductive BankState where
  | empty | loading | verified
  deriving DecidableEq, Repr

/-- A firmware bank. -/
structure FwBank where
  state : BankState := .empty
  len   : Nat := 0
  data  : Bytes := []
  svn   : Nat := 0
  deriving DecidableEq, Repr

/-- Firmware (R600 to R605). -/
structure Fw where
  /-- bank 0 is A, 1 is B -/
  banks : Tab FwBank := []
  bank  : Nat := 0
  /-- 0 none, 1 TRIAL, 2 COMMITTED -/
  run   : Nat := 0
  svn   : Nat := 0
  fwid  : Bytes := []
  /-- Prity is running; the boot ROM serves otherwise (R447) -/
  up    : Bool := false
  /-- an ACTIVATE waits for the image to report ready; the running values it replaced -/
  activating : Bool := false
  prevRun : Nat := 0
  /-- an MBIST of R584 failed at start: the boot ROM serves until the next start -/
  romOnly : Bool := false
  /-- start-up has ended for this running image (R117, step 4) -/
  started : Bool := false
  deriving DecidableEq, Repr

/-! ### The instance -/

/-- A transfer that the block makes on one of its output ports. -/
inductive PortOut where
  /-- upstream response beat: engine, lane, id, line, last, kind, status, data (R55) -/
  | upRsp (engine lane id line : Nat) (last wr : Bool) (st : Status) (data : Bytes)
  /-- downstream request: engine, lane, write, line, id, data, side-band (R68) -/
  | dnReq (engine lane : Nat) (wr : Bool) (line id : Nat) (data : Bytes) (sb : Nat)
  /-- frame on a frame port (R77) -/
  | frTx (quay : Nat) (frame : Bytes)
  /-- packet on a flit receive port (R76) -/
  | flRx (quay sess typ ten : Nat) (data : Bytes)
  /-- read completion (R86) -/
  | hrRsp (tag data : Nat)
  /-- DOE response object, or an error pulse, of a function (R86) -/
  | doeRsp (f : Fn) (data : Bytes)
  | doeErr (f : Fn)
  /-- SPDM message answered on a channel (R456) -/
  | spdm (h : SpdmHdr) (data : Bytes)
  /-- event and MSI write: address, 32-byte record or not, data, function, T bit (R92) -/
  | evWr (addr : Nat) (rec : Bool) (data : Bytes) (f : Fn) (t : Bool)
  /-- IDE key command (R96) -/
  | idek (op : Nat) (km : IdeKm)
  /-- NV request (R101) -/
  | nvReq (wr : Bool) (addr data : Nat)
  /-- OTP request (R106) -/
  | otpReq (prog : Bool) (addr data : Nat)
  /-- die-to-die message (R109) -/
  | d2d (dest : Nat) (msg : Bytes)
  deriving DecidableEq, Repr

/-- Time (R111, R112): the captured timebase, its lock, and the tick that counts the idle steps. -/
structure TimeSt where
  ns   : Nat := 0
  lock : Bool := false
  tick : Nat := 0
  deriving DecidableEq, Repr

/-- A completed line of the block's own work that has not been handed on yet. -/
structure LineDone where
  task : Task
  st   : Status
  data : Bytes
  /-- prior value of an atomic's word (R395) -/
  prior : Nat := 0
  deriving DecidableEq, Repr

/-- Everything one instance holds. -/
structure State where
  pending : List Instr := []
  sent    : List PortOut := []
  power   : Power := .held
  mode    : Mode := .starting
  /-- IDENT.CAP0.LICHEN_MASK (R614) -/
  mask    : Nat := 0xFF
  straps  : Straps := ⟨false, 0, 2, true, 8, 0, 0⟩
  strapFault : Bool := false
  time    : TimeSt := {}
  fault   : FaultUnit := {}
  sound   : Sound := {}
  lic     : Tab Engine := []
  bw      : Bwater := {}
  tide    : Tide := {}
  quay    : Tab Quay := []
  sess    : Tab Session := []
  /-- a migration runs: source and target quay, and those that wait (R233) -/
  migr    : Option (Nat × Nat) := none
  migrWait : List (Nat × Nat) := []
  red     : Reduce := {}
  ctx     : Tab CtxEnt := []
  queue   : Tab SubQueue := []
  /-- global queue after which the round-robin goes on (R294) -/
  rrQueue : Nat := 0
  obj     : Tab Obj := []
  boll    : Tab Bollard := []
  mbox    : Mbox := {}
  moor    : Tab Mooring := []
  keys    : KeyUnit := {}
  lc      : LifeCycle := {}
  ent     : Entropy := {}
  att     : Attest := {}
  fed     : Fed := {}
  ev      : EvUnit := {}
  audit   : Audit := {}
  fw      : Fw := {}
  ops     : Tab Op := []
  done    : List LineDone := []
  /-- event counters, keyed by offset in the control space, and their shadows (R585) -/
  cnt     : Tab Nat := []
  shadow  : Tab Nat := []
  /-- next identifier of a line operation, request or operation -/
  serial  : Nat := 1
  /-- number of the next free value (the model's own field) -/
  freeIdx : Nat := 0
  deriving DecidableEq, Repr

/-- The machine before RELEASE_OF_PORST_N_HM: every register at its reset value, the instance held in
power-on reset (R117, step 1). -/
def State.reset : State := {}

end Sys2Proof.Machine
end

