-- ==== Sys2Proof/Machine/Ops.lean ====
section
/-! DEFINITION. The named operations every command shares: reading and changing the tables of the state,
counters, output ports, berth and register permissions, events, the audit ring, contexts, objects,
bollards, trace records, random values, and the end of an operation. -/

namespace Sys2Proof.Machine

/-- What a command answers. -/
abbrev Out := Host.Outcome State Fault Refusal

/-- A command of a running block: it changes the state by `f`. A block that is held in reset or without
power takes none (R9, R117); the state stays as it is. -/
def live (f : State → State) (s : State) : Out :=
  .next (if s.power = .on then f s else s)

/-! ### Status codes and worlds -/

/-- The code of a status (R620). -/
def Status.code : Status → Nat
  | .ok => 0 | .eState => 1 | .eLength => 2 | .eBounds => 3 | .eStale => 4 | .eCtxLost => 5
  | .eKeyRevoked => 6 | .eBerthBad => 7 | .eIntegrity => 8 | .ePoisoned => 9 | .eCtrExhausted => 10
  | .eFrozen => 11 | .eFenced => 12 | .eAtomLost => 13 | .eBroken => 14 | .eWrap => 15
  | .ePermission => 16 | .eBusy => 17 | .eWear => 18 | .eEpoch => 19 | .eAuth => 20 | .eNoRes => 21
  | .eLc => 22 | .eToken => 23 | .eEncoding => 24 | .eAborted => 25 | .eSeq => 26

/-- Every status, in the order of its code. -/
def Status.all : List Status :=
  [.ok, .eState, .eLength, .eBounds, .eStale, .eCtxLost, .eKeyRevoked, .eBerthBad, .eIntegrity,
   .ePoisoned, .eCtrExhausted, .eFrozen, .eFenced, .eAtomLost, .eBroken, .eWrap, .ePermission, .eBusy,
   .eWear, .eEpoch, .eAuth, .eNoRes, .eLc, .eToken, .eEncoding, .eAborted, .eSeq]

/-- The status a code names; E_ENCODING for a code that names none. -/
def Status.ofCode (n : Nat) : Status := (Status.all[n]?).getD .eEncoding

/-- The first status of a list of checks whose condition holds (R621); `d` where none does. -/
def firstFail (d : Status) : List (Bool × Status) → Status
  | [] => d
  | (c, st) :: t => if c then st else firstFail d t

/-- The 9-bit coding of world and mooring (R55): bit 8 for the owner. -/
def ownerTen : Nat := 0x100

/-- The mooring a 9-bit coding names; none for the owner. -/
def tenMoor (ten : Nat) : Option Nat := if ten / 256 % 2 = 1 then none else some (ten % 256)

/-- Is the coding well formed: the mooring is zero for the owner (R55). -/
def tenOk (ten : Nat) : Bool := ten < 256 || ten = 256

/-! ### Access to the tables -/

def State.eng (s : State) (n : Nat) : Engine := Tab.get {} s.lic n
def State.setEng (s : State) (n : Nat) (e : Engine) : State := { s with lic := Tab.set {} s.lic n e }
def State.updEng (s : State) (n : Nat) (f : Engine → Engine) : State := s.setEng n (f (s.eng n))

/-- A quay's values after reset: its spare is q XOR 1 (R244). -/
def quay0 (q : Nat) : Quay := { spare := q ^^^ 1 }
def State.getQuay (s : State) (q : Nat) : Quay := Tab.get (quay0 q) s.quay q
def State.setQuay (s : State) (q : Nat) (x : Quay) : State := { s with quay := Tab.set (quay0 q) s.quay q x }
def State.updQuay (s : State) (q : Nat) (f : Quay → Quay) : State := s.setQuay q (f (s.getQuay q))

def State.getSess (s : State) (i : Nat) : Session := Tab.get {} s.sess i
def State.setSess (s : State) (i : Nat) (x : Session) : State := { s with sess := Tab.set {} s.sess i x }
def State.updSess (s : State) (i : Nat) (f : Session → Session) : State := s.setSess i (f (s.getSess i))

def State.getMoor (s : State) (t : Nat) : Mooring := Tab.get {} s.moor t
def State.setMoor (s : State) (t : Nat) (x : Mooring) : State := { s with moor := Tab.set {} s.moor t x }
def State.updMoor (s : State) (t : Nat) (f : Mooring → Mooring) : State := s.setMoor t (f (s.getMoor t))
def State.updWin (s : State) (t : Nat) (f : MoorWin → MoorWin) : State :=
  s.updMoor t (fun m => { m with win := f m.win })

def State.getQueue (s : State) (j : Nat) : SubQueue := Tab.get {} s.queue j
def State.setQueue (s : State) (j : Nat) (x : SubQueue) : State := { s with queue := Tab.set {} s.queue j x }
def State.updQueue (s : State) (j : Nat) (f : SubQueue → SubQueue) : State := s.setQueue j (f (s.getQueue j))

def State.getObj (s : State) (i : Nat) : Obj := Tab.get {} s.obj i
def State.setObj (s : State) (i : Nat) (x : Obj) : State := { s with obj := Tab.set {} s.obj i x }
def State.updObj (s : State) (i : Nat) (f : Obj → Obj) : State := s.setObj i (f (s.getObj i))

def State.getBoll (s : State) (b : Nat) : Bollard := Tab.get {} s.boll b
def State.setBoll (s : State) (b : Nat) (x : Bollard) : State := { s with boll := Tab.set {} s.boll b x }
def State.updBoll (s : State) (b : Nat) (f : Bollard → Bollard) : State := s.setBoll b (f (s.getBoll b))

def State.getBerth (s : State) (b : Nat) : Berth := Tab.get {} s.keys.berths b
def State.setBerth (s : State) (b : Nat) (x : Berth) : State :=
  { s with keys := { s.keys with berths := Tab.set {} s.keys.berths b x } }

def State.getKmap (s : State) (k : Nat) : KmapEnt := Tab.get {} s.keys.kmap k
def State.setKmap (s : State) (k : Nat) (x : KmapEnt) : State :=
  { s with keys := { s.keys with kmap := Tab.set {} s.keys.kmap k x } }

def State.getEq (s : State) (j : Nat) : EvQueue := Tab.get {} s.ev.queues j
def State.setEq (s : State) (j : Nat) (x : EvQueue) : State :=
  { s with ev := { s.ev with queues := Tab.set {} s.ev.queues j x } }
def State.updEq (s : State) (j : Nat) (f : EvQueue → EvQueue) : State := s.setEq j (f (s.getEq j))

def State.getBank (s : State) (b : Nat) : Bank := Tab.get {} s.ev.banks b
def State.setBank (s : State) (b : Nat) (x : Bank) : State :=
  { s with ev := { s.ev with banks := Tab.set {} s.ev.banks b x } }

def State.getSlot (s : State) (i : Nat) : Slot := Tab.get {} s.red.slots i
def State.setSlot (s : State) (i : Nat) (x : Slot) : State :=
  { s with red := { s.red with slots := Tab.set {} s.red.slots i x } }
def State.updSlot (s : State) (i : Nat) (f : Slot → Slot) : State := s.setSlot i (f (s.getSlot i))

def State.getDom (s : State) (d : Nat) : Dom := Tab.get {} s.fault.doms d
def State.setDom (s : State) (d : Nat) (x : Dom) : State :=
  { s with fault := { s.fault with doms := Tab.set {} s.fault.doms d x } }

/-- An island before anything is powered, clocked or released: Harbourmaster and the event and management
island are up and are never fenced (R117, R566). -/
def island0 (i : Nat) : Island :=
  if i = 25 ∨ i = 26 then { powered := true, clocked := true, fenced := false } else {}
def State.getIsland (s : State) (i : Nat) : Island := Tab.get (island0 i) s.fault.islands i
def State.setIsland (s : State) (i : Nat) (x : Island) : State :=
  { s with fault := { s.fault with islands := Tab.set (island0 i) s.fault.islands i x } }
def State.updIsland (s : State) (i : Nat) (f : Island → Island) : State := s.setIsland i (f (s.getIsland i))

/-- The value an unlisted operation reads as. -/
def op0 : Op := { own := .block, ten := 0, ctx := 0, code := 0, body := .plain }
def State.getOp (s : State) (i : Nat) : Op := Tab.get op0 s.ops i

/-- Is an operation under way? -/
def State.hasOp (s : State) (i : Nat) : Bool := s.ops.any (fun p => p.1 = i)
def State.setOp (s : State) (i : Nat) (x : Op) : State := { s with ops := Tab.put s.ops i x }
def State.dropOp (s : State) (i : Nat) : State := { s with ops := Tab.erase s.ops i }
def State.updOp (s : State) (i : Nat) (f : Op → Op) : State :=
  if s.hasOp i then s.setOp i (f (s.getOp i)) else s

def Quay.getStrand (q : Quay) (k : Nat) : Strand := Tab.get {} q.strands k
def Quay.setStrand (q : Quay) (k : Nat) (x : Strand) : Quay := { q with strands := Tab.set {} q.strands k x }
def State.getStrand (s : State) (q k : Nat) : Strand := (s.getQuay q).getStrand k
def State.setStrand (s : State) (q k : Nat) (x : Strand) : State := s.updQuay q (·.setStrand k x)
def State.updStrand (s : State) (q k : Nat) (f : Strand → Strand) : State :=
  s.setStrand q k (f (s.getStrand q k))

/-- The timebase as captured (R111, R112). -/
def State.now (s : State) : Nat := s.time.ns

/-- The Lichen and Quay cycle of the present tick (DESIGN CHOICE 3). -/
def State.cyc (s : State) : Nat := s.time.tick * 8

/-- The next identifier. -/
def State.fresh (s : State) : Nat × State := (s.serial, { s with serial := s.serial + 1 })

/-- A free value (R1 and the chapter that leaves it open), and the state that has used it. -/
def State.free (s : State) : Nat × State := (Config.freeValue s.freeIdx, { s with freeIdx := s.freeIdx + 1 })

/-- A transfer on an output port. -/
def emit (o : PortOut) (s : State) : State := { s with sent := o :: s.sent }

/-! ### Counters (R174, R585) -/

/-- The largest value of a 64-bit counter. -/
def max64 : Nat := 0xFFFFFFFFFFFFFFFF

/-- A counter by its offset in the control space. -/
def State.count (s : State) (a : Nat) : Nat := Tab.get 0 s.cnt a

/-- Add to a counter, which holds at its maximum. -/
def bumpBy (n a : Nat) (s : State) : State := { s with cnt := Tab.set 0 s.cnt a (min max64 (s.count a + n)) }

/-- Count one. -/
def bump (a : Nat) (s : State) : State := bumpBy 1 a s

/-- Count one where a condition holds. -/
def bumpIf (c : Bool) (a : Nat) (s : State) : State := if c then bump a s else s

def identBase : Nat := 0x000000
def mboxBase : Nat := 0x010000
def licBase (n : Nat) : Nat := 0x020000 + n * 0x2000
def tideBase : Nat := 0x030000
def quayBase (q : Nat) : Nat := 0x040000 + q * 0x1000
def redBase : Nat := 0x050000
def evBase : Nat := 0x060000
def bwBase : Nat := 0x070000
def soundBase : Nat := 0x080000
def keyBase : Nat := 0x090000
def fedBase : Nat := 0x0A0000
def auditBase : Nat := 0x0B0000
def faultBase : Nat := 0x0C0000
def qctlBase (j : Nat) : Nat := 0x0D0000 + j * 0x20
def bollBase (b : Nat) : Nat := 0x100000 + b * 0x10
def winBase (t : Nat) : Nat := 0x400000 + t * 0x4000

/-- The permission-fault counter of the block that an address lies in (R20, R611). -/
def permAddr (a : Nat) : Nat :=
  if a < 0x020000 then faultBase + 0x340
  else if a < 0x030000 then a / 0x2000 * 0x2000 + 0xD0
  else if a < 0x040000 then tideBase + 0x18
  else if a < 0x050000 then a / 0x1000 * 0x1000 + 0x1C0
  else if a < 0x060000 then redBase + 0x160
  else if a < 0x070000 then evBase + 0x6048
  else if a < 0x080000 then bwBase + 0x9000
  else if a < 0x090000 then faultBase + 0x340
  else if a < 0x0A0000 then keyBase + 0x430
  else if a < 0x0B0000 then fedBase + 0x438
  else faultBase + 0x340

/-- Count a refused access under R20 or R37. -/
def permFault (a : Nat) (s : State) : State := bump (permAddr a) s

/-- Count for the mooring a 9-bit coding names, at an offset of its window (R608); nothing for the owner. -/
def bumpTen (ten off n : Nat) (s : State) : State :=
  match tenMoor ten with
  | none => s
  | some t => bumpBy n (winBase t + off) s

/-- One more work item of an island (R564). -/
def beat (i : Nat) (s : State) : State :=
  let x := s.getIsland i
  if x.fenced ∨ x.iso then s else s.setIsland i { x with hbCount := (x.hbCount + 1) % 2 ^ 32 }

/-! ### Domains, modes, who may do what -/

/-- Is Lichen engine n present (R612)? -/
def State.hasEng (s : State) (n : Nat) : Bool := bit1 n s.mask && decide (n < 8)

/-- The engines present, in order. -/
def State.engines (s : State) : List Nat := (List.range 8).filter s.hasEng

/-- Is an island present (R28)? -/
def State.hasIsland (s : State) (i : Nat) : Bool := if i < 8 then s.hasEng i else decide (i < 27)

/-- Data-path islands present: Lichen, Quay, reduction. -/
def State.dataIslands (s : State) : List Nat := s.engines ++ (List.range 17).map (· + 8)

/-- Member domains of domain 32 (R566): every data-path island present, and the event unit. -/
def State.members (s : State) : List Nat := s.dataIslands ++ [26]

/-- How far a domain has advanced (R605). -/
def DomState.code : DomState → Nat
  | .active => 0 | .draining => 1 | .dumping => 2 | .fenced => 3

/-- State of a domain; domains 32 and 33 take that of their least advanced member (R567). -/
def State.domState (s : State) (d : Nat) : Nat :=
  if d = 32 ∨ d = 33 then
    ((s.members.filter (fun x => decide (x < 25 ∨ (s.getDom x).state ≠ .active))).map
      (fun x => (s.getDom x).state.code)).foldl min 3
  else if d < 25 ∨ d = 26 then (s.getDom d).state.code else 0

/-- Does a domain refuse new work (R567)? A data-path island whose FENCED output is still 1 (R117, step 3)
refuses it too. -/
def State.closedDom (s : State) (d : Nat) : Bool :=
  decide ((s.getDom d).state ≠ .active) || (decide (d < 25) && (s.getIsland d).fenced)

/-- Do the ports of an island carry transfers: it is present, powered, clocked and not isolated (R31, R117)? -/
def State.runs (s : State) (i : Nat) : Bool :=
  let x := s.getIsland i
  s.hasIsland i && x.powered && x.clocked && !x.iso

/-- The instance is NORMAL (R43). -/
def State.normal (s : State) : Bool := decide (s.mode = .normal)

/-- Is an island isolated (R90)? -/
def State.isolated (s : State) (i : Nat) : Bool := (s.getIsland i).iso

/-- The mooring whose window a virtual function reaches (R34, R35, R89): it must be bound, the request must
carry T, and the function's TDI must be in RUN. -/
def State.vfMoor (s : State) (n : Nat) (t : Bool) : Option Nat :=
  if t ∧ (Tab.get {} s.att.tdi n).state = .run then
    (s.moor.find? (fun p => p.2.vf = some n)).map (·.1)
  else none

/-- The mooring a master acts for, where it is in the tenant world. -/
def State.tenantOf (s : State) : Master → Option Nat
  | .vf n t => s.vfMoor n t
  | _ => none

/-- The life-cycle state code in force (R435). -/
def State.lcState (s : State) : Nat := s.lc.state

/-! ### Events (R518 to R533) -/

/-- The record of a unit event (R524). -/
def unitRecord (st : Nat) (src unit code ten ctx index detail ns : Nat) : Bytes :=
  [5, BitVec.ofNat 8 st] ++ leBytes 2 src ++ [BitVec.ofNat 8 unit, BitVec.ofNat 8 code] ++
  leBytes 2 ten ++ leBytes 4 ctx ++ leBytes 2 index ++ [0, 0] ++ leBytes 8 detail ++ leBytes 8 ns

/-- A record comes to the event unit (R530); a fenced event unit discards it and counts it, but holds up to
16 privileged ones (R568). -/
def putRecord (r : EvRec) (s : State) : State :=
  if s.closedDom 26 then
    if r.priv ∧ s.fault.heldPriv.length < 16 then
      { s with fault := { s.fault with heldPriv := s.fault.heldPriv ++ [r.data] } }
    else bump (faultBase + 0x330) s
  else { s with ev := { s.ev with store := s.ev.store ++ [r] } }

/-- Raise a shared source with a target entry; with EN at 0 the record is discarded and counted (R521). -/
def raiseTo (t : EvTarget) (data : Bytes) (s : State) : State :=
  if t.en then putRecord { queue := t.eq, data := data } s else bump (evBase + 0x6028) s

/-- Raise source 304, the owner's unit events. -/
def raiseOwner (st : Status) (unit code ten index detail : Nat) (s : State) : State :=
  raiseTo s.ev.ownerAsync (unitRecord st.code 304 unit code ten 0 index detail s.now) s

/-- Raise source 48 + t, a mooring's unit events. -/
def raiseTenant (t : Nat) (st : Status) (unit code ten ctx index detail : Nat) (s : State) : State :=
  raiseTo (s.getMoor t).win.async (unitRecord st.code (48 + t) unit code ten ctx index detail s.now) s

/-- An event to the owner and to the tenant (R521). -/
def raiseBoth (st : Status) (unit code ten ctx index detail : Nat) (s : State) : State :=
  let s := raiseOwner st unit code ten index detail s
  match tenMoor ten with
  | none => s
  | some t => raiseTenant t st unit code ten ctx index detail s

/-- A privileged source (R537). -/
def raisePriv (src : Nat) (st : Nat) (unit code index detail : Nat) (s : State) : State :=
  putRecord { queue := s.ev.privEq, data := unitRecord st src unit code 0 0 index detail s.now, priv := true } s

/-- A privileged source whose STATUS the manual does not state: the byte is a free value. -/
def raisePrivOpen (src unit code index detail : Nat) (s : State) : State :=
  let f := s.free
  raisePriv src (f.1 % 256) unit code index detail f.2

/-- Set a pending bit of a Harbourmaster core (R519, R540). -/
def setHmPend (core src : Nat) (s : State) : State :=
  { s with ev := { s.ev with hmPend := Tab.set 0 s.ev.hmPend core (Tab.get 0 s.ev.hmPend core ||| 2 ^ src) } }

/-- Hardware raises a per-processor source, to the core that HM_ROUTE names (R539). -/
def raiseHm (src : Nat) (s : State) : State := setHmPend (bits (2 * src) 2 s.ev.route) src s

/-- The bank a queue of a world belongs to (R534). -/
def bankOf (ten : Nat) : Nat :=
  match tenMoor ten with
  | none => 4
  | some t => 8 + t

/-! ### NV and OTP ports (R101, R106) -/

/-- Hand a request to the NV port; the port carries one at a time. -/
def nvPush (r : NvReq) (s : State) : State :=
  let s' := { s with audit := { s.audit with nv := s.audit.nv ++ [r] } }
  if s.audit.nv.isEmpty then emit (.nvReq r.wr r.addr r.data) s' else s'

/-- Hand a request to the OTP port. -/
def otpPush (r : OtpReq) (s : State) : State :=
  let s' := { s with audit := { s.audit with otp := s.audit.otp ++ [r] } }
  if s.audit.otp.isEmpty then emit (.otpReq r.prog r.addr r.data) s' else s'

/-! ### The audit ring (R592 to R597) -/

/-- The words of an audit record go to the NV store, words 1 to 7 before word 0 (R594); after each record
whose SEQ is a multiple of 1,024 a checkpoint follows. -/
def auditWords (data : Bytes) (seq : Nat) (s : State) : State :=
  let slot := 0x20000 + (seq - 1) % 16384 * 8
  let put (w : Nat) (s : State) : State :=
    nvPush ⟨true, slot + w, leNat (slice (8 * w) 8 data), .audit data w⟩ s
  let s := [1, 2, 3, 4, 5, 6, 7, 0].foldl (fun s w => put w s) s
  if seq % 1024 = 0 then
    let c := 0x200 + seq / 1024 % 128 * 4
    [0, 1, 2, 3].foldl (fun s w =>
      nvPush ⟨true, c + w, if w = 0 then seq else leNat (slice (8 * (w - 1)) 8 (data.drop 40)), .checkpoint⟩ s) s
  else s

/-- Mirror a record into host memory (R597). -/
def auditMirror (data : Bytes) (s : State) : State :=
  let a := s.audit
  if !a.mirEn then s
  else if (a.mirTail + 1) % 2 ^ a.mirSize = a.mirHead then
    { s with audit := { a with mirDrop := min max64 (a.mirDrop + 1) } }
  else
    let at0 := a.mirBase + a.mirTail * 64
    let s := emit (.evWr at0 true (data.take 32) .pf false) s
    let s := emit (.evWr (at0 + 32) true (data.drop 32) .pf false) s
    { s with audit := { s.audit with mirTail := (a.mirTail + 1) % 2 ^ a.mirSize } }

/-- Append an audit record (R592, R593). `master` is the code of R593; `world` 0 vendor, 1 owner, 2 tenant. -/
def auditLog (kind : Nat) (st : Status) (master world tenant addr value : Nat) (s : State) : State :=
  let a := s.audit
  let seq := a.headSeq + 1
  let body := leBytes 8 seq ++ leBytes 8 s.now ++
    [BitVec.ofNat 8 kind, BitVec.ofNat 8 st.code, BitVec.ofNat 8 master, BitVec.ofNat 8 world,
     BitVec.ofNat 8 tenant, 0, 0, 0] ++ leBytes 4 addr ++ zeros 4 ++ leBytes 8 value
  let key := if a.unkeyed then zeros 32 else a.key
  let prev := if a.chain.isEmpty then zeros 24 else a.chain
  let chain := kmac key (prev ++ body) 24 "ODLAHA ACHAIN"
  let data := body ++ chain
  let s := { s with audit := { a with headSeq := seq, chain := chain, buf := a.buf ++ [data] } }
  auditMirror data (auditWords data seq s)

/-- The audit buffer has no room, so a happening waits before it takes effect (R595). -/
def State.auditFull (s : State) : Bool := decide (256 ≤ s.audit.buf.length)

/-- The next read-back of R40: true for a mismatch. The outcomes come from outside the model's control. -/
def readBack (s : State) : Bool × State :=
  match s.keys.rbFail with
  | [] => (false, s)
  | x :: t => (x, { s with keys := { s.keys with rbFail := t } })

/-- A write by Prity that the block reads back and repeats once on a mismatch (R40): true where the second
comparison fails too. -/
def readBackFails (s : State) : Bool × State :=
  let r := readBack s
  if r.1 then readBack r.2 else r

/-! ### Register writes (R20, R21, R40, R90, R595) -/

/-- The island that holds a register of the control space (R28). -/
def islandOf (a : Nat) : Nat :=
  if 0x020000 ≤ a ∧ a < 0x030000 then (a - 0x020000) / 0x2000
  else if 0x040000 ≤ a ∧ a < 0x050000 then 8 + (a - 0x040000) / 0x1000
  else if 0x050000 ≤ a ∧ a < 0x060000 then 24
  else 26

/-- A register write by a master that may or may not make it: it waits while the audit buffer is full
(R595), is ignored and counted for an isolated island (R90), and is ignored and counted where it is not
permitted (R20). -/
def regGuard (addr : Nat) (ok : Bool) (f : State → State) (s : State) : State :=
  if s.auditFull then s
  else if s.isolated (islandOf addr) then bump (faultBase + 0x318) s
  else if ok then f s
  else permFault addr s

/-- A write of a policy-class register that would change it (R21, R40): Prity's write is read back, and one
that fails twice leaves the previous value and is logged. -/
def policyWrite (m : Master) (addr value : Nat) (changed : Bool) (f : State → State) (s : State) : State :=
  match m with
  | .prity =>
    let r := readBackFails s
    if r.1 then auditLog 2 .eIntegrity 0 0 0 addr value r.2
    else if changed then auditLog 1 .ok 0 0 0 addr value (f r.2) else f r.2
  | _ => if changed then auditLog 1 .ok 0x10 1 0 addr value (f s) else f s

/-! ### Contexts (R280 to R287) -/

/-- Key of a context in the table of contexts: numbers are separate per world and mooring (R280). -/
def ctxKey (ten ctx : Nat) : Nat := ten * 2 ^ 20 + ctx

/-- The context limit of a world and mooring (R281); the owner's is DESIGN CHOICE 8. -/
def State.ctxLimit (s : State) (ten : Nat) : Nat :=
  match tenMoor ten with
  | none => 2 ^ 20
  | some t => 2 ^ (s.getMoor t).adm.ctxLog2

def State.getCtx (s : State) (ten ctx : Nat) : CtxEnt := Tab.get {} s.ctx (ctxKey ten ctx)
def State.setCtx (s : State) (ten ctx : Nat) (x : CtxEnt) : State :=
  { s with ctx := Tab.set {} s.ctx (ctxKey ten ctx) x }

/-- Mark a context LOST with the status of a work item's end (R283 to R285). -/
def markLost (ten ctx : Nat) (st : Status) (s : State) : State :=
  if st = .ok ∨ st = .eCtxLost then s
  else if s.ctxLimit ten ≤ ctx then
    match tenMoor ten with
    | none => s
    | some t => s.updWin t (fun w => { w with rangeCnt := min 0xFFFFFFFF (w.rangeCnt + 1) })
  else
    let c := s.getCtx ten ctx
    if c.state = .clean then s.setCtx ten ctx { c with state := .lost, cause := st.code } else s

/-- Bring BUSY_NS up to the present (R282). -/
def CtxEnt.settleBusy (c : CtxEnt) (now : Nat) : CtxEnt :=
  if c.active = 0 then c else { c with busyNs := min max64 (c.busyNs + (now - c.since)), since := now }

/-- A work item of a context starts executing (R282). -/
def ctxBegin (ten ctx : Nat) (s : State) : State :=
  if s.ctxLimit ten ≤ ctx then s
  else
    let c := (s.getCtx ten ctx).settleBusy s.now
    let c := if c.active = 0 then { c with since := s.now } else c
    s.setCtx ten ctx { c with active := min 0xFFFFFFFF (c.active + 1) }

/-- A work item of a context ends (R282). -/
def ctxEnd (ten ctx : Nat) (s : State) : State :=
  if s.ctxLimit ten ≤ ctx then s
  else
    let c := (s.getCtx ten ctx).settleBusy s.now
    let c := { c with active := c.active - 1 }
    s.setCtx ten ctx (if c.active = 0 then { c with since := 0 } else c)

/-- Bytes moved for a context (R282). -/
def ctxBytes (ten ctx n : Nat) (s : State) : State :=
  if s.ctxLimit ten ≤ ctx ∨ n = 0 then s
  else
    let c := s.getCtx ten ctx
    s.setCtx ten ctx { c with bytes := min max64 (c.bytes + n) }

/-! ### Objects and bollards (R309 to R322) -/

/-- The index and generation of a handle (R309). -/
def handleIdx (h : Nat) : Nat := bits 15 17 h
def handleGen (h : Nat) : Nat := bits 0 15 h
def mkHandle (idx gen : Nat) : Nat := idx * 2 ^ 15 + gen

/-- Does a handle name a LIVE entry with its generation (R298, check 7)? -/
def State.handleLive (s : State) (h : Nat) : Bool :=
  let o := s.getObj (handleIdx h)
  decide (o.state = .live ∧ o.gen = handleGen h)

/-- One more reference to an object (R312). -/
def addRef (i : Nat) (s : State) : State := s.updObj i (fun o => { o with refs := o.refs + 1 })

/-- One reference less. -/
def dropRef (i : Nat) (s : State) : State := s.updObj i (fun o => { o with refs := o.refs - 1 })

/-- Take references to a list of objects. -/
def addRefs (l : List Nat) (s : State) : State := l.foldl (fun s i => addRef i s) s

/-- Release references to a list of objects. -/
def dropRefs (l : List Nat) (s : State) : State := l.foldl (fun s i => dropRef i s) s

/-- Set the bollard of an object BROKEN (R321). The waits on it end as `settle` finds them. -/
def breakBoll (obj : Nat) (s : State) : State :=
  let b := (s.getObj obj).boll
  let x := s.getBoll b
  if x.state = 1 then s.setBoll b { x with state := 2 } else s

/-- A signal in ADD mode (R317, R318, R321): its status, the value afterwards, and the state. -/
def signalAdd (obj v : Nat) (s : State) : Status × Nat × State :=
  let b := (s.getObj obj).boll
  let x := s.getBoll b
  if x.bad then (.eIntegrity, 0, s)
  else if x.state = 2 then (.eBroken, x.value, s)
  else if 2 ^ 64 ≤ x.value + v then (.eWrap, x.value, s)
  else (.ok, x.value + v, s.setBoll b { x with value := x.value + v })

/-- A signal in RESET mode (R319): only while the object entry is LIVE. -/
def signalReset (obj v : Nat) (s : State) : Status × Nat × State :=
  let o := s.getObj obj
  let x := s.getBoll o.boll
  if x.bad then (.eIntegrity, 0, s)
  else if o.state ≠ .live then (.eBroken, x.value, s)
  else (.ok, v, s.setBoll o.boll { x with value := v, state := 1 })

/-- Signal a completion bollard by one, or break it (R301): the status the work then ends with. A bollard that
is BROKEN already takes no signal, and the work stays OK. -/
def signalCompl (h : Nat) (st : Status) (s : State) : Status × State :=
  if h = 0 then (st, s)
  else if st = .ok then
    let r := signalAdd (handleIdx h) 1 s
    (if r.1 = .eBroken then .ok else r.1, r.2.2)
  else (st, breakBoll (handleIdx h) s)

/-- The lowest-numbered FREE object entry, from index 1 (R309, R310). -/
def freeObjFrom : Nat → Nat → Tab Obj → Option Nat
  | 0, _, _ => none
  | n + 1, i, t => if (Tab.get ({} : Obj) t i).state = .free then some i else freeObjFrom n (i + 1) t

/-- A FREE object entry: the lowest index (DESIGN CHOICE 10). It is at most one above the number of entries
that are not FREE. -/
def State.freeObj (s : State) : Option Nat :=
  (freeObjFrom (s.obj.length + 1) 1 s.obj).filter (· < 131072)

/-- The lowest-numbered FREE bollard store entry. -/
def freeBollFrom : Nat → Nat → Tab Bollard → Option Nat
  | 0, _, _ => none
  | n + 1, i, t => if (Tab.get ({} : Bollard) t i).state = 0 then some i else freeBollFrom n (i + 1) t

def State.freeBoll (s : State) : Option Nat :=
  (freeBollFrom (s.boll.length + 1) 0 s.boll).filter (· < 16384)

/-- An entry with no references becomes FREE, or RETIRED at its last generation (R313, R314); a bollard's
store entry returns to FREE; a mooring's count of entries goes down. -/
def reapObj (i : Nat) (s : State) : State :=
  let o := s.getObj i
  let s := if o.typ = .bollard then s.setBoll o.boll {} else s
  let s := s.setObj i (if o.gen = 0x7FFF then { state := .retired, gen := 0x7FFF } else { gen := o.gen })
  match tenMoor o.ten with
  | none => s
  | some t => s.updMoor t (fun m => { m with objs := m.objs - 1 })

/-- Begin the free of an object (R313, R322): a bollard breaks, the generation rises, the entry is FREEING. -/
def freeingObj (i : Nat) (waiter : Option Nat) (s : State) : State :=
  let o := s.getObj i
  let s := if o.typ = .bollard then breakBoll i s else s
  s.setObj i { o with state := .freeing, gen := min 0x7FFF (o.gen + 1), waiter := waiter }

/-! ### Trace (R589 to R591) -/

/-- A trace record (R590). -/
def traceRecord (kind unit opcode : Nat) (st : Status) (ctx user index ns : Nat) : Bytes :=
  [BitVec.ofNat 8 kind, BitVec.ofNat 8 unit, BitVec.ofNat 8 opcode, BitVec.ofNat 8 st.code] ++
  leBytes 4 ctx ++ leBytes 8 ns ++ leBytes 8 user ++ leBytes 2 index ++ zeros 6

/-- Append a record to a ring (R591): 256 is the owner's. A full ring drops it and counts it. The records of
the ring's open group wait in `groups`. -/
def traceTo (ring : Nat) (r : Bytes) (s : State) : State :=
  let w := (s.getMoor ring).win
  let size := if ring = 256 then 2 ^ s.sound.otSize else (s.getMoor ring).adm.traceKib * 32
  let head := if ring = 256 then s.sound.otHead else w.trHead
  let tail := if ring = 256 then s.sound.otTail else w.trTail
  if size = 0 ∨ (tail + 1) % size = head then
    if ring = 256 then { s with sound := { s.sound with otDrop := min max64 (s.sound.otDrop + 1) } }
    else s.updWin ring (fun w => { w with trDrop := min max64 (w.trDrop + 1) })
  else
    let s := { s with sound := { s.sound with
      groups := Tab.set [] s.sound.groups ring (Tab.get [] s.sound.groups ring ++ [r]) } }
    if ring = 256 then { s with sound := { s.sound with otTail := (tail + 1) % size } }
    else s.updWin ring (fun w => { w with trTail := (tail + 1) % size })

/-- Trace a work item's start (kind 1) or end (kind 2), where its world traces (R589). -/
def trace (ten kind unit opcode : Nat) (st : Status) (ctx user index : Nat) (s : State) : State :=
  let r := traceRecord kind unit opcode st ctx user index s.now
  match tenMoor ten with
  | none => if s.sound.otEn then traceTo 256 r s else s
  | some t => if bit1 3 (s.getMoor t).adm.policy then traceTo t r s else s

/-! ### Random values (R414, R415) -/

/-- The DRBG serves: the source is OK and the DRBG is instantiated. -/
def State.drbgReady (s : State) : Bool := decide (s.ent.state = .ok) && s.ent.inst

/-- Reseed the DRBG from a conditioned output (R414). -/
def reseed (s : State) : Option State :=
  match s.ent.pool with
  | [] => none
  | e :: rest =>
    let k := drbgReseed e s.ent.drbgKey s.ent.drbgV
    some (bump (keyBase + 0x418)
      { s with ent := { s.ent with drbgKey := k.1, drbgV := k.2, requests := 0, pool := rest } })

/-- Draw n bytes: none while the DRBG does not serve, or while its reseed after 65,536 requests still waits
for the source (R415, DESIGN CHOICE 11). -/
def drbg (n : Nat) (s : State) : Option (Bytes × State) :=
  if !s.drbgReady then none
  else
    let s? := if s.ent.requests < 65536 then some s else reseed s
    match s? with
    | none => none
    | some s =>
      let r := drbgGen n s.ent.drbgKey s.ent.drbgV
      some (r.1, { s with ent := { s.ent with drbgKey := r.2.1, drbgV := r.2.2, requests := s.ent.requests + 1 } })

/-! ### Completions (R296, R301) -/

/-- The completion record of a queue command (R296). -/
def complRecord (st : Status) (q ctx user res handle idx opcode : Nat) : Bytes :=
  [1, BitVec.ofNat 8 st.code] ++ leBytes 2 q ++ leBytes 4 ctx ++ leBytes 8 user ++ leBytes 8 res ++
  leBytes 4 handle ++ leBytes 2 idx ++ [BitVec.ofNat 8 opcode, 0]

/-- Post a queue completion: PROGRESS rises, the record goes to the queue's event queue unless QUIET and OK,
and the mooring counts it (R296, R608). -/
def postCompl (q ten ctx user idx opcode : Nat) (quiet : Bool) (st : Status) (res handle : Nat) (s : State) :
    State :=
  let x := s.getQueue q
  let s := s.setQueue q { x with progress := (x.progress + 1) % 2 ^ 32 }
  let s := bumpTen ten (if st = .ok then 0x3048 else 0x3050) 1 s
  if quiet ∧ st = .ok then s
  else putRecord { queue := x.eq, data := complRecord st q ctx user res handle idx opcode } s

/-- Does a work item's end mark its context LOST (R285)? `opcode` is the queue command's code, or 0xFF. -/
def losesCtx (opcode : Nat) (retiring : Bool) (st : Status) : Bool :=
  match st with
  | .ok => false
  | .eCtxLost => false
  | .eAborted => !retiring
  | .eBroken => decide (opcode ≠ 6)
  | .eNoRes => decide (opcode ≠ 7 ∧ opcode ≠ 1)
  | .eBusy => decide (opcode ≠ 4)
  | _ => true

/-- Mark the context of a command that ends (R285): QUERY_CONTEXT and CONTEXT_RETIRE never do. -/
def markEnd (opcode ten ctx : Nat) (st : Status) (s : State) : State :=
  let ret := decide ((s.getCtx ten ctx).state = .retiring)
  if opcode = 0x0D ∨ opcode = 0x0E then s
  else if losesCtx opcode ret st then markLost ten ctx st s else s

end Sys2Proof.Machine
end

