-- ==== Sys2Proof/Machine/BwaterOps.lean ====
section
/-! DEFINITION. Breakwater's classification, priorities and latency measurement (R545 to R558). -/

namespace Sys2Proof.Machine

/-- The class of a line by its address bits [50:0] (R545). -/
def classFrom (cls : Tab BwClass) (a : Nat) : Nat → Nat → Nat
  | 0, _ => 63
  | n + 1, c =>
    let x := Tab.get ({} : BwClass) cls c
    if x.en ∧ x.base ≤ a ∧ a < x.limit then c else classFrom cls a n (c + 1)

/-- The class in force for an address (R545). -/
def State.classOf (s : State) (a : Nat) : Nat := classFrom s.bw.cls a 63 0

/-- The local arena of a mooring: first byte and the byte above its last (R487). -/
def Admission.localArena (a : Admission) : Nat × Nat := (a.lbase, a.lbase + a.lsize)

/-- The pool arena of a mooring, as pool byte addresses. -/
def Admission.poolArena (a : Admission) : Nat × Nat := (a.pbase, a.pbase + a.pool * 2 ^ 30)

/-- Does a range of address bits [50:0] lie inside one arena, local or pool? -/
def Admission.covers (a : Admission) (lo hi : Nat) : Bool :=
  (decide (a.lsize ≠ 0) && decide (a.lbase ≤ lo) && decide (hi ≤ a.lbase + a.lsize)) ||
  (decide (a.pool ≠ 0) && decide (2 ^ 50 + a.pbase ≤ lo) && decide (hi ≤ 2 ^ 50 + a.pbase + a.pool * 2 ^ 30))

/-- The resident mooring of the instance, if it is ACTIVE (R491, R551). -/
def State.resident (s : State) : Option Mooring :=
  (s.moor.find? (fun p => bit1 1 p.2.adm.policy && decide (p.2.state = .active))).map (·.2)

/-- RES_OK of a class in force (R551). -/
def State.resOk (s : State) (c : Nat) : Bool :=
  let x := Tab.get ({} : BwClass) s.bw.cls c
  x.res && (match s.resident with
    | none => false
    | some m => decide (c ≠ 63) && m.adm.covers x.base x.limit)

/-- The priority of a level (R550). -/
def levelPrio (base level : Nat) (res : Bool) : Nat :=
  match level, res with
  | 0, false => min 14 base
  | 0, true => base
  | 1, false => min 14 (base + 2)
  | 1, true => min 15 (base + 2)
  | 2, false => min 14 (base + 4)
  | 2, true => min 15 (base + 4)
  | _, false => min 14 (base + 8)
  | _, true => 15

def State.bwReg (s : State) (n c : Nat) : BwReg := Tab.get {} s.bw.reg (n * 64 + c)
def State.setBwReg (s : State) (n c : Nat) (x : BwReg) : State :=
  { s with bw := { s.bw with reg := Tab.set {} s.bw.reg (n * 64 + c) x } }

/-- The current priority of a class on an engine. -/
def State.classPrio (s : State) (n c : Nat) : Nat :=
  levelPrio (Tab.get ({} : BwClass) s.bw.cls c).prio (s.bwReg n c).level (s.resOk c)

/-- The exact test of R550: AVG times 100 against TARGET times a percentage; AVG in sixteenths of a ns. -/
def avgAtLeast (avg target pct : Nat) : Bool := decide (target * pct * 16 ≤ avg * 100)

/-- The highest level whose entry test AVG meets (R550). -/
def enterLevel (avg target : Nat) : Nat :=
  if avgAtLeast avg target 90 then 3 else if avgAtLeast avg target 75 then 2
  else if avgAtLeast avg target 50 then 1 else 0

/-- Fall one level at a time while AVG is below the present level's leave threshold (R550). -/
def fallLevel (avg target : Nat) : Nat → Nat
  | 0 => 0
  | l + 1 =>
    let pct := match l with | 0 => 45 | 1 => 70 | _ => 85
    if avgAtLeast avg target pct then l + 1 else fallLevel avg target l

/-- The level after an update of AVG (R550). -/
def nextLevel (avg target level : Nat) : Nat :=
  let e := enterLevel avg target
  if level < e then e else fallLevel avg target level

/-- AVG after a sample of `smp` sixteenths of a nanosecond (R548); the quotient is rounded down
(DESIGN CHOICE 13). -/
def nextAvg (avg smp alpha : Nat) : Nat :=
  ((avg : Int) + ((smp : Int) - (avg : Int)) / (2 ^ alpha : Nat)).toNat

/-- A line of a class responds (R548, R549): at most one sample per class and cycle, none for a line that
was accepted before the class's AVG last restarted. -/
def bwSample (n : Nat) (smp : Option (Nat × Nat)) (s : State) : State :=
  match smp with
  | none => s
  | some (c, cyc) =>
    let r := s.bwReg n c
    let x := Tab.get ({} : BwClass) s.bw.cls c
    if cyc < r.since ∨ r.last = s.cyc + 1 then s
    else
      let v := (s.cyc - cyc) * 10
      let avg := nextAvg r.avg v x.alpha
      let s := s.setBwReg n c { r with
        avg := avg, level := nextLevel avg x.target r.level,
        samples := (r.samples + 1) % 2 ^ 32, last := s.cyc + 1 }
      bumpIf (s.resOk c && decide (x.target * 16 < v)) (bwBase + 0x8000 + 0x40 * n + 0x18) s

/-- Count a line's bytes for its class, and take them from its credit under a cap (R555, R562). -/
def bwCharge (n c : Nat) (s : State) : State :=
  let s := bumpBy 128 (bwBase + 0x4000 + 0x800 * n + 0x10 * c + 8) s
  if (Tab.get ({} : BwClass) s.bw.cls c).maxPct = 0 then s
  else
    let r := s.bwReg n c
    s.setBwReg n c { r with credit := r.credit - 128 }

/-- Does a cap hold a data or pool line of a class (R555)? -/
def State.capHolds (s : State) (n c : Nat) : Bool :=
  decide ((Tab.get ({} : BwClass) s.bw.cls c).maxPct ≠ 0 ∧ (s.bwReg n c).credit < 128)

/-- Put the staged values in force on every engine; a change of BASE, LIMIT, EN or TARGET restarts the
class's AVG (R548, R559). -/
def bwCommit (s : State) : State :=
  let changed := (List.range 64).filter (fun c =>
    let a := Tab.get ({} : BwClass) s.bw.cls c
    let b := Tab.get ({} : BwClass) s.bw.staged c
    decide (a.base ≠ b.base ∨ a.limit ≠ b.limit ∨ a.en ≠ b.en ∨ a.target ≠ b.target))
  let s := { s with bw := { s.bw with ctrl := s.bw.ctrlStaged, cls := s.bw.staged } }
  (List.range 8).foldl (fun s n => changed.foldl (fun s c =>
    let r := s.bwReg n c
    s.setBwReg n c { r with avg := 0, level := 0, since := s.cyc }) s) s

end Sys2Proof.Machine
end

