-- ==== Sys2Proof/Machine/Formats.lean ====
section
/-! DEFINITION. The number formats and the arithmetic of the reduction datapath and of fabric atomics
(R264 to R268, R396). A finite FP32 value is held as a whole number of units of 2^-149. -/

namespace Sys2Proof.Machine

/-- A floating value: a finite one is `m` units of 2^-149 with a sign. -/
inductive Flt where
  | nan
  | inf (neg : Bool)
  | fin (neg : Bool) (m : Nat)
  deriving DecidableEq, Repr

/-- A binary floating format: mantissa precision with the hidden bit, exponent width, log2 of the smallest
subnormal in units, and whether its top exponent is kept for infinity and NaN. -/
structure FltFmt where
  prec : Nat
  ebits : Nat
  qmin : Nat
  ieee : Bool

def fmtFp32 : FltFmt := ⟨24, 8, 0, true⟩
def fmtBf16 : FltFmt := ⟨8, 8, 16, true⟩
def fmtFp16 : FltFmt := ⟨11, 5, 125, true⟩
def fmtE4m3 : FltFmt := ⟨4, 4, 140, false⟩
def fmtE5m2 : FltFmt := ⟨3, 5, 133, true⟩
def fmtE3m2 : FltFmt := ⟨3, 3, 145, false⟩
def fmtE2m3 : FltFmt := ⟨4, 2, 146, false⟩
def fmtE2m1 : FltFmt := ⟨2, 2, 148, false⟩

/-- Sign, exponent field and mantissa of a pattern. -/
def FltFmt.decode (f : FltFmt) (x : Nat) : Flt :=
  let mb := f.prec - 1
  let neg := bit1 (mb + f.ebits) x
  let e := bits mb f.ebits x
  let m := bits 0 mb x
  if f.ieee ∧ e = 2 ^ f.ebits - 1 then (if m = 0 then .inf neg else .nan)
  else if e = 0 then .fin neg (m <<< f.qmin)
  else .fin neg ((2 ^ mb + m) <<< (e - 1 + f.qmin))

/-- The largest finite magnitude, in units. E4M3 keeps its top pattern for NaN (R264). -/
def FltFmt.maxFin (f : FltFmt) : Nat :=
  if f.ieee then (2 ^ f.prec - 1) <<< (2 ^ f.ebits - 3 + f.qmin)
  else if f.ebits = 4 then 14 <<< (2 ^ f.ebits - 2 + f.qmin)
  else (2 ^ f.prec - 1) <<< (2 ^ f.ebits - 2 + f.qmin)

/-- n / d rounded to the nearest whole number, ties to even. -/
def roundDiv (n d : Nat) : Nat :=
  let q := n / d
  let r := n % d
  if 2 * r < d then q else if d < 2 * r then q + 1 else q + q % 2

/-- n / d units rounded to the format's precision (ties to even), still in units. -/
def FltFmt.round (f : FltFmt) (n d : Nat) : Nat :=
  let qe := max f.qmin ((n / d).log2 + 1 - f.prec)
  roundDiv n (d <<< qe) <<< qe

/-- The magnitude bits of a value that the format holds exactly. -/
def FltFmt.magBits (f : FltFmt) (v : Nat) : Nat :=
  let mb := f.prec - 1
  if v < 2 ^ (f.qmin + mb) then v >>> f.qmin
  else
    let e := v.log2
    ((e - (f.qmin + mb) + 1) <<< mb) + ((v >>> (e - mb)) - 2 ^ mb)

/-- The sign bit in place. -/
def FltFmt.sign (f : FltFmt) (neg : Bool) : Nat := b2n neg <<< (f.prec - 1 + f.ebits)

/-- The pattern of infinity. -/
def FltFmt.infBits (f : FltFmt) : Nat := (2 ^ f.ebits - 1) <<< (f.prec - 1)

/-- The FP32 pattern of a value, with the canonical NaN (R265). -/
def fp32Bits : Flt → Nat
  | .nan => 0x7FC00000
  | .inf neg => fmtFp32.sign neg + fmtFp32.infBits
  | .fin neg m => fmtFp32.sign neg + (if fmtFp32.maxFin < m then fmtFp32.infBits else fmtFp32.magBits m)

/-- The FP32 rounding of n / d units. -/
def fp32Round (neg : Bool) (n d : Nat) : Nat := fp32Bits (.fin neg (fmtFp32.round n d))

/-- Value of an FP32 pattern. -/
def fp32Val (x : Nat) : Flt := fmtFp32.decode x

/-- A finite value as an integer number of units. -/
def units (neg : Bool) (m : Nat) : Int := if neg then -(m : Int) else m

/-- IEEE addition of two FP32 patterns (R265). -/
def fp32Add (a b : Nat) : Nat :=
  match fp32Val a, fp32Val b with
  | .nan, _ => 0x7FC00000
  | _, .nan => 0x7FC00000
  | .inf s, .inf t => if s = t then fp32Bits (.inf s) else 0x7FC00000
  | .inf s, _ => fp32Bits (.inf s)
  | _, .inf t => fp32Bits (.inf t)
  | .fin s m, .fin t n =>
    let v := units s m + units t n
    if v = 0 then fmtFp32.sign (s && t && (m == 0)) else fp32Round (decide (v < 0)) v.natAbs 1

/-- The order of finite values and infinities, with -0 below +0. -/
def fltKey : Flt → Int
  | .nan => 0
  | .inf neg => if neg then -(2 ^ 300 : Int) else 2 ^ 300
  | .fin neg m => if neg then -(m : Int) * 2 - 1 else (m : Int) * 2

/-- IEEE maximum (`mx`) or minimum of two FP32 patterns (R265). -/
def fp32MinMax (mx : Bool) (a b : Nat) : Nat :=
  match fp32Val a, fp32Val b with
  | .nan, _ => 0x7FC00000
  | _, .nan => 0x7FC00000
  | x, y =>
    let less := decide (fltKey x < fltKey y)
    fp32Bits (if less = mx then y else x)

/-- The FP32 quotient by a whole number (R266). -/
def fp32Div (a g : Nat) : Nat :=
  match fp32Val a with
  | .nan => 0x7FC00000
  | .inf s => fp32Bits (.inf s)
  | .fin s m => fp32Round s m g

/-- Is a division by g inexact? -/
def fp32DivInexact (a g : Nat) : Bool :=
  match fp32Val a with
  | .fin _ m => decide (fmtFp32.round m g * g ≠ m)
  | _ => false

/-- A 64-bit pattern as a signed number. -/
def signed64 (x : Nat) : Int := if x < 2 ^ 63 then x else (x : Int) - 2 ^ 64

/-- The 64-bit pattern of a number. -/
def pat64 (v : Int) : Nat := (v % 2 ^ 64).toNat

/-- Does a 64-bit addition wrap, as signed numbers (R265)? -/
def addWraps (a b : Nat) : Bool :=
  let v := signed64 a + signed64 b
  decide (v < -(2 ^ 63) ∨ 2 ^ 63 ≤ v)

/-- The quotient of a signed number by g, rounded to the nearest, ties to even (R266). -/
def intDiv (a g : Nat) : Nat :=
  let v := signed64 a
  let q := roundDiv v.natAbs g
  pat64 (if v < 0 then -(q : Int) else q)

/-! ### Element formats (R264) -/

/-- Bits of an element. -/
def elemBits (fmt : Nat) : Nat :=
  match fmt with
  | 0 => 32 | 1 => 16 | 2 => 16 | 7 => 6 | 8 => 6 | 9 => 4 | 10 => 32 | 11 => 64 | _ => 8

def isMx (fmt : Nat) : Bool := fmt = 5 || fmt = 6 || fmt = 7 || fmt = 8 || fmt = 9 || fmt = 12
def isInt (fmt : Nat) : Bool := fmt = 10 || fmt = 11

/-- The element format of a floating code. -/
def fltOf (fmt : Nat) : FltFmt :=
  match fmt with
  | 0 => fmtFp32 | 1 => fmtBf16 | 2 => fmtFp16 | 3 => fmtE4m3 | 4 => fmtE5m2 | 5 => fmtE4m3
  | 6 => fmtE5m2 | 7 => fmtE3m2 | 8 => fmtE2m3 | _ => fmtE2m1

/-- Element i of an array of w-bit elements, read as one little-endian integer (R256). -/
def elemAt (w i : Nat) (b : Bytes) : Nat :=
  let lo := w * i
  bits (lo % 8) w (leNat ((b.drop (lo / 8)).take ((lo % 8 + w + 7) / 8)))

/-- The array of w-bit elements as bytes. -/
def packElems (w : Nat) (l : List Nat) : Bytes :=
  if w % 8 = 0 then l.flatMap (fun x => leBytes (w / 8) x)
  else leBytes ((w * l.length + 7) / 8) (l.reverse.foldl (fun n x => (n <<< w) + x) 0)

/-- Is an E4M3 pattern a NaN (R264)? -/
def e4m3Nan (x : Nat) : Bool := x % 128 = 127

/-- The FP32 pattern of an MX element under its block's scale (R264). -/
def decodeMx (fmt x scale : Nat) : Nat :=
  if scale = 255 then 0x7FC00000
  else if fmt = 12 then
    let neg := bit1 7 x
    let m := if neg then 256 - x else x
    fp32Bits (.fin neg (m <<< (149 - 6 - 127 + scale)))
  else if fmt = 5 ∧ e4m3Nan x then 0x7FC00000
  else
    match (fltOf fmt).decode x with
    | .fin neg m =>
      let v := m <<< scale
      fp32Bits (.fin neg (v >>> 127))
    | f => fp32Bits f

/-- The FP32 or INT64 pattern of an element outside the MX formats (R264). -/
def decodeElem (fmt x : Nat) : Nat :=
  match fmt with
  | 0 => if fp32Val x = .nan then 0x7FC00000 else x
  | 10 => if x < 2 ^ 31 then x else x + (2 ^ 64 - 2 ^ 32)
  | 11 => x
  | 3 => if e4m3Nan x then 0x7FC00000 else fp32Bits (fmtE4m3.decode x)
  | _ => fp32Bits ((fltOf fmt).decode x)

/-- The format data carry on the wire: a WIDE slot carries FP32 or INT64 (R256). -/
def wireFmt (fmt : Nat) (wide : Bool) : Nat := if wide then (if isInt fmt then 11 else 0) else fmt

/-- Bytes of n elements, without scales. -/
def elemBytes (fmt n : Nat) : Nat := (elemBits fmt * n + 7) / 8

/-- Bytes of the scales of n elements. -/
def scaleBytes (fmt n : Nat) : Nat := if isMx fmt then (n + 31) / 32 else 0

/-- Data length of a REDUCE frame (R256). -/
def dataBytes (fmt n : Nat) : Nat := elemBytes fmt n + scaleBytes fmt n

/-- The largest ELEMS of a wire format (R256). -/
def maxElems (fmt : Nat) : Nat :=
  match fmt with
  | 0 => 504 | 1 => 1008 | 2 => 1008 | 3 => 2016 | 4 => 2016 | 5 => 1952 | 6 => 1952 | 7 => 2560
  | 8 => 2560 | 9 => 3776 | 10 => 504 | 11 => 252 | _ => 1952

/-- Decode n elements, with their scales where the format has them. -/
def decodeVals (fmt n : Nat) (elems scales : Bytes) : List Nat :=
  (List.range n).map (fun i =>
    let x := elemAt (elemBits fmt) i elems
    if isMx fmt then decodeMx fmt x (leNat (slice (i / 32) 1 scales)) else decodeElem fmt x)

/-- What narrowing counts (R267, R268). -/
structure NarrowCnt where
  inexact : Nat := 0
  sat     : Nat := 0
  nan     : Nat := 0

def NarrowCnt.add (a b : NarrowCnt) : NarrowCnt := ⟨a.inexact + b.inexact, a.sat + b.sat, a.nan + b.nan⟩

/-- Narrow an FP32 or INT64 value to an output format outside the MX formats (R267). -/
def narrowElem (fmt x : Nat) : Nat × NarrowCnt :=
  match fmt with
  | 11 => (x, {})
  | 10 =>
    let v := signed64 x
    if v < -(2 ^ 31) then (0x80000000, { sat := 1 })
    else if 2 ^ 31 ≤ v then (0x7FFFFFFF, { sat := 1 })
    else (x % 2 ^ 32, {})
  | _ =>
    let f := fltOf fmt
    match fp32Val x with
    | .nan => ((match fmt with | 0 => 0x7FC00000 | 1 => 0x7FC0 | 2 => 0x7E00 | 3 => 0x7F | _ => 0x7E), { nan := 1 })
    | .inf s => if fmt = 3 then (f.sign s + 0x7E, { inexact := 1, sat := 1 }) else (f.sign s + f.infBits, {})
    | .fin s m =>
      let v := f.round m 1
      let off : NarrowCnt := { inexact := if v = m then 0 else 1 }
      if f.maxFin < v then
        if fmt = 3 then (f.sign s + 0x7E, { inexact := 1, sat := 1 }) else (f.sign s + f.infBits, { inexact := 1 })
      else (f.sign s + f.magBits v, off)

/-- Unbiased exponent of the largest normal value of an MX element format (R268). -/
def mxEmax (fmt : Nat) : Nat :=
  match fmt with
  | 5 => 8 | 6 => 15 | 7 => 4 | 8 => 2 | 9 => 2 | _ => 0

/-- One element under a block's scale (R268). -/
def mxElem (fmt scale : Nat) (neg : Bool) (m : Nat) : Nat × NarrowCnt :=
  let n := if scale ≤ 127 then m <<< (127 - scale) else m
  let d := if scale ≤ 127 then 1 else 2 ^ (scale - 127)
  if fmt = 12 then
    let q := roundDiv (n <<< 6) (d <<< 149)
    let e := min 127 q
    let cnt : NarrowCnt := { inexact := b2n (e * (d <<< 149) ≠ n <<< 6), sat := b2n (127 < q) }
    (if neg ∧ e ≠ 0 then 256 - e else e, cnt)
  else
    let f := fltOf fmt
    let v := f.round n d
    if f.maxFin < v then (f.sign neg + f.magBits f.maxFin, { inexact := 1, sat := 1 })
    else (f.sign neg + f.magBits v, { inexact := b2n (v * d ≠ n) })

/-- A block of up to 32 FP32 values in an MX format: elements, scale and counts (R268). -/
def mxBlock (fmt : Nat) (vs : List Nat) : List Nat × Nat × NarrowCnt :=
  let fs := vs.map fp32Val
  if fs.any (fun f => match f with | .fin _ _ => false | _ => true) then (vs.map (fun _ => 0), 255, { nan := 1 })
  else
    let mag : List Nat := fs.map (fun f => match f with | .fin _ m => m | _ => 0)
    let m : Nat := mag.foldl max 0
    if m = 0 then (vs.map (fun _ => 0), 0, {})
    else
      let scale := m.log2 + 127 - 149 - mxEmax fmt
      let es := fs.map (fun f => match f with | .fin s k => mxElem fmt scale s k | _ => (0, {}))
      (es.map (·.1), scale, es.foldl (fun a e => a.add e.2) {})

/-- Blocks of 32. -/
def blocks32 : Nat → List Nat → List (List Nat)
  | 0, _ => []
  | n + 1, l => if l.isEmpty then [] else l.take 32 :: blocks32 n (l.drop 32)

/-- Narrow a chunk's values to an output format: element bytes, scale bytes, counts (R267, R268). -/
def encodeVals (fmt : Nat) (vs : List Nat) : Bytes × Bytes × NarrowCnt :=
  if isMx fmt then
    let bs := (blocks32 vs.length vs).map (mxBlock fmt)
    (packElems (elemBits fmt) (bs.flatMap (·.1)), bs.map (fun b => BitVec.ofNat 8 b.2.1),
     bs.foldl (fun a b => a.add b.2.2) {})
  else
    let es := vs.map (narrowElem fmt)
    (packElems (elemBits fmt) (es.map (·.1)), [], es.foldl (fun a e => a.add e.2) {})

/-- One combination of two values under an operation: 0 SUM, 1 MAX, 2 MIN, 3 AVG (R265). -/
def combine (op : Nat) (int : Bool) (a b : Nat) : Nat :=
  if int then
    match op with
    | 1 => if signed64 a < signed64 b then b else a
    | 2 => if signed64 b < signed64 a then b else a
    | _ => (a + b) % 2 ^ 64
  else
    match op with
    | 1 => fp32MinMax true a b
    | 2 => fp32MinMax false a b
    | _ => fp32Add a b

/-! ### Fabric atomics (R396) -/

/-- A 32-bit pattern as a signed number. -/
def signed32 (x : Nat) : Int := if x < 2 ^ 31 then x else (x : Int) - 2 ^ 32

/-- The new value of the memory word under an atomic: AOP 0 ADD, 1 MIN, 2 MAX, 3 CAS; TYPE 0 INT32,
1 INT64, 2 FP32 (R368, R396). -/
def atomApply (aop typ m x c : Nat) : Nat :=
  match aop, typ with
  | 0, 1 => (m + x) % 2 ^ 64
  | 0, 2 => fp32Add m x
  | 0, _ => (m + x) % 2 ^ 32
  | 1, 1 => if signed64 x < signed64 m then x else m
  | 1, 2 => fp32MinMax false m x
  | 1, _ => if signed32 x < signed32 m then x else m
  | 2, 1 => if signed64 m < signed64 x then x else m
  | 2, 2 => fp32MinMax true m x
  | 2, _ => if signed32 m < signed32 x then x else m
  | _, _ => if m = c then x else m

end Sys2Proof.Machine
end

