-- ==== Sys2Proof/Machine/KeyOps.lean ====
section
/-! DEFINITION. The berth table and its checks (R40, R41, R421 to R433), shared by the engines, the berth
commands, sessions and tenants. -/

namespace Sys2Proof.Machine

/-- Code of a berth state (R424). -/
def BerthState.code : BerthState → Nat
  | .empty => 0 | .valid => 1 | .revoking => 2 | .quarantine => 3 | .bad => 4

/-- The attribute word, bytes 32 to 39, with STATE as given (R424, R450). -/
def Berth.attr (b : Berth) (st : Nat) : Nat :=
  fld 0 30 b.masters + fld 32 2 b.world + fld 40 8 b.tenant + fld 48 7 b.lcmask + fld 56 3 b.usage + fld 60 3 st

/-- TAG of a berth (R426): over the index and bytes 0 to 39 with STATE taken as zero. -/
def berthTag (tagKey : Bytes) (i : Nat) (b : Berth) : Nat :=
  beNat (kmac tagKey (leBytes 2 i ++ b.key ++ leBytes 8 (b.attr 0)) 4 "ODLAHA BTAG")

/-- A berth with its tag computed. -/
def tagged (s : State) (i : Nat) (b : Berth) : Berth := { b with tag := berthTag s.keys.tagKey i b }

/-- World and mooring of a berth as a 9-bit coding; none for the vendor world. -/
def Berth.ten (b : Berth) : Option Nat :=
  if b.world = 1 then some 0x100 else if b.world = 2 then some b.tenant else none

/-- Drop a berth from every engine's key cache (R137): engine copies are invalidated. -/
def dropCopies (i : Nat) (s : State) : State :=
  { s with lic := s.lic.map (fun p => (p.1, { p.2 with kc := p.2.kc.filter (fun e => e.berth ≠ i) })) }

/-- A berth becomes BAD (R428): copies invalidated, counted, one event to the owner, and to the tenant of a
tenant berth (CODE 0x04). -/
def makeBad (i : Nat) (s : State) : State :=
  let b := s.getBerth i
  let s := dropCopies i (s.setBerth i { b with state := .bad })
  let s := bump (keyBase + 0x408) s
  raiseBoth .eBerthBad 25 4 (b.ten.getD 0x100) 0 i 0 s

/-- What a berth is loaded for: its master's bit, world and mooring of the work, and its usage (R427). -/
structure Load where
  master : Nat
  ten    : Nat
  usage  : Nat

/-- Masters' bits (R424). -/
def mLichen (n : Nat) : Nat := 4 + n
def mQuay (q : Nat) : Nat := 12 + q
def mTide : Nat := 28
def mKdf : Nat := 29

/-- The berth has the world and mooring of the work (R38). -/
def Berth.fits (b : Berth) (ten : Nat) : Bool := decide (b.ten = some ten)

/-- The attribute checks of R427, orders 4 to 6. -/
def attrCheck (b : Berth) (lc master usage : Nat) (fits : Bool) : Status :=
  firstFail .ok
    [(!bit1 master b.masters || !fits || !bit1 lc b.lcmask, .ePermission),
     (decide (b.usage ≠ usage), .ePermission),
     (decide (b.state = .revoking ∨ b.state = .quarantine), .eKeyRevoked)]

/-- Load a berth (R427): status, key, and the state with what the checks change. -/
def berthLoad (i master usage : Nat) (fits : Berth → Bool) (s : State) : Status × Bytes × State :=
  let b := s.getBerth i
  if b.state = .empty then (.ePermission, [], s)
  else if b.state = .bad then (.eBerthBad, [], s)
  else if b.tag ≠ berthTag s.keys.tagKey i b then
    (.eBerthBad, [], makeBad i (raisePriv 34 Status.eBerthBad.code 25 0x2C i 0 (bump (keyBase + 0x400) s)))
  else
    let st := attrCheck b s.lcState master usage (fits b)
    (st, if st = .ok then b.key else [], s)

/-- Write a berth with a new tag and read it back (R40, R428): E_INTEGRITY and BAD where it fails twice. -/
def writeBerth (i : Nat) (b : Berth) (s : State) : Status × State :=
  let s := dropCopies i (s.setBerth i (tagged s i b))
  let r := readBackFails s
  if r.1 then (.eIntegrity, makeBad i r.2) else (.ok, r.2)

/-- Number of memory berths VALID, REVOKING, QUARANTINE or BAD (R430, R451). -/
def State.memBerths (s : State) : Nat :=
  (s.keys.berths.filter (fun p => decide (p.2.usage = 0 ∧ p.2.state ≠ .empty))).length

/-- An EMPTY berth: the lowest index (DESIGN CHOICE 12). -/
def freeBerthFrom : Nat → Nat → Tab Berth → Option Nat
  | 0, _, _ => none
  | n + 1, i, t => if (Tab.get ({} : Berth) t i).state = .empty then some i else freeBerthFrom n (i + 1) t

def State.freeBerth (s : State) : Option Nat :=
  (freeBerthFrom (s.keys.berths.length + 1) 0 s.keys.berths).filter (· < 65536)

/-- A berth's zeroised content (R428). -/
def emptyBerth (i : Nat) (s : State) : State := dropCopies i (s.setBerth i {})

/-- ZEROISE by Prity within a larger command: VALID or BAD becomes EMPTY. -/
def zeroiseBerth (i : Nat) (s : State) : State :=
  let b := s.getBerth i
  if b.state = .valid ∨ b.state = .bad then emptyBerth i s else s

/-- VALID to REVOKING, engine copies invalidated first (R428). -/
def revokeBerth (i : Nat) (s : State) : State :=
  let b := s.getBerth i
  if b.state = .valid then (dropCopies i s).setBerth i { b with state := .revoking } else s

/-- REVOKING to QUARANTINE: KEY zeroised and TAG recomputed (R428). -/
def quarantineBerth (i : Nat) (s : State) : State :=
  let b := s.getBerth i
  if b.state = .revoking then s.setBerth i (tagged s i { b with key := zeros 32, state := .quarantine }) else s

/-- QUARANTINE to EMPTY (R428). -/
def releaseBerth (i : Nat) (s : State) : State :=
  if (s.getBerth i).state = .quarantine then emptyBerth i s else s

/-- The label strings of R422. -/
def kdfLabel : Nat → String
  | 0 => "ODLAHA UDS" | 1 => "ODLAHA OSEAL" | 2 => "ODLAHA TSEAL" | 3 => "ODLAHA NVK" | 4 => "ODLAHA AUDIT"
  | 5 => "ODLAHA QSESS" | 6 => "ODLAHA QGEN" | 7 => "ODLAHA DLINK" | _ => "ODLAHA FED"

/-- The usage a parent berth must have for a label (R422). -/
def kdfUsage (label : Nat) : Nat := if label = 5 ∨ label = 6 then 1 else 4

/-- A derived key of 256 bits (R421). -/
def kdf (parent : Bytes) (label : Nat) (ctx : Bytes) : Bytes := kmac parent ctx 32 (kdfLabel label)

/-- USER_EPOCH (R423). -/
def State.userEpoch (s : State) : Nat := Tab.get 0 s.audit.preg 0

/-- The context with USER_EPOCH in front for labels 1 to 3 (R421, R422). -/
def kdfCtx (s : State) (label : Nat) (ctx : Bytes) : Bytes :=
  if 1 ≤ label ∧ label ≤ 3 then beBytes 8 s.userEpoch ++ ctx else ctx

/-- The root secret is usable: ROOT_STATE valid, in PROVISION, MISSION or MISSION_DEBUG (R422). -/
def State.rootOk (s : State) : Bool :=
  (s.lc.rootState = 1 || s.lc.rootState = 2) && decide (2 ≤ s.lcState ∧ s.lcState ≤ 4)

/-- Fill a berth of Prity's own within a larger command. -/
def fillBerth (i : Nat) (key : Bytes) (masters world tenant lcmask usage : Nat) (s : State) : Status × State :=
  writeBerth i { key := key, masters := masters, world := world, tenant := tenant, lcmask := lcmask,
                 usage := usage, state := .valid } s

/-- The engine's berth for a KeyID (R432). -/
def KmapEnt.pick (k : KmapEnt) (n : Nat) : Nat := if bit1 n k.altMask then k.alt else k.berth

/-- The lowest-numbered KeyID whose map entry is not VALID, from 1 (R432, DESIGN CHOICE 12). -/
def freeKeyFrom : Nat → Nat → Tab KmapEnt → Option Nat
  | 0, _, _ => none
  | n + 1, i, t => if (Tab.get ({} : KmapEnt) t i).valid then freeKeyFrom n (i + 1) t else some i

end Sys2Proof.Machine
end

