-- ==== Sys2Proof/Machine/LichenOps.lean ====
section
/-! DEFINITION. A Lichen engine's work on its lines (R123 to R168, R182, R193, R622, R624): decoding of
addresses, the line cipher, counters and their cache, and how each accepted line goes from its acceptance to
its end. -/

namespace Sys2Proof.Machine

/-! ### Layout (R126 to R130, R166) -/

/-- The layout registers are inconsistent (R129). -/
def LicReg.cfgErr (r : LicReg) (sb : Bool) : Bool :=
  !(decide (r.memLines ≠ 0 ∧ r.memLines % 16 = 0 ∧ r.ctrBase = r.memLines - r.memLines / 16) &&
    (if sb then decide (r.dataLines ≤ r.ctrBase)
     else decide (r.tagBase = r.dataLines ∧ r.dataLines % 16 = 0 ∧
       r.dataLines + r.dataLines / 16 ≤ r.ctrBase)) &&
    decide (r.way < 2 ^ r.waysLog2 ∧ 12 ≤ r.granLog2 ∧ r.granLog2 ≤ 30 ∧
      r.base % 2 ^ (r.granLog2 + r.waysLog2) = 0 ∧ r.limit % 2 ^ (r.granLog2 + r.waysLog2) = 0))

/-- Does a byte offset lie in this engine's way (R126)? -/
def LicReg.inWay (r : LicReg) (off : Nat) : Bool := decide ((off >>> r.granLog2) % 2 ^ r.waysLog2 = r.way)

/-- The interleave-compressed line index of a byte offset (R126). -/
def LicReg.squeeze (r : LicReg) (off : Nat) : Nat :=
  ((((off >>> r.granLog2) >>> r.waysLog2) <<< r.granLog2) + off % 2 ^ r.granLog2) >>> 7

/-- The byte offset of a compressed line index on this engine: the converse of `squeeze`. -/
def LicReg.spread (r : LicReg) (i : Nat) : Nat :=
  let l := i * 128
  (((((l >>> r.granLog2) <<< r.waysLog2) + r.way) <<< r.granLog2) + l % 2 ^ r.granLog2)

/-- The first compressed index of a range whose base is a whole round of the interleave (R166, R175). -/
def LicReg.firstIdx (r : LicReg) (off : Nat) : Nat := (off >>> r.waysLog2) >>> 7

/-- Controller data line and counter slot of a line that the engine owns or homes (R126, R130, R166);
none where the line fails the tests, the layout is inconsistent or INIT_DONE is 0 (R131). -/
def Engine.place (e : Engine) (sb pool : Bool) (a : Nat) : Option (Nat × Nat) :=
  let r := e.reg
  if r.cfgErr sb ∨ r.initDone = false then none
  else if pool then
    if r.inWay a then
      let i := r.squeeze a
      (e.phome.find? (fun p => p.2.valid && decide (r.firstIdx p.2.base ≤ i ∧ i < r.firstIdx p.2.base + p.2.lines))).map
        (fun p => (0, p.2.slot + (i - r.firstIdx p.2.base)))
    else none
  else if a < r.base ∨ r.limit ≤ a then none
  else
    let i := r.squeeze (a - r.base)
    if r.inWay (a - r.base) ∧ i < r.dataLines then some (i, i) else none

/-- The byte address [49:0] and pool bit of a counter slot's line (R130, R166). -/
def Engine.slotAddr (e : Engine) (slot : Nat) : Option (Bool × Nat) :=
  if slot < e.reg.dataLines then some (false, e.reg.base + e.reg.spread slot)
  else (e.phome.find? (fun p => p.2.valid && decide (p.2.slot ≤ slot ∧ slot < p.2.slot + p.2.lines))).map
    (fun p => (true, e.reg.spread (e.reg.firstIdx p.2.base + (slot - p.2.slot))))

/-- The frozen region not EMPTY that holds a local byte address (R162). -/
def Engine.frzAt (e : Engine) (a : Nat) : Option (Nat × Frz) :=
  e.frz.find? (fun p => decide (p.2.state ≠ 0 ∧ p.2.base ≤ a ∧ a < p.2.base + p.2.lines * 128))

/-- An engine's share of a region of `lines` lines from a whole round (R162, R175). -/
def LicReg.share (r : LicReg) (lines : Nat) : Nat :=
  let g := 2 ^ r.granLog2 / 128
  let round := g * 2 ^ r.waysLog2
  lines / round * g + min g (lines % round - r.way * g)

/-- The engine that owns or homes a line, with its data line and slot (R25, R126). -/
def State.ownerOf (s : State) (pool : Bool) (a : Nat) : Option (Nat × Nat × Nat) :=
  s.engines.findSome? (fun n => ((s.eng n).place s.straps.tagSb pool a).map (fun p => (n, p.1, p.2)))

/-! ### Line cipher (R132 to R135) -/

/-- The counter block of a line (R132). -/
def ctrBlock (ctr dom : Nat) (pool : Bool) (line blk : Nat) : Bytes :=
  beBytes 16 (fld 64 64 ctr + fld 62 2 dom + fld 61 1 (b2n pool) + fld 18 43 line + fld 0 4 blk)

/-- What fixes a line's cipher: key, counter, domain, pool bit, line. -/
structure LineKey where
  key  : Bytes
  ctr  : Nat
  dom  : Nat
  pool : Bool
  line : Nat

/-- Counter mode over the eight blocks of a line (R133): encryption and decryption alike. -/
def LineKey.crypt (k : LineKey) (d : Bytes) : Bytes :=
  let ks := aesKeys k.key
  (List.range 8).flatMap (fun j =>
    xorBytes (slice (16 * j) 16 d) (aesBlockK ks (ctrBlock k.ctr k.dom k.pool k.line (j + 1))))

/-- The 64-bit tag over ciphertext, first byte in bits [63:56] (R134, R135). -/
def LineKey.tag (k : LineKey) (ct : Bytes) : Nat :=
  let ks := aesKeys k.key
  let h := beNat (aesBlockK ks (zeros 16))
  let b0 := ctrBlock k.ctr k.dom k.pool k.line 0
  (ghash h b0 ct ^^^ beNat (aesBlockK ks b0)) >>> 64

/-- Plaintext of a stored line, where its tag verifies (R134). -/
def LineKey.unseal (k : LineKey) (ct : Bytes) (tag : Nat) : Option Bytes :=
  if k.tag ct = tag then some (k.crypt ct) else none

/-! ### Counters and their cache (R138 to R143) -/

def ctrPoisoned : Nat := 0xFFFFFFFFFFFFFFFE
def ctrExhausted : Nat := 0xFFFFFFFFFFFFFFFF

/-- The counter line of a slot (R130). -/
def Engine.ctrLine (e : Engine) (slot : Nat) : Nat := e.reg.ctrBase + slot / 16

/-- A slot's value, where its counter line is resident. -/
def Engine.ctrVal (e : Engine) (slot : Nat) : Option Nat :=
  (e.cc.find? (fun c => c.line = e.ctrLine slot)).map (fun c => c.slots.getD (slot % 16) 0)

/-- Make a resident line the most recently used. -/
def Engine.ctrTouch (e : Engine) (k : Nat) : Engine :=
  match e.cc.find? (fun c => c.line = k) with
  | none => e
  | some c => { e with cc := c :: e.cc.filter (fun x => x.line ≠ k) }

/-- Set a slot of a resident counter line, which becomes dirty (R141). -/
def Engine.ctrPut (e : Engine) (slot v : Nat) : Engine :=
  { e with cc := e.cc.map (fun c => if c.line = e.ctrLine slot then
      { c with slots := modifyAt c.slots (slot % 16) (fun _ => v), dirty := true } else c) }

/-- Is a request for a counter line due or outstanding? -/
def Engine.ctrComing (e : Engine) (k : Nat) : Bool :=
  (e.due ++ e.out).any (fun r => r.line = k && (match r.use with | .ctr _ => true | _ => false))

/-- Prefetch distance in force (R170). -/
def LicReg.dist (r : LicReg) : Nat := if r.pfDist = 0 ∨ 64 < r.pfDist then 64 else r.pfDist

/-- The lines a stream wants ahead: those neither resident nor in flight (R142). -/
def Engine.ahead (e : Engine) (k : Nat) : List Nat :=
  ((List.range e.reg.dist).map (fun i => k + 1 + i)).filter (fun l =>
    decide (l < e.reg.memLines) && !e.ctrComing l && !e.cc.any (fun c => c.line = l))

/-- The trackers after an access to counter line k: a live stream moves on, a miss allocates, least recently
used first out of 32 (R142, DESIGN CHOICE 14). True where the stream is confirmed. -/
def Engine.track (e : Engine) (k : Nat) (miss : Bool) : Bool × Engine :=
  if !e.reg.pfEn then (false, e)
  else if e.trk.any (fun t => t.line = k ∧ t.live) then (false, e)
  else if e.trk.any (fun t => t.line + 1 = k) then
    (true, { e with trk := ⟨k, true⟩ :: e.trk.filter (fun t => t.line + 1 ≠ k) })
  else if miss then (false, { e with trk := (⟨k, false⟩ :: e.trk).take 32 })
  else (false, e)

/-- Look a slot up in the counter cache for an operation (R141, R142): its value on a hit; on a miss the
counter line's read becomes due. -/
def ctrLookup (n : Nat) (op : LineOp) (s : State) : Option Nat × State :=
  let e := s.eng n
  let k := e.ctrLine op.slot
  let v := e.ctrVal op.slot
  let e := e.ctrTouch k
  let e := if v.isNone ∧ !e.ctrComing k then
      { e with due := e.due ++ [{ id := op.id, wr := false, line := k, cls := op.cls, cyc := op.cyc, use := .ctr false }] }
    else e
  let t := e.track k v.isNone
  let e := t.2
  let pf := if t.1 then e.ahead k else []
  let e := { e with due := e.due ++ pf.map (fun l =>
    { id := op.id, wr := false, line := l, cls := op.cls, prio := some 0, cyc := op.cyc, use := .ctr true }) }
  let s := s.setEng n e
  let s := bump (licBase n + (if v.isNone then 0x98 else 0x90)) s
  (v, bumpBy pf.length (licBase n + 0xA0) s)

/-- Fetch again a counter line that an operation still needs and that was evicted meanwhile. -/
def ctrNeed (n : Nat) (op : LineOp) (s : State) : State :=
  let e := s.eng n
  let k := e.ctrLine op.slot
  if (e.ctrVal op.slot).isSome ∨ e.ctrComing k then s
  else s.setEng n { e with
    due := e.due ++ [{ id := op.id, wr := false, line := k, cls := op.cls, cyc := op.cyc, use := .ctr false }] }

/-- Install a counter line (R141): the least recently used of its set makes room, written back if dirty in
the class of the line whose miss evicted it (R546). -/
def ctrInstall (n : Nat) (r : DnReq) (slots : List Nat) (dirty : Bool) (s : State) : State :=
  let e := s.eng n
  let same := fun (c : CtrLine) => decide (c.line % 1024 = r.line % 1024)
  let e :=
    if (e.cc.filter same).length < 16 then e
    else match (e.cc.filter same).getLast? with
      | none => e
      | some v =>
        let e := { e with cc := e.cc.filter (fun c => c.line ≠ v.line) }
        if v.dirty then
          { e with due := e.due ++ [{
              id := r.id, wr := true, line := v.line, cls := r.cls, prio := r.prio,
              cyc := r.cyc, use := .ctrWb v.slots false }] }
        else e
  s.setEng n { e with cc := ⟨r.line, slots, dirty⟩ :: e.cc }

/-- Set the counter slot of a line whose counter line is resident. -/
def ctrSet (n : Nat) (op : LineOp) (v : Nat) (s : State) : State := s.updEng n (·.ctrPut op.slot v)

/-! ### Finding operations -/

def Engine.op? (e : Engine) (id : Nat) : Option LineOp := e.ops.find? (fun o => o.id = id)

def Engine.setOp (e : Engine) (op : LineOp) : Engine :=
  { e with ops := e.ops.map (fun o => if o.id = op.id then op else o) }

def putLine (n : Nat) (op : LineOp) (s : State) : State := s.updEng n (·.setOp op)

/-- Same line: same pool bit and line. -/
def LineOp.same (a b : LineOp) : Bool := a.pool == b.pool && a.line == b.line

/-- The last earlier operation on an operation's line (R61). -/
def Engine.before (e : Engine) (op : LineOp) : Option LineOp :=
  ((e.ops.takeWhile (fun o => o.id ≠ op.id)).filter (·.same op)).getLast?

/-- The entries of a chain, in order (R152). -/
def Engine.chainOf (e : Engine) (h : Nat) : List LineOp := e.ops.filter (fun o => o.chain = some h)

/-- The next entry of an entry's chain. -/
def Engine.nextInChain (e : Engine) (op : LineOp) : Option LineOp :=
  match op.chain with
  | none => none
  | some h => ((e.chainOf h).dropWhile (fun o => o.id ≠ op.id)).drop 1 |>.head?

/-- Merge entries held (R63): accepted partial writes whose response beat is not given, and the block's own
partial writes; those beyond 64 wait for an entry. -/
def Engine.mergeWant (e : Engine) : Nat :=
  (e.lanes.map (fun l => (l.2.jobs.filter (fun j => j.req.op = 2)).length)).foldl (· + ·) 0 +
  (e.ops.filter (fun o => o.kind = .part && (match o.org with | .task _ => true | _ => false))).length

def Engine.mergeHeld (e : Engine) : Nat := min 64 e.mergeWant

/-! ### Ends of lines (R145 to R149, R161) -/

/-- Address detail of a line's events (R524): byte address, and the pool bit in bit 50. -/
def LineOp.detail (op : LineOp) : Nat := op.line * 128 + fld 50 1 (b2n op.pool)

/-- One event of a line to the owner and to the KeyID's tenant (R147). -/
def lineEvent (n code : Nat) (st : Status) (op : LineOp) (s : State) : State :=
  raiseBoth st n code op.ten op.ctx op.keyid (if code = 0x0A then op.slot else op.detail) s

/-- POISON.CNT counts lines made POISONED or EXHAUSTED; it holds at its maximum (R161). -/
def poisonCount (n k : Nat) (s : State) : State :=
  s.updEng n (fun e => { e with reg := { e.reg with poisonCnt := min 0xFFFFFFFF (e.reg.poisonCnt + k) } })

/-- LAST_FAIL and the counters of a failing line (R161, R174, R608). -/
def noteFail (n : Nat) (op : LineOp) (st : Status) (s : State) : State :=
  if st = .eIntegrity ∨ st = .ePoisoned ∨ st = .eCtrExhausted then
    let s := s.updEng n (fun e => { e with
      reg := { e.reg with failAddr := op.line * 128, failPool := op.pool, failSt := st.code } })
    let s := bumpTen op.ten 0x3010 1 s
    bumpIf (decide (st = .eCtrExhausted)) (licBase n + 0xC0) s
  else s

/-- The counters of a line that ends (R174, R608). -/
def noteLine (n : Nat) (op : LineOp) (s : State) : State :=
  let b := licBase n
  match op.kind with
  | .read =>
    let s := bump (b + 0x58) s
    let s := bumpIf op.frz.isSome (b + 0x60) s
    let s := bumpIf op.pool (b + 0x68) s
    bumpTen op.ten 0x3000 1 s
  | .full => bumpTen op.ten 0x3008 1 (bump (b + (if op.dirty then 0x78 else 0x70)) s)
  | .part => bumpTen op.ten 0x3008 1 (bump (b + 0x78) s)
  | .seal => bumpTen op.ten 0x3008 1 (bump (b + 0x70) s)
  | .rekey => s
  | .scrub => s

/-- Add a line's end to its upstream job. -/
def Lane.end1 (l : Lane) (serial : Nat) (x : LineEnd) : Lane :=
  { l with jobs := l.jobs.map (fun j => if j.serial = serial then { j with ends := x :: j.ends } else j) }

/-- The response beats a job may give now, in line order (R58): what it emits, and the samples taken. -/
def flushJob (n lane : Nat) : Nat → UpJob → State → UpJob × State
  | 0, j, s => (j, s)
  | k + 1, j, s =>
    match j.ends.find? (fun x => x.idx = j.sent) with
    | none => (j, s)
    | some x =>
      let last := decide (j.sent = j.req.lines)
      let wr := decide (j.req.op = 1 ∨ j.req.op = 2)
      let data := if x.st = .ok ∧ !wr then x.data else zeros 128
      let s := emit (.upRsp n lane j.req.id j.sent last wr x.st data) s
      let s := beat n (bwSample n x.sample s)
      flushJob n lane k { j with sent := j.sent + 1 } s

/-- Give what beats a lane can: a request's beats in line order, and behind every earlier request of the
same non-zero ORD (R58, R62). -/
def flushJobs (n lane : Nat) : List UpJob → List Nat → List UpJob → State → List UpJob × State
  | [], _, acc, s => (acc.reverse, s)
  | j :: t, held, acc, s =>
    if held.contains j.req.ord then flushJobs n lane t held (j :: acc) s
    else
      let r := flushJob n lane 4 j s
      if r.1.sent = j.req.lines + 1 then flushJobs n lane t held acc r.2
      else flushJobs n lane t (if j.req.ord = 0 then held else j.req.ord :: held) (r.1 :: acc) r.2

/-- Give every beat that the lane owes and may give. -/
def flushLane (n lane : Nat) (s : State) : State :=
  let l : Lane := Tab.get {} (s.eng n).lanes lane
  let r := flushJobs n lane l.jobs [] [] s
  r.2.updEng n (fun e => { e with lanes := Tab.set {} e.lanes lane { l with jobs := r.1 } })

/-- Hand a line's end to whoever asked for it: the upstream job, or the block's own work (R58, R25). A read
that does not end OK carries zeros. Every upstream line that does not end OK marks its context LOST
(R147). -/
def deliver (n : Nat) (op : LineOp) (st : Status) (data : Bytes) (prior : Nat) (s : State) : State :=
  let smp := if st = .eFenced ∨ op.fenced then none else some (op.cls, op.cyc)
  if op.told then beat n s
  else
  match op.org with
  | .up lane req idx =>
    let s := markLost op.ten op.ctx st s
    let s := s.updEng n (fun e => { e with
    lanes :=
      Tab.set {} e.lanes lane ((Tab.get ({} : Lane) e.lanes lane).end1 req ⟨idx, st, data, smp⟩) })
    flushLane n lane s
  | .task t =>
    let s := beat n (bwSample n smp s)
    { s with done := s.done ++ [⟨t, st, if st = .ok then data else zeros 128, prior⟩] }
  | .turn slot _ =>
    let s := beat n s
    { s with done := s.done ++ [⟨.turn n slot, st, [], prior⟩] }

/-- Take an operation out of the engine, with what it still had due. -/
def removeLine (n id : Nat) (s : State) : State :=
  let mine := fun (r : DnReq) => match r.use with | .data o => o = id | .tag o => o = id | .poison o => o = id | _ => false
  s.updEng n (fun e => { e with ops := e.ops.filter (fun o => o.id ≠ id), due := e.due.filter (fun r => !mine r) })

/-- The reads that share an operation's response (R156). -/
def Engine.sharers (e : Engine) (id : Nat) : List LineOp :=
  e.ops.filter (fun o => match o.phase with | .share l => l = id | _ => false)

/-- End one operation: take it out, count it, hand on its end. -/
def endLine (n : Nat) (op : LineOp) (st : Status) (data : Bytes) (prior : Nat) (s : State) : State :=
  deliver n op st data prior (noteFail n op st (noteLine n op (removeLine n op.id s)))

/-- A read whose tag failed, or whose response was uncorrectable (R145): counted, with one event; on a frozen
line the region counts it. -/
def readFailed (n : Nat) (op : LineOp) (s : State) : State :=
  let s := match op.frz with
    | none => bump (licBase n + 0xB0) s
    | some z => s.updEng n (fun e =>
        let f := Tab.get ({} : Frz) e.frz z.idx
        { e with frz := Tab.set {} e.frz z.idx { f with fails := min 0x1FFFFF (f.fails + 1) } })
  lineEvent n 1 .eIntegrity op s

/-- End a read and every read that shares its response (R156). -/
def endRead (n : Nat) (op : LineOp) (st : Status) (data : Bytes) (s : State) : State :=
  let all := op :: (s.eng n).sharers op.id
  all.foldl (fun s o =>
    let s := if st = .eIntegrity then readFailed n o s else s
    endLine n o st data 0 s) s

/-- The operations that one downstream write carries: a chain's entries, or the operation alone (R154). -/
def Engine.carried (e : Engine) (op : LineOp) : List LineOp :=
  match op.chain with
  | none => [op]
  | some h => e.chainOf h

/-- End a write: every entry of its chain ends with it (R154). The prior value of an atomic is 0 where the
line failed (R395). -/
def endWrite (n : Nat) (op : LineOp) (st : Status) (s : State) : State :=
  ((s.eng n).carried op).foldl (fun s o =>
    endLine n o st (zeros 128) (if st = .ok then o.used else 0) s) s

/-- A turn ends with one of the outcomes of R182, coded 0 DONE, 1 SKIP, 2 CLEARED, 3 FAIL; the operations
waiting behind it on its line go on under the new key (R183). -/
def endTurn (n : Nat) (op : LineOp) (outcome : Nat) (s : State) : State :=
  let s := s.updEng n (fun e => { e with ops := e.ops.map (fun o =>
    if o.same op ∧ o.id ≠ op.id ∧ op.kind = .rekey ∧ o.keyid = op.keyid then
      { o with key := op.key2, frz := o.frz.map (fun z => { z with gen := 0 }) } else o) })
  endLine n op .ok [] outcome s

/-! ### Poisoning and exhaustion (R158, R159) -/

/-- The line becomes EXHAUSTED: slot, count and events (R147, R161). -/
def exhaustLine (n : Nat) (op : LineOp) (s : State) : State :=
  lineEvent n 3 .eCtrExhausted op (poisonCount n 1 (ctrSet n op ctrExhausted s))

/-- Is the tag of a line kept in the tag carve-out (R73, R135)? -/
def State.carve (s : State) (pool : Bool) : Bool := !s.straps.tagSb && !pool

/-- Add an edit to a tag carve-out line: joined to an update of that line whose write is not yet issued. -/
def tagEdit (n line slot : Nat) (v : Bytes) (op : Nat) (s : State) : State :=
  s.updEng n (fun e =>
    if e.tags.any (fun t => t.line = line ∧ t.stage < 3) then
      { e with tags := e.tags.map (fun t => if t.line = line ∧ t.stage < 3 then { t with edits := t.edits ++ [(slot, v, op)] } else t) }
    else { e with tags := e.tags ++ [{ line := line, edits := [(slot, v, op)] }] })

/-- The tag line and the place in it of a data line (R130). -/
def Engine.tagPlace (e : Engine) (dline : Nat) : Nat × Nat := (e.reg.tagBase + dline / 16, dline % 16)

/-- Poison a line under a counter (R158): the slot is set, the record is due at priority 15, and the
operation ends with `st` once the record is written. -/
def poisonLine (n : Nat) (op : LineOp) (ctr : Nat) (st : Status) (s : State) : State :=
  let s := poisonCount n 1 (ctrSet n op ctrPoisoned s)
  let s := lineEvent n 2 st op s
  let s := putLine n { op with phase := .poison st, wData := false, wTag := false, wBad := false } s
  let e := s.eng n
  if s.carve op.pool then
    let p := e.tagPlace op.dline
    tagEdit n p.1 p.2 (leBytes 8 ctr) op.id s
  else
    s.setEng n { e with due := e.due ++ [{
      id := op.id, wr := true, pool := op.pool,
      line := if op.pool then op.line else op.dline, cls := op.cls, prio := some 15, cyc := op.cyc,
      use := .poison op.id, data := zeros 128, sb := ctr }] }

/-! ### Progress of one operation -/

/-- The counter and domain a stored line verifies under: its slot's counter, or its region's implied one
(R132, R183). -/
def LineOp.stored (op : LineOp) : LineKey :=
  match op.frz with
  | some z => ⟨op.key, z.gen, 1, op.pool, op.line⟩
  | none => ⟨op.key, op.ctr.getD 0, 0, op.pool, op.line⟩

/-- What came back of a line's stored form: ciphertext, tag, uncorrectable; none while some of it is out. -/
def LineOp.back (op : LineOp) (carve : Bool) : Option (Bytes × Nat × Bool) :=
  match op.old with
  | none => none
  | some (ct, sb, ue) =>
    if carve then op.tag.map (fun t => (ct, t.1, ue || t.2)) else some (ct, sb, ue)

/-- The line's plaintext, where its stored form verifies (R134, R72). -/
def LineOp.open (op : LineOp) (carve : Bool) : Option (Option Bytes) :=
  (op.back carve).map (fun b => if b.2.2 then none else op.stored.unseal b.1 b.2.1)

/-- Make the reads of the stored line due: its data line, and in carve-out mode its tag line (R148). -/
def readDue (n : Nat) (op : LineOp) (s : State) : State :=
  let e := s.eng n
  if (e.due ++ e.out).any (fun r => match r.use with | .data o => o = op.id | _ => false) ∨ op.old.isSome then s
  else
    let d : DnReq := { id := op.id, wr := false, pool := op.pool, line := if op.pool then op.line else op.dline,
                       cls := op.cls, cyc := op.cyc, use := .data op.id }
    let t : List DnReq := if s.carve op.pool then
        [{ id := op.id, wr := false, line := (e.tagPlace op.dline).1, cls := op.cls, cyc := op.cyc, use := .tag op.id }]
      else []
    s.setEng n { e with due := e.due ++ (d :: t) }

/-- Has the read of the old line been issued? -/
def Engine.readIssued (e : Engine) (op : LineOp) : Bool :=
  op.old.isSome || e.out.any (fun r => match r.use with | .data o => o = op.id | _ => false)

/-- Take back the reads of a line that are due and no longer wanted. -/
def dropReads (n : Nat) (op : LineOp) (s : State) : State :=
  s.updEng n (fun e => { e with due := e.due.filter (fun r =>
    r.wr || (match r.use with | .data o => o ≠ op.id | .tag o => o ≠ op.id | _ => true)) })

/-- The downstream write of an operation becomes due (R150, R151, R181). -/
def writeDue (n : Nat) (op : LineOp) (s : State) : State :=
  let s := putLine n { op with phase := .ready } s
  s.updEng n (fun e => { e with due := e.due ++ [{
    id := op.id, wr := true, pool := op.pool,
    line := if op.pool then op.line else op.dline, cls := op.cls, cyc := op.cyc, use := .data op.id }] })

/-- The clear policy of a line (R149). -/
def State.clearPolicy (s : State) (n : Nat) (op : LineOp) : Bool :=
  match tenMoor op.ten with
  | none => (s.eng n).reg.ownerPcf
  | some t => bit1 0 (s.getMoor t).adm.policy

/-- The write of a line under the counter after `c` (R139, R149): at the counter's end the line is
EXHAUSTED. -/
def writeAfter (n : Nat) (op : LineOp) (c : Nat) (s : State) : State :=
  if c + 1 = ctrPoisoned then endWrite n op .eCtrExhausted (exhaustLine n op s)
  else writeDue n op s

/-- All 128 byte enables. -/
def allBe : Nat := 2 ^ 128 - 1

/-- Put a list of bytes over another where the enable bits say so (R60). -/
def mergeBytes (be : Nat) (new old : Bytes) : Bytes :=
  (List.range 128).map (fun i => (if bit1 i be then new else old).getD i 0)

/-- The beat of an atomic, made in the merge step from the old word (R395, R396): data, enables and the prior
value; none for an operation that is no atomic. -/
def State.atomBeat (s : State) (op : LineOp) (plain : Bytes) : Option (Bytes × Nat × Nat) :=
  match op.org with
  | .task (.op id) =>
    match (s.getOp id).body with
    | .tgtAtom aop typ off x c _ =>
      let w := if typ = 1 then 8 else 4
      let m := leNat (slice off w plain)
      some (patch off (leBytes w (atomApply aop typ m x c)) (zeros 128), fld off w (2 ^ w - 1), m)
    | _ => none
  | _ => none

/-- The merge of an entry that has both its plaintext and its beat (R151, step 4). It then hands on to the
next entry at CHAIN_HANDOFF, or its write is due, or, where no entry changed a byte, the chain ends
(R151, step 5). -/
def mergeEntry (n : Nat) (op : LineOp) (s : State) : State :=
  match op.plain, op.beat with
  | some p, some (d, be) =>
    let b := (s.atomBeat op p).getD (d, be, 0)
    let op := { op with plain := some (mergeBytes b.2.1 b.1 p), dirty := op.dirty || decide (b.2.1 ≠ 0), used := b.2.2,
                        phase := .merged }
    let s := putLine n op s
    let e := s.eng n
    if (e.nextInChain op).isSome then s
    else if op.dirty then
      match op.ctr with
      | none => s
      | some c => writeAfter n op c s
    else endWrite n op .ok s
  | _, _ => s

/-- A partial write whose beat came in time and enables every byte or none (R60, R624): a full-line write,
or no write at all. Those that joined its chain start a chain of their own behind it. -/
def earlyBeat (n : Nat) (op : LineOp) (s : State) : Option State :=
  match op.org, op.beat with
  | .up _ _ _, some (_, be) =>
    if op.chain = some op.id ∧ !(s.eng n).readIssued op ∧ (be = allBe ∨ be = 0) ∧ op.plain.isNone then
      let rest := ((s.eng n).chainOf op.id).filter (fun o => o.id ≠ op.id)
      let h := rest.head?.map (·.id)
      let s := s.updEng n (fun e => { e with ops := e.ops.map (fun o =>
        if o.chain = some op.id ∧ o.id ≠ op.id then { o with chain := h, phase := .waiting } else o) })
      let s := dropReads n op s
      if be = 0 then some (endLine n { op with chain := none } .ok (zeros 128) 0 s)
      else some (putLine n { op with kind := .full, chain := none, dirty := true } s)
    else none
  | _, _ => none

/-- A full-line write with its beat and its counter (R149, R150, R159). -/
def progressFull (n : Nat) (op : LineOp) (s : State) : State :=
  match op.beat, op.ctr with
  | some (_, be), ctr =>
    if be ≠ allBe then endWrite n op .eEncoding s
    else match ctr with
      | none => s
      | some c =>
        if c = ctrExhausted then endWrite n op .eCtrExhausted s
        else if c = ctrPoisoned then
          if s.clearPolicy n op then
            let s := putLine n { op with phase := .record } s
            let e := s.eng n
            let r : DnReq := if s.carve op.pool then
                { id := op.id, wr := false, line := (e.tagPlace op.dline).1, cls := op.cls, cyc := op.cyc, use := .tag op.id }
              else { id := op.id, wr := false, pool := op.pool, line := if op.pool then op.line else op.dline,
                     cls := op.cls, cyc := op.cyc, use := .data op.id }
            s.setEng n { e with due := e.due ++ [r] }
          else endWrite n op .ePoisoned s
        else writeAfter n op c s
  | none, _ => s

/-- The poison record of a line to be cleared has been read (R159). -/
def recordRead (n : Nat) (op : LineOp) (ctr : Nat) (ue : Bool) (s : State) : State :=
  if ue then endWrite n op .eCtrExhausted (exhaustLine n op s)
  else if ctrPoisoned ≤ ctr + 1 then endWrite n op .eCtrExhausted (exhaustLine n op s)
  else writeDue n { op with base := some ctr } s

/-- A partial write at the head of its chain: the old line is wanted (R149, R151). A line found POISONED is
left to the next DOWNSTREAM_ISSUE, the cycle in which the read would issue (R624). -/
def progressPart (n : Nat) (op : LineOp) (s : State) : State :=
  match op.ctr with
  | none => s
  | some c =>
    if c = ctrExhausted then endWrite n op .eCtrExhausted (dropReads n op s)
    else if c = ctrPoisoned then
      (match op.beat with
       | none => (match op.org with | .up _ _ _ => s | _ => endWrite n op .ePoisoned s)
       | some _ => endWrite n op .ePoisoned (dropReads n op s))
    else if c = 0 then
      let op := { op with plain := some (zeros 128), phase := .merge }
      mergeEntry n op (putLine n op (dropReads n op s))
    else match op.open (s.carve op.pool) with
      | none => s
      | some (some p) =>
        let op := { op with plain := some p, phase := .merge }
        mergeEntry n op (putLine n op s)
      | some none =>
        let s := bump (licBase n + 0xB0) s
        let s := ((s.eng n).carried op).foldl (fun s o => lineEvent n 1 .eIntegrity o s) s
        poisonLine n op c .eIntegrity s

/-- A read (R145). -/
def progressRead (n : Nat) (op : LineOp) (s : State) : State :=
  let c := s.carve op.pool
  match op.frz, op.ctr with
  | none, none => s
  | none, some 0 => endRead n op .ok (zeros 128) s
  | none, some v =>
    if ctrPoisoned ≤ v then endRead n op .ePoisoned (zeros 128) s
    else match op.open c with
      | none => s
      | some (some p) => endRead n op .ok p s
      | some none => endRead n op .eIntegrity (zeros 128) s
  | some _, _ => match op.open c with
      | none => s
      | some (some p) => endRead n op .ok p s
      | some none => endRead n op .eIntegrity (zeros 128) s

/-- A REKEY turn (R181, R182). -/
def progressRekey (n : Nat) (op : LineOp) (s : State) : State :=
  let fail (s : State) : State := lineEvent n 0x0A .eIntegrity { op with ctx := 0 } s
  let openIt (s : State) (bad : State → State) : State :=
    match op.open (s.carve op.pool) with
    | none => readDue n op s
    | some (some p) => writeDue n { op with plain := some p } s
    | some none => bad s
  match op.frz, op.ctr with
  | some z, _ => openIt s (fun s =>
      let s := s.updEng n (fun e =>
        let f := Tab.get ({} : Frz) e.frz z.idx
        { e with frz := Tab.set {} e.frz z.idx { f with fails := min 0x1FFFFF (f.fails + 1) } })
      endTurn n op 3 (fail s))
  | none, none => s
  | none, some 0 => endTurn n op 1 s
  | none, some v =>
    if ctrPoisoned ≤ v then endTurn n op 2 (ctrSet n op 0 s)
    else openIt s (fun s => poisonLine n op 0 .eIntegrity (fail (bump (licBase n + 0xB0) s)))

/-- A SCRUB turn writes whatever the slot holds (R193). -/
def progressScrub (n : Nat) (op : LineOp) (s : State) : State :=
  match op.ctr with
  | none => s
  | some _ => writeDue n op s

/-- Go on with an operation that has begun. -/
def progress (n : Nat) (op : LineOp) (s : State) : State :=
  match op.kind with
  | .read => progressRead n op s
  | .full => progressFull n op s
  | .part =>
    match earlyBeat n op s with
    | some s' =>
      match (s'.eng n).op? op.id with
      | some o => progressFull n o s'
      | none => s'
    | none => progressPart n op s
  | .seal => writeDue n op s
  | .rekey => progressRekey n op s
  | .scrub => progressScrub n op s

/-- The write of a line of a LOADING region (R163): the line at FILL is written, one below it fails with
E_FROZEN, one above it with E_STATE. -/
def beginSeal (n : Nat) (op : LineOp) (s : State) : State :=
  match op.frz with
  | none => endWrite n op .eState s
  | some z =>
    let e := s.eng n
    let f := Tab.get ({} : Frz) e.frz z.idx
    let i := op.dline - e.reg.firstIdx (f.base - e.reg.base)
    if i < f.fill then endWrite n op .eFrozen s
    else if f.fill < i then endWrite n op .eState s
    else writeDue n op s

/-- Begin an operation that is first on its line: look its counter up and make its reads due (R145 to R151,
R181). -/
def beginLine (n : Nat) (op : LineOp) (s : State) : State :=
  let op := { op with phase := .fetch }
  match op.kind, op.frz with
  | .seal, _ => beginSeal n op (putLine n op s)
  | .read, some z =>
    if z.state = 1 then endRead n op .eState (zeros 128) s
    else readDue n op (putLine n op s)
  | .rekey, some _ => readDue n op (putLine n op s)
  | _, _ =>
    let r := ctrLookup n op s
    let op := { op with ctr := r.1 }
    let s := putLine n op r.2
    let live := match r.1 with | none => true | some v => decide (v ≠ 0 ∧ v < ctrPoisoned)
    let reads := (op.kind = .read || op.kind = .part) && live
    let s := if reads then readDue n op s else s
    if r.1.isSome ∨ op.beat.isSome then progress n op s else s

/-- May a waiting read share the response of the read ahead of it (R156)? -/
def shareLead (e : Engine) (a op : LineOp) : Option Nat :=
  if op.kind = .read ∧ a.kind = .read ∧ a.keyid = op.keyid ∧ a.key = op.key then
    match a.phase with
    | .fetch => if (a.old.isNone && e.ops.any (fun o => o.id = a.id)) then some a.id else none
    | .share l => some l
    | _ => none
  else none

/-- Start a waiting operation where the order on its line permits (R61, R152, R156); a partial write of the
block's own waits for a merge entry (R63). -/
def startLine (n : Nat) (op : LineOp) (s : State) : State :=
  let e := s.eng n
  if op.kind = .part ∧ op.chain ≠ some op.id ∧ op.chain.isSome then
    putLine n { op with phase := .merge } s
  else match e.before op with
    | some a =>
      match shareLead e a op with
      | some l => putLine n { op with phase := .share l } s
      | none => s
    | none => beginLine n op s

/-- Bring one operation on as far as it goes. -/
def stepLine (n id : Nat) (s : State) : State :=
  match (s.eng n).op? id with
  | none => s
  | some op =>
    match op.phase with
    | .waiting => startLine n op s
    | .fetch =>
      let op := if op.ctr.isNone ∧ op.frz.isNone then { op with ctr := (s.eng n).ctrVal op.slot } else op
      let s := putLine n op s
      let s := if op.frz.isNone then ctrNeed n op s else s
      progress n op s
    | .merge => mergeEntry n op s
    | .ready => if op.frz.isNone then ctrNeed n op s else s
    | _ => s

/-- Requests that must follow an earlier change of state: updates of tag lines whose turn has come, a fenced
engine's write-backs (R144), the fill of INIT (R131). -/
def engineDue (n : Nat) (s : State) : State :=
  let e := s.eng n
  let busy := fun (l : Nat) => (e.due ++ e.out).any (fun r => !r.pool && r.line = l && (match r.use with | .tagJob => true | _ => false))
  let firsts := e.tags.filter (fun t => (t.stage = 0 || t.stage = 2) && !busy t.line &&
    decide ((e.tags.find? (fun u => u.line = t.line)) = some t))
  let pois := fun (id : Nat) => match (e.op? id).map (fun (o : LineOp) => o.phase) with
    | some (LinePhase.poison _) => true
    | _ => false
  let prio : TagJob → Option Nat := fun t => if t.edits.any (fun x => pois x.2.2) then some 15 else none
  let tagReqs : List DnReq := firsts.map (fun t =>
    let o := t.edits.findSome? (fun x => e.op? x.2.2)
    { id := (o.map (·.id)).getD 0, wr := t.stage = 2, line := t.line, cls := (o.map (·.cls)).getD 63,
      prio := prio t, cyc := (o.map (·.cyc)).getD 0, use := .tagJob })
  let wbs : List DnReq :=
    if s.closedDom n then
      (e.cc.filter (fun c => c.dirty && !(e.due ++ e.out).any (fun r => r.line = c.line &&
        (match r.use with | .ctrWb _ _ => true | _ => false)))).map (fun c =>
          { id := 0, wr := true, line := c.line, cls := 63, prio := some 15, cyc := s.cyc, use := .ctrWb c.slots true })
    else []
  s.setEng n { e with due := e.due ++ tagReqs ++ wbs }

/-- Bring every operation of an engine on, in acceptance order (R61). -/
def advance (n : Nat) (s : State) : State :=
  engineDue n (((s.eng n).ops.map (·.id)).foldl (fun s id => stepLine n id s) s)

/-! ### Acceptance (R56, R57, R136, R183) -/

/-- Is a slot's turn of the job on this engine's slice finished (R183)? -/
def State.turnDone (s : State) (n keyid slot : Nat) : Bool :=
  let z := Tab.get ({} : Slice) s.tide.slices n
  decide (z.kind = 1 ∧ z.keyid = keyid) &&
  ((decide (z.localFirst ≤ slot ∧ slot < z.localEnd) || decide (z.poolFirst ≤ slot ∧ slot < z.poolEnd)) &&
    (decide (slot < z.tideLine) || z.fin.contains slot))

/-- Put a KeyID's entry first in the key cache; the least recently used of 256 goes, but for Tide's two
(R136, R185). -/
def keyTouch (n keyid berth : Nat) (s : State) : State :=
  s.updEng n (fun e =>
    let t := (e.kc.find? (fun k => k.keyid = keyid)).map (·.tide) |>.getD false
    let rest := e.kc.filter (fun k => k.keyid ≠ keyid ∨ k.tide)
    let rest := if 256 ≤ rest.length then
        match (rest.filter (fun k => !k.tide)).getLast? with
        | some v => rest.filter (fun k => k ≠ v)
        | none => rest
      else rest
    { e with kc := (if t then rest else { keyid := keyid, berth := berth } :: rest) })

/-- Checks 4 to 7 of R57 for a KeyID on an engine: status, key and berth. -/
def keyCheck (n keyid ten : Nat) (s : State) : Status × Bytes × Nat × State :=
  let k := s.getKmap keyid
  if keyid = 0 ∨ !k.valid then (.ePermission, [], 0, s)
  else
    let b := k.pick n
    let hit := (s.eng n).kc.any (fun x => x.keyid = keyid)
    let s := bumpIf (!hit) (licBase n + 0xA8) s
    let r := berthLoad b (mLichen n) 0 (fun x => x.fits ten) s
    if r.1 = .ok then (.ok, r.2.1, b, keyTouch n keyid b r.2.2) else (r.1, [], b, r.2.2)

/-- The key a line is served under: the new berth's where the line's turn is finished (R183). -/
def State.lineKey (s : State) (n keyid slot : Nat) (key : Bytes) : Bytes :=
  if s.turnDone n keyid slot then (s.getBerth (Tab.get ({} : Slice) s.tide.slices n).newBerth).key else key

/-- The descriptor in force for a line at its acceptance (R164): a line whose turn is finished takes implied
counter 0 (R183). -/
def State.frzSnap (s : State) (n keyid slot : Nat) (pool : Bool) (a : Nat) : Option FrzSnap :=
  if pool then none
  else ((s.eng n).frzAt a).map (fun p =>
    ⟨p.1, p.2.state, if s.turnDone n keyid slot then 0 else p.2.gen⟩)

/-- Does an accepted partial write join the chain of its line (R152)? The chain it joins. -/
def Engine.joins (e : Engine) (op : LineOp) : Option Nat :=
  match (e.ops.filter (·.same op)).getLast? with
  | none => none
  | some a =>
    if a.kind = .part ∧ op.kind = .part ∧ a.keyid = op.keyid then
      match a.phase, a.chain with
      | .writing, _ => none
      | .poison _, _ => none
      | _, some h => if (e.chainOf h).length < 16 then some h else none
      | _, none => none
    else none

/-- Take a line into the engine's list; a chain that was about to write goes on with its new entry. -/
def acceptLine (n : Nat) (op : LineOp) (s : State) : State :=
  let e := s.eng n
  match op.kind with
  | .part =>
    match e.joins op with
    | some h =>
      let op := { op with chain := some h }
      let e := { e with
        ops := e.ops.map (fun (o : LineOp) => if o.chain = some h ∧ o.phase = LinePhase.ready then { o with phase := .merged } else o),
        due := e.due.filter (fun r => !(r.wr && (match r.use with
          | .data i => e.ops.any (fun o => o.id = i && o.chain = some h) | _ => false))) }
      s.setEng n { e with ops := e.ops ++ [op] }
    | none => s.setEng n { e with ops := e.ops ++ [{ op with chain := some op.id }] }
  | _ => s.setEng n { e with ops := e.ops ++ [op] }

/-- A line of the block's own work is handed to the engine that owns it (R25), under a world and mooring; its
checks are those of R57, and a failing one ends the line at once. `dump` marks the dump channel, which alone
may write to an engine in DUMPING (R571). -/
def submitLine (t : Task) (kind : LineKind) (addr ten ctx : Nat) (beat : Option (Bytes × Nat)) (dump : Bool)
    (s : State) : State :=
  let fin (st : Status) (s : State) : State := { s with done := s.done ++ [⟨t, st, zeros 128, 0⟩] }
  let pool := bit1 50 addr
  let a := addr % 2 ^ 50 / 128 * 128
  let keyid := bits 51 13 addr
  match s.ownerOf pool a with
  | none => fin .eBounds s
  | some (n, dline, slot) =>
    if s.closedDom n ∧ !(dump ∧ (s.getDom n).state ≠ .fenced) then fin .eFenced s
    else
      let k := keyCheck n keyid ten s
      let s := k.2.2.2
      if k.1 ≠ .ok then fin k.1 s
      else
        let z := s.frzSnap n keyid slot pool a
        if (kind = .full ∨ kind = .part) ∧ z.isSome then fin .eFrozen s
        else
          let f := s.fresh
          let s := f.2
          let line := a / 128
          advance n (acceptLine n {
            id := f.1, org := .task t, kind := kind, pool := pool, line := line,
            dline := dline, slot := slot, keyid := keyid, ten := ten, ctx := ctx,
            key := s.lineKey n keyid slot k.2.1, frz := z, cls := s.classOf (addr % 2 ^ 51 / 128 * 128), cyc := s.cyc,
            beat := beat } s)

/-! ### What comes back -/

/-- A read of a data line has come back. -/
def dataBack (n id : Nat) (ct : Bytes) (sb : Nat) (ue : Bool) (s : State) : State :=
  match (s.eng n).op? id with
  | none => s
  | some op =>
    match op.phase with
    | .record => recordRead n op sb ue s
    | .fetch => putLine n { op with old := some (ct, sb, ue) } s
    | _ => s

/-- A read of a tag line has come back for an operation. -/
def tagBack (n id : Nat) (data : Bytes) (ue : Bool) (s : State) : State :=
  match (s.eng n).op? id with
  | none => s
  | some op =>
    let raw := slice (8 * (op.dline % 16)) 8 data
    match op.phase with
    | .record => recordRead n op (leNat raw) ue s
    | .fetch => putLine n { op with tag := some (beNat raw, ue) } s
    | _ => s

/-- Every part of an operation's write is complete (R149, R154, R158, R163, R182, R193). -/
def writeEnded (n : Nat) (op : LineOp) (s : State) : State :=
  if op.wBad then
    match op.kind with
    | .seal => endWrite n op .eIntegrity s
    | .scrub => writeDue n { op with wBad := false } s
    | .rekey =>
      if op.frz.isSome then endTurn n op 3 (lineEvent n 0x0A .eIntegrity { op with ctx := 0 } s)
      else poisonLine n op 1 .eIntegrity (lineEvent n 0x0A .eIntegrity { op with ctx := 0 } s)
    | _ =>
      let s := ((s.eng n).carried op).foldl (fun s o => lineEvent n 1 .eIntegrity o s) s
      poisonLine n op (op.base.getD 0) .eIntegrity s
  else
    match op.kind with
    | .seal =>
      let s := match op.frz with
        | none => s
        | some z => s.updEng n (fun e =>
            let f := Tab.get ({} : Frz) e.frz z.idx
            { e with frz := Tab.set {} e.frz z.idx { f with fill := f.fill + 1 } })
      endWrite n op .ok s
    | .rekey => endTurn n op 0 s
    | .scrub => endTurn n op 0 s
    | _ => endWrite n op .ok s

/-- One part of an operation's write is complete: its data line, or in carve-out mode its tag line. -/
def partDone (n id : Nat) (tag ue : Bool) (s : State) : State :=
  match (s.eng n).op? id with
  | none => s
  | some op =>
    match op.phase with
    | .writing =>
      let op := { op with wData := op.wData && tag, wTag := op.wTag && !tag, wBad := op.wBad || ue }
      let s := putLine n op s
      if op.wData ∨ op.wTag then s else writeEnded n op s
    | .poison st =>
      let s := if ue then ctrSet n op ctrExhausted s else s
      if op.kind = .rekey then endTurn n op 3 s else endWrite n op st s
    | _ => s

/-- A counter carve-out line has been read; an uncorrectable one is installed with every slot EXHAUSTED
(R622). -/
def ctrBack (n : Nat) (r : DnReq) (data : Bytes) (ue : Bool) (s : State) : State :=
  if ue then
    let s := ctrInstall n r (List.replicate 16 ctrExhausted) true s
    let s := poisonCount n 16 s
    let e := s.eng n
    let a := ((e.slotAddr ((r.line - e.reg.ctrBase) * 16)).map (fun p => p.2 + fld 50 1 (b2n p.1))).getD 0
    raiseOwner .eCtrExhausted n 3 0x100 0 a s
  else ctrInstall n r ((List.range 16).map (fun i => leNat (slice (8 * i) 8 data))) false s

/-- A write-back of a counter line is complete; one that failed is repeated with every slot EXHAUSTED, until
it is stored (R622). -/
def wbBack (n : Nat) (r : DnReq) (slots : List Nat) (flush ue : Bool) (s : State) : State :=
  if !ue then s
  else
    let e := s.eng n
    let cur := ((e.cc.find? (fun c => c.line = r.line)).map (·.slots)).getD slots
    let s := poisonCount n (cur.filter (fun v => v ≠ ctrExhausted)).length s
    let all := List.replicate 16 ctrExhausted
    s.updEng n (fun e => { e with
      cc := e.cc.map (fun c => if c.line = r.line then { c with slots := all } else c),
      due := e.due ++ [{ r with rid := 0, data := [], use := .ctrWb all flush }] })

/-- A read of a tag line for an update has come back: the edits go over it. -/
def tagJobRead (n line : Nat) (data : Bytes) (s : State) : State :=
  s.updEng n (fun e => { e with tags := e.tags.map (fun t =>
    if t.line = line ∧ t.stage = 1 then { t with base := data, stage := 2 } else t) })

/-- The write of a tag line is complete: every edit's operation hears of it (R622). -/
def tagJobWritten (n line : Nat) (ue : Bool) (s : State) : State :=
  let js := (s.eng n).tags.filter (fun t => t.line = line ∧ t.stage = 3)
  let s := s.updEng n (fun e => { e with tags := e.tags.filter (fun t => !(t.line = line ∧ t.stage = 3)) })
  js.foldl (fun s t => t.edits.foldl (fun s x => partDone n x.2.2 true ue s) s) s

/-! ### Downstream issue (R68 to R70, R139, R140, R552 to R557) -/

/-- Is a request one for data, of a local or a pool line (R555)? -/
def DnReq.isData (r : DnReq) : Bool := match r.use with | .data _ => true | _ => false

/-- The priority of a request now (R546, R550, R552). -/
def State.reqPrio (s : State) (n : Nat) (r : DnReq) : Nat :=
  match r.prio with
  | some p => p
  | none =>
    let p := s.classPrio n r.cls
    if s.bw.starved.contains (n, r.id) then max 14 p else p

/-- A data write's counter line must be resident, since the write takes its counter at its issue (R139). -/
def Engine.ctrReady (e : Engine) (r : DnReq) : Bool :=
  match r.use, r.wr with
  | .data id, true =>
    match e.op? id with
    | some op => op.frz.isSome || (e.ctrVal op.slot).isSome
    | none => true
  | .poison _, _ => true
  | _, _ => true

/-- The key of a line in the table of last writes (R140). -/
def lineKeyOf (pool : Bool) (line : Nat) : Nat := line + (if pool then 2 ^ 43 else 0)

/-- Do the order of the line and the rules of R61, R70 and R140 permit a request? `earlier` are the requests
due before it. -/
def State.permitted (s : State) (n : Nat) (earlier : List DnReq) (r : DnReq) : Bool :=
  let e := s.eng n
  let clash := fun (x : DnReq) => x.pool == r.pool && x.line == r.line
  let last := Tab.get 0 e.lastWr (lineKeyOf r.pool r.line)
  let dataWr := r.wr && (match r.use with | .data _ => true | .poison _ => true | _ => false)
  !e.out.any clash && !earlier.any clash && e.ctrReady r && (!dataWr || last = 0 || decide (last + 79 ≤ s.cyc))

/-- Is a request held by controller feedback (R553, R554)? -/
def State.throttled (s : State) (n : Nat) (r : DnReq) : Bool :=
  let e := s.eng n
  decide (s.bw.ctrl.qlvlThr ≤ e.qlvl) && decide (s.reqPrio n r < s.bw.ctrl.throttle) && !r.pool &&
    decide (r.prio ≠ some 15) && !s.resOk r.cls

/-- Is a request held by its class's cap (R555)? -/
def State.capped (s : State) (n : Nat) (r : DnReq) : Bool :=
  r.isData && decide (r.prio ≠ some 15) && s.capHolds n r.cls

/-- The requests of a kind that may issue, with their priorities, in order of being due. -/
def State.issuable (s : State) (n : Nat) (pool : Bool) : List DnReq → List DnReq → List (DnReq × Nat)
  | _, [] => []
  | earlier, r :: t =>
    let rest := s.issuable n pool (r :: earlier) t
    if r.pool = pool ∧ s.permitted n earlier r ∧ !s.throttled n r ∧ !s.capped n r then (r, s.reqPrio n r) :: rest
    else rest

/-- The highest priority, the oldest accepted among equals (R552). -/
def bestReq : List (DnReq × Nat) → Option (DnReq × Nat)
  | [] => none
  | x :: t => match bestReq t with
    | none => some x
    | some y => if x.2 > y.2 ∨ (x.2 = y.2 ∧ x.1.cyc ≤ y.1.cyc) then some x else some y

/-- A DN_REQ_ID that no outstanding request holds. -/
def Engine.freeRid (e : Engine) : Nat :=
  ((List.range (e.out.length + e.late.length + 1)).find? (fun i =>
    !e.out.any (fun r => !r.pool && r.rid = i) && !e.late.contains i)).getD 0

/-- Remember the cycle of a line's write (R140); entries older than 80 cycles go. -/
def noteWrite (n : Nat) (r : DnReq) (s : State) : State :=
  s.updEng n (fun e => { e with
    lastWr := Tab.set 0 (e.lastWr.filter (fun p => decide (s.cyc ≤ p.2 + 80))) (lineKeyOf r.pool r.line) (s.cyc + 1) })

/-- What a data write carries, fixed at its issue: ciphertext and tag under the counter it takes (R139,
R163, R181, R193), and the counter slot set to it. -/
def sealWrite (n : Nat) (op : LineOp) (s : State) : Bytes × Nat × State :=
  let cur := ((s.eng n).ctrVal op.slot).getD 0
  let pt := match op.kind with
    | .full => (op.beat.map (·.1)).getD (zeros 128)
    | .seal => (op.beat.map (·.1)).getD (zeros 128)
    | .scrub => zeros 128
    | _ => op.plain.getD (zeros 128)
  let k : LineKey × Option Nat := match op.kind, op.frz with
    | .seal, some z => (⟨op.key, z.gen, 1, op.pool, op.line⟩, none)
    | .rekey, some _ => (⟨op.key2, 0, 1, op.pool, op.line⟩, none)
    | .rekey, none => (⟨op.key2, 1, 0, op.pool, op.line⟩, some 1)
    | .scrub, _ => (⟨op.key, if ctrPoisoned ≤ cur then 0 else cur, 0, op.pool, op.line⟩, some 0)
    | _, _ =>
      let c := op.base.getD cur + 1
      (⟨op.key, c, 0, op.pool, op.line⟩, some c)
  let ct := k.1.crypt pt
  let tag := k.1.tag ct
  let s := match k.2 with | some v => ctrSet n op v s | none => s
  let op := { op with phase := .writing, wData := true, wTag := s.carve op.pool, base := some k.1.ctr, wBad := false }
  let s := putLine n op s
  let s := if s.carve op.pool then
      let p := (s.eng n).tagPlace op.dline
      tagEdit n p.1 p.2 (beBytes 8 tag) op.id s
    else s
  (ct, tag, bump (licBase n + 0x88) s)

/-- What a request carries at its issue, and the state with what the issue changes. -/
def issueData (n : Nat) (r : DnReq) (s : State) : DnReq × State :=
  match r.use, r.wr with
  | .data id, true =>
    match (s.eng n).op? id with
    | none => (r, s)
    | some op =>
      let w := sealWrite n op s
      ({ r with data := w.1, sb := w.2.1 }, noteWrite n r w.2.2)
  | .poison _, _ => (r, noteWrite n r s)
  | .ctrWb slots flush, _ =>
    let cur := ((s.eng n).cc.find? (fun c => c.line = r.line)).map (·.slots)
    let v := cur.getD slots
    let s := s.updEng n (fun e => { e with cc := e.cc.map (fun c => if c.line = r.line then { c with dirty := false } else c) })
    ({ r with data := v.flatMap (leBytes 8), use := .ctrWb v flush }, s)
  | .tagJob, w =>
    let t := ((s.eng n).tags.find? (fun t => t.line = r.line))
    let d := match t with
      | none => zeros 128
      | some t => t.edits.foldl (fun b x => patch (8 * x.1) x.2.1 b) (slice 0 128 t.base)
    let s := s.updEng n (fun e => { e with tags := e.tags.map (fun x =>
      if some x = t then { x with stage := x.stage + 1 } else x) })
    ({ r with data := if w then d else [] }, s)
  | .init, _ => ({ r with data := zeros 128 }, s)
  | _, _ => (r, s)

/-- Take a request out of those due, once. -/
def Engine.unDue (e : Engine) (r : DnReq) : Engine := { e with due := e.due.erase r }

/-- Issue a request on a downstream lane (R68). -/
def issueOn (n lane : Nat) (r : DnReq) (s : State) : State :=
  let s := s.updEng n (·.unDue r)
  let w := issueData n r s
  let s := w.2
  let id := (s.eng n).freeRid
  let q : DnReq := { w.1 with rid := id }
  let sb := if q.wr ∧ s.straps.tagSb then q.sb else 0
  let s := emit (.dnReq n lane q.wr q.line id (if q.wr then q.data else zeros 128) sb) s
  let s := if r.isData then bwCharge n r.cls s else s
  let s := { s with bw := { s.bw with starved := if r.isData then s.bw.starved.filter (· ≠ (n, r.id)) else s.bw.starved } }
  let tide := match (s.eng n).op? r.id with | some o => (match o.org with | .turn _ _ => true | _ => false) | none => false
  let s := if tide then s else
    let z := Tab.get ({} : Slice) s.tide.slices n
    let z := if z.kind = 0 then z else { z with other := z.other + 128 }
    { s with tide := { s.tide with slices := Tab.set {} s.tide.slices n z } }
  s.updEng n (fun e => { e with out := e.out ++ [q] })

/-- One issue on a lane that is ready, if any request may issue. -/
def issueLane (n lane : Nat) (s : State) : State :=
  match bestReq (s.issuable n false [] (s.eng n).due) with
  | none => s
  | some r => issueOn n lane r.1 s

/-- Fill the carve-outs: up to 16 lines of INIT are due at a time (R131). -/
def Engine.initLines (e : Engine) (sb : Bool) : Nat :=
  (e.reg.memLines - e.reg.ctrBase) + (if sb then 0 else e.reg.dataLines / 16)

/-- The controller line of the i-th line of the fill: the counter carve-out, then the tag carve-out. -/
def Engine.initLine (e : Engine) (i : Nat) : Nat :=
  let c := e.reg.memLines - e.reg.ctrBase
  if i < c then e.reg.ctrBase + i else e.reg.tagBase + (i - c)

/-- Keep the fill going. -/
def initDue (n : Nat) (s : State) : State :=
  let e := s.eng n
  if !e.reg.initBusy then s
  else
    let open' := ((e.due ++ e.out).filter (fun r => match r.use with | .init => true | _ => false)).length
    let k := min (16 - open') (e.initLines s.straps.tagSb - e.fill)
    let reqs : List DnReq := (List.range k).map (fun i =>
      { id := 0, wr := true, line := e.initLine (e.fill + i), cls := 63, cyc := s.cyc, use := .init })
    s.setEng n { e with due := e.due ++ reqs, fill := e.fill + k }

/-- One line of the fill is complete; the last one sets INIT_DONE (R131). A failed one is written again. -/
def initBack (n : Nat) (r : DnReq) (ue : Bool) (s : State) : State :=
  if ue then s.updEng n (fun e => { e with due := e.due ++ [{ r with rid := 0, data := [] }] })
  else
    let s := initDue n s
    let e := s.eng n
    if (e.due ++ e.out).any (fun r => match r.use with | .init => true | _ => false) ∨ e.fill < e.initLines s.straps.tagSb then s
    else s.setEng n { e with reg := { e.reg with initBusy := false, initDone := true } }

/-- Take an outstanding local request by its identifier. -/
def Engine.takeOut (e : Engine) (rid : Nat) (wr : Bool) : Option (DnReq × Engine) :=
  match e.out.find? (fun r => !r.pool && r.rid = rid && r.wr == wr) with
  | none => none
  | some r => some (r, { e with out := e.out.filter (fun x => x ≠ r) })

/-- Operations found POISONED without a beat by the cycle their read would issue (R624). -/
def latePoisoned (n : Nat) (s : State) : State :=
  let l := (s.eng n).ops.filter (fun o => o.kind = .part && o.phase = .fetch && o.ctr = some ctrPoisoned &&
    o.chain = some o.id)
  l.foldl (fun s o => endWrite n o .ePoisoned s) s

end Sys2Proof.Machine
end

