-- ==== Sys2Proof/Machine/LichenPort.lean ====
section
/-! DEFINITION. A Lichen engine's ports and registers: requests accepted on the upstream lanes, write-data
beats, chains, the memory controller's responses, INIT, FLUSH and the frozen region descriptors. -/

namespace Sys2Proof

/-- Byte addresses [49:0] of a request's lines. -/
def UpReq.lineAddrs (r : UpReq) : List Nat := (List.range (r.lines + 1)).map (fun i => r.addr % 2 ^ 50 + 128 * i)

def UpReq.pool (r : UpReq) : Bool := bit1 50 r.addr
def UpReq.keyid (r : UpReq) : Nat := bits 51 13 r.addr

/-- Does a request take write-data beats (R59)? -/
def UpReq.writes (r : UpReq) : Bool := decide (r.op = 1 ∨ r.op = 2)

end Sys2Proof

namespace Sys2Proof.Machine

/-! ### Upstream requests (R56, R57) -/

/-- The checks of R57, in order: status, key, and the state with what a berth load changes. -/
def upCheck (n : Nat) (r : UpReq) (s : State) : Status × Bytes × State :=
  let places := r.lineAddrs.map ((s.eng n).place s.straps.tagSb r.pool)
  let st := firstFail .ok
    [(s.closedDom n, .eFenced),
     (decide (r.op = 3 ∨ r.addr % 128 ≠ 0 ∨ (r.op = 2 ∧ r.lines ≠ 0)), .eEncoding),
     (places.any (·.isNone), .eBounds)]
  if st ≠ .ok then (st, [], s)
  else
    let k := keyCheck n r.keyid r.ten s
    if k.1 ≠ .ok then (k.1, [], k.2.2.2)
    else if r.writes ∧ !r.pool ∧ r.lineAddrs.any (fun a => ((s.eng n).frzAt a).isSome) then (.eFrozen, [], k.2.2.2)
    else (.ok, k.2.1, k.2.2.2)

/-- The kind of an upstream operation. -/
def upKind (r : UpReq) : LineKind := if r.op = 1 then .full else if r.op = 2 then .part else .read

/-- Change a lane. -/
def updLane (n lane : Nat) (f : Lane → Lane) (s : State) : State :=
  s.updEng n (fun e => { e with lanes := Tab.set {} e.lanes lane (f (Tab.get {} e.lanes lane)) })

/-- Answer every line of a request with the status of the check that failed. -/
def failReq (n lane serial : Nat) (r : UpReq) (st : Status) (s : State) : State :=
  let smp (i : Nat) := if st = .eFenced then none else some (s.classOf ((r.addr % 2 ^ 51 + 128 * i) % 2 ^ 51), s.cyc)
  let ends := (List.range (r.lines + 1)).map (fun i => LineEnd.mk i st (zeros 128) (smp i))
  let s := (List.range (r.lines + 1)).foldl (fun s _ => markLost r.ten r.ctx st s) s
  flushLane n lane (updLane n lane (fun l => { l with jobs := l.jobs ++ [{ serial := serial, req := r, ends := ends }] }) s)

/-- The operation of line i of a request that passed the checks. -/
def upLine (n lane serial : Nat) (r : UpReq) (key : Bytes) (i id : Nat) (s : State) : LineOp :=
  let a := r.addr % 2 ^ 50 + 128 * i
  let p := ((s.eng n).place s.straps.tagSb r.pool a).getD (0, 0)
  { id := id, org := .up lane serial i, kind := upKind r, pool := r.pool, line := a / 128, dline := p.1,
    slot := p.2, keyid := r.keyid, ten := r.ten, ctx := r.ctx, key := s.lineKey n r.keyid p.2 key,
    frz := s.frzSnap n r.keyid p.2 r.pool a, cls := s.classOf ((r.addr % 2 ^ 51 + 128 * i) % 2 ^ 51),
    cyc := s.cyc }

/-- Accept a request on a lane. -/
def acceptReq (n lane : Nat) (r : UpReq) (s : State) : State :=
  let f := s.fresh
  let serial := f.1
  let s := f.2
  let s := updLane n lane (fun l => if r.writes then
    { l with beats := l.beats ++ (List.range (r.lines + 1)).map (fun i => (serial, i)) } else l) s
  let c := upCheck n r s
  let s := c.2.2
  if c.1 ≠ .ok then failReq n lane serial r c.1 s
  else
    let s := updLane n lane (fun l => { l with jobs := l.jobs ++ [{ serial := serial, req := r }] }) s
    let s := (List.range (r.lines + 1)).foldl (fun s i =>
      let f := s.fresh
      acceptLine n (upLine n lane serial r c.2.1 i f.1 f.2) f.2) s
    advance n s

/-- Present a request on a lane: a partial write waits while every merge entry is held (R63). -/
def presentReq (n lane : Nat) (r : UpReq) (s : State) : State :=
  if r.op = 2 ∧ (s.eng n).mergeHeld = 64 then updLane n lane (fun l => { l with held := some r }) s
  else acceptReq n lane r s

/-- Accept the partial writes that merge entries have become free for, lowest lane first (R61, R63). -/
def admitHeld (n : Nat) (s : State) : State :=
  (List.range 12).foldl (fun s lane =>
    match (Tab.get ({} : Lane) (s.eng n).lanes lane).held with
    | none => s
    | some r =>
      if (s.eng n).mergeHeld = 64 then s
      else acceptReq n lane r (updLane n lane (fun l => { l with held := none }) s)) s

/-- Does an engine's upstream port carry transfers, on a lane that exists? -/
def State.lanePort (s : State) (n lane : Nat) : Bool := decide (n < 8 ∧ lane < 12) && s.runs n

/-- UPSTREAM_REQUEST (R56, R57). A lane whose pending request is not accepted presents no other (R50). -/
def upstreamRequest (n lane : Nat) (r : UpReq) (s : State) : State :=
  if s.lanePort n lane ∧ (Tab.get ({} : Lane) (s.eng n).lanes lane).held = none then presentReq n lane r s else s

/-- REQUEST_WITHDRAWAL (R64): while READY_P is 0, a pending partial write gives way to another request. -/
def requestWithdrawal (n lane : Nat) (r : UpReq) (s : State) : State :=
  if s.lanePort n lane ∧ (Tab.get ({} : Lane) (s.eng n).lanes lane).held.isSome ∧ (s.eng n).mergeHeld = 64 then
    presentReq n lane r (updLane n lane (fun l => { l with held := none }) s)
  else s

/-- WRITE_DATA_BEAT (R59, R60): the beat goes to the oldest line of the lane that waits for one; a beat of a
failed write is discarded. -/
def writeDataBeat (n lane : Nat) (data : Bytes) (be : Nat) (s : State) : State :=
  let l : Lane := Tab.get {} (s.eng n).lanes lane
  if !s.lanePort n lane then s
  else match l.beats with
    | [] => s
    | (serial, idx) :: t =>
      let s := updLane n lane (fun l => { l with beats := t }) s
      match (s.eng n).ops.find? (fun o => decide (o.org = .up lane serial idx)) with
      | none => s
      | some op => advance n (putLine n { op with beat := some (slice 0 128 data, be % 2 ^ 128) } s)

/-! ### Chains (R153) -/

/-- CHAIN_HANDOFF: 32 cycles after its merge, entry number `entry` of the merge buffer hands its plaintext to
the next entry of its chain, which merges if its beat is there. -/
def chainHandoff (n entry : Nat) (s : State) : State :=
  let e := s.eng n
  match (e.ops.filter (fun o => decide (o.kind = .part)))[entry]? with
  | none => s
  | some op =>
    match op.phase, op.plain, e.nextInChain op with
    | .merged, some p, some next =>
      let s := putLine n { op with plain := none } s
      let next := { next with plain := some p, dirty := op.dirty, ctr := op.ctr, phase := .merge }
      advance n (mergeEntry n next (putLine n next (bump (licBase n + 0x80) s)))
    | _, _, _ => s

/-! ### The memory controller's responses (R72, R145, R149) -/

/-- A response to a request answered at DRAIN_LIMIT is discarded and counted (R53). -/
def lateResponse (n id : Nat) (s : State) : State :=
  if (s.eng n).late.contains id then
    bump (faultBase + 0x308) (s.updEng n (fun e => { e with late := e.late.erase id }))
  else s

/-- DOWNSTREAM_READ_RESPONSE (R145, R148, R159, R622). -/
def readResponse (n id : Nat) (data : Bytes) (sb : Nat) (ue : Bool) (s : State) : State :=
  if !s.runs n then s
  else match (s.eng n).takeOut id false with
    | none => lateResponse n id s
    | some (r, e) =>
      let s := s.setEng n e
      let data := slice 0 128 data
      let s := match r.use with
        | .data op => dataBack n op data (sb % 2 ^ 64) ue s
        | .tag op => tagBack n op data ue s
        | .ctr _ => ctrBack n r data ue s
        | .tagJob => tagJobRead n r.line data s
        | _ => s
      advance n s

/-- DOWNSTREAM_WRITE_COMPLETE (R149, R158, R622). -/
def writeComplete (n id : Nat) (ue : Bool) (s : State) : State :=
  if !s.runs n then s
  else match (s.eng n).takeOut id true with
    | none => lateResponse n id s
    | some (r, e) =>
      let s := bumpIf ue (licBase n + 0xB8) (s.setEng n e)
      let s := match r.use with
        | .data op => partDone n op false ue s
        | .poison op => partDone n op false ue s
        | .ctrWb slots flush => wbBack n r slots flush ue s
        | .tagJob => tagJobWritten n r.line ue s
        | .init => initBack n r ue s
        | _ => s
      advance n s

/-! ### CTRL and the frozen descriptors (R131, R162, R170, R175) -/

/-- A write of 1 to CTRL.INIT (R131). The cached counter lines go with what the fill overwrites. -/
def licInit (n : Nat) (s : State) : State :=
  let e := s.eng n
  let r := e.reg
  if r.base < r.limit ∨ r.initBusy ∨ r.cfgErr s.straps.tagSb then s
  else initDue n (s.setEng n { e with reg := { r with initBusy := true }, fill := 0, cc := [] })

/-- A write of 1 to CTRL.FLUSH (R170): every dirty counter line is written back and stays resident. -/
def licFlush (n : Nat) (s : State) : State :=
  let e := s.eng n
  let busy (c : CtrLine) : Bool := (e.due ++ e.out).any (fun r => r.line = c.line &&
    (match r.use with | .ctrWb _ _ => true | _ => false))
  let wbs : List DnReq := (e.cc.filter (fun c => c.dirty && !busy c)).map (fun c =>
    { id := 0, wr := true, line := c.line, cls := 63, cyc := s.cyc, use := .ctrWb c.slots true })
  s.setEng n { e with due := e.due ++ wbs }

/-- FLUSH_BUSY (R171). -/
def Engine.flushBusy (e : Engine) : Bool :=
  (e.due ++ e.out).any (fun r => match r.use with | .ctrWb _ f => f | _ => false)

/-- The descriptor of a region as the engines hold it: the lowest present engine's. -/
def State.frz (s : State) (f : Nat) : Frz :=
  match s.engines with
  | [] => {}
  | n :: _ => Tab.get {} (s.eng n).frz f

/-- Change a region's descriptor on every engine. -/
def updFrz (f : Nat) (g : Frz → Frz) (s : State) : State :=
  s.engines.foldl (fun s n => s.updEng n (fun e => { e with frz := Tab.set {} e.frz f (g (Tab.get {} e.frz f)) })) s

/-- The range of a region lies in local memory and overlaps no other region that is not EMPTY (R162). -/
def State.frzRangeOk (s : State) (f : Nat) : Bool :=
  let z := s.frz f
  s.engines.all (fun n =>
    let r := (s.eng n).reg
    decide (r.base ≤ z.base ∧ z.base + z.lines * 128 ≤ r.limit) &&
    !(s.eng n).frz.any (fun p => decide (p.1 ≠ f ∧ p.2.state ≠ 0 ∧ p.2.base < z.base + z.lines * 128 ∧
      z.base < p.2.base + p.2.lines * 128)))

/-- Every engine's FILL equals its share of the region (R162). -/
def State.frzFull (s : State) (f : Nat) : Bool :=
  s.engines.all (fun n =>
    let z := Tab.get ({} : Frz) (s.eng n).frz f
    decide (z.fill = (s.eng n).reg.share z.lines))

/-- Does R162 permit a change of STATE? -/
def State.frzMoves (s : State) (f dst : Nat) : Bool :=
  let z := s.frz f
  match z.state, dst with
  | 0, 1 => decide (z.gen < 0xFFFFFFFF) && s.frzRangeOk f
  | 2, 1 => decide (z.gen < 0xFFFFFFFF) && s.frzRangeOk f
  | 1, 2 => s.frzFull f
  | 1, 0 => true
  | 2, 0 => true
  | _, _ => false

/-- Make a permitted change of STATE: entry to LOADING takes a new generation and an empty FILL (R162). -/
def frzEnter (f dst : Nat) (s : State) : State :=
  updFrz f (fun z => if dst = 1 then { z with state := 1, gen := z.gen + 1, fill := 0 } else { z with state := dst }) s

/-- Address of a region's descriptor on engine n. -/
def frzAddr (n f : Nat) : Nat := licBase n + 0x1000 + f * 0x20

/-- Prity's write of STATE (R175): read back and logged on each engine (R21, R40), ignored and counted where
R162 does not permit it. False where the write did not take effect. -/
def frzWrite (f dst : Nat) (s : State) : Bool × State :=
  let z := s.frz f
  if !s.frzMoves f dst then
    (false, s.engines.foldl (fun s n => permFault (frzAddr n f) s) s)
  else
    let r := readBackFails s
    let gen := if dst = 1 then z.gen + 1 else z.gen
    let v := fld 0 2 dst + fld 2 13 z.keyid + fld 32 32 gen
    if r.1 then (false, auditLog 2 .eIntegrity 0 0 0 (frzAddr (s.engines.headD 0) f + 0x10) v r.2)
    else (true, s.engines.foldl (fun s n => auditLog 1 .ok 0 0 0 (frzAddr n f + 0x10) v s) (frzEnter f dst r.2))

end Sys2Proof.Machine
end

