-- ==== Sys2Proof/Machine/TideOps.lean ====
section
/-! DEFINITION. Tide: slices, turns, the tide line, pacing and the end of jobs (R177 to R196). -/

namespace Sys2Proof.Machine

def State.tslice (s : State) (n : Nat) : Slice := Tab.get {} s.tide.slices n
def State.setSlice (s : State) (n : Nat) (z : Slice) : State :=
  { s with tide := { s.tide with slices := Tab.set {} s.tide.slices n z } }
def State.job (s : State) (j : Nat) : TideJob := Tab.get {} s.tide.jobs j
def State.setJob (s : State) (j : Nat) (x : TideJob) : State :=
  { s with tide := { s.tide with jobs := Tab.set {} s.tide.jobs j x } }
def State.arena (s : State) (keyid n : Nat) : ArenaIv := Tab.get {} s.tide.arena (keyid * 8 + n)

/-- The counter registers of a slice. -/
def sliceBase (n : Nat) : Nat := tideBase + 0x100 + n * 0x80

/-! ### Walking the intervals (R178) -/

/-- The intervals of a slice that hold a slot, in the order walked. -/
def Slice.ivs (z : Slice) : List (Nat × Nat) :=
  ([(z.localFirst, z.localEnd), (z.poolFirst, z.poolEnd)] ++ z.more).filter (fun p => decide (p.1 < p.2))

/-- How many slots of the walk lie before a slot. -/
def posIn : List (Nat × Nat) → Nat → Nat
  | [], _ => 0
  | (a, b) :: t, x => if a ≤ x ∧ x < b then x - a else (b - a) + posIn t x

/-- The slot after one in the walk; the end of the last interval where there is none. -/
def nextIn : List (Nat × Nat) → Nat → Nat
  | [], x => x
  | [(a, b)], x => if a ≤ x ∧ x < b then x + 1 else b
  | (a, b) :: (c, d) :: t, x =>
    if a ≤ x ∧ x < b then (if x + 1 < b then x + 1 else c) else nextIn ((c, d) :: t) x

/-- Does the walk hold a slot? -/
def Slice.holds (z : Slice) (x : Nat) : Bool := z.ivs.any (fun p => decide (p.1 ≤ x ∧ x < p.2))

/-- Move a mark past the slots that are finished (R181). -/
def Slice.advanceOver (z : Slice) : Nat → Nat → Nat
  | 0, x => x
  | k + 1, x => if z.holds x ∧ z.fin.contains x then z.advanceOver k (nextIn z.ivs x) else x

/-- A slot has finished its turn: the tide line goes past every finished slot below the lowest unfinished
one. -/
def Slice.finish (z : Slice) (x : Nat) : Slice :=
  let z := { z with fin := x :: z.fin }
  let t := z.advanceOver 1024 z.tideLine
  { z with tideLine := t, fin := z.fin.filter (fun y => z.holds t && decide (posIn z.ivs t ≤ posIn z.ivs y)) }

/-- Turns that hold a lock on an engine. -/
def State.inFlight (s : State) (n : Nat) : Nat :=
  ((s.eng n).ops.filter (fun o => match o.org with | .turn _ _ => true | _ => false)).length

/-! ### Jobs (R179, R186, R187) -/

/-- World and mooring of a job, coded as UP_REQ_TEN. -/
def State.jobTen (s : State) (j : TideJob) : Nat :=
  if j.kind = 2 then j.moor else ((s.getBerth j.newBerth).ten).getD 0x100

/-- Record of a job's end (R525). -/
def jobRecord (j : Nat) (x : TideJob) (ten : Nat) : Bytes :=
  let c (v : Nat) := leBytes 6 (min (2 ^ 48 - 1) v)
  [6, 0, BitVec.ofNat 8 j, 0] ++ leBytes 2 x.keyid ++ leBytes 2 ten ++ c x.tDone ++ c x.tSkip ++ c x.tClear ++ c x.tFail

/-- Every engine of a job's mask has finished. -/
def TideJob.complete (x : TideJob) : Bool := decide (x.mask % 256 ≠ 0 → x.done &&& x.mask = x.mask) || x.mask = 0

/-- The end of a REKEY (R186, R187): sealed regions take generation 0, one event with the totals. -/
def rekeyEnd (j : Nat) (s : State) : State :=
  let x := s.job j
  let ten := s.jobTen x
  let s := (List.range 64).foldl (fun s f =>
    let z := s.frz f
    if z.state = 2 ∧ z.keyid = x.keyid then updFrz f (fun z => { z with gen := 0 }) s else s) s
  let r := jobRecord j x ten
  let s := raiseTo s.ev.ownerAsync r s
  let s := match tenMoor ten with
    | none => s
    | some t => raiseTo (s.getMoor t).win.async r s
  (trace 0x100 2 26 0x30 .ok 0 j 0 s).setJob j {}

/-- Prity binds a KeyID on an engine to the new berth (R186, R432); once every engine is bound to it, it
becomes the entry's berth and the old one is zeroised. -/
def rebind (n keyid newB oldB : Nat) (s : State) : State :=
  let k := s.getKmap keyid
  let k := { k with alt := newB, altMask := if bit1 n k.altMask then k.altMask else k.altMask + 2 ^ n }
  let all := s.engines.all (fun i => bit1 i k.altMask)
  let k := if all then { k with berth := newB, alt := 0, altMask := 0 } else k
  let s := s.setKmap keyid k
  let s := s.updEng n (fun e => { e with kc := e.kc.filter (fun c => c.keyid ≠ keyid) })
  if oldB ≠ newB ∧ !s.keys.kmap.any (fun p => p.2.valid && (p.2.berth = oldB || (p.2.altMask ≠ 0 && p.2.alt = oldB)))
  then zeroiseBerth oldB s else s

/-- An engine has finished a job. -/
def engineDone (n j : Nat) (s : State) : State :=
  let x := s.job j
  let s := if x.kind = 1 ∧ x.state ≠ 3 then rebind n x.keyid x.newBerth x.oldBerth s else s
  let x := { x with done := if bit1 n x.done then x.done else x.done + 2 ^ n }
  let s := s.setJob j x
  if !x.complete then s
  else if x.state = 3 then s.setJob j {}
  else if x.kind = 1 then rekeyEnd j s
  else s

/-- A slice goes idle. Its counters stay as they are until the next job. -/
def sliceIdle (n : Nat) (s : State) : State :=
  let z := s.tslice n
  let s := s.updEng n (fun e => { e with kc := e.kc.filter (fun k => !k.tide) })
  s.setSlice n { z with
    kind := 0, held := false, job := 0, keyid := 0, moor := 0, rate := 0, fin := [], more := [], credit := 0 }

/-- End a slice's job where every slot is finished, or where a cancelled job has no turn in progress
(R190). -/
def sliceCheck (n : Nat) (s : State) : State :=
  let z := s.tslice n
  if z.kind = 0 then s
  else if (s.job z.job).state = 3 then
    if s.inFlight n = 0 then engineDone n z.job (sliceIdle n s) else s
  else if z.holds z.tideLine then s
  else engineDone n z.job (sliceIdle n s)

/-- The interval of a departing tenant's KeyIDs on an engine, with its arenas (R177, R193). -/
def State.scrubIvs (s : State) (t n : Nat) : List (Nat × Nat) :=
  let a := (s.getMoor t).adm
  ([a.keyL, a.keyP].filter (· ≠ 0)).flatMap (fun k =>
    let v := s.arena k n
    [(v.localFirst, v.localEnd), (v.poolFirst, v.poolEnd)])

/-- The oldest job that an engine's free slice may take (R179). -/
def oldestJob (n : Nat) : Tab TideJob → Option (Nat × TideJob)
  | [] => none
  | (j, x) :: t =>
    let me := (x.state = 1 || x.state = 2) && bit1 n x.mask && !bit1 n x.began
    match oldestJob n t with
    | none => if me then some (j, x) else none
    | some b => if me ∧ x.order < b.2.order then some (j, x) else some b

/-- TIDE_JOB_START (R179): the slice takes its intervals from the arena that Prity recorded for the KeyID, or
keeps those that Prity wrote into its registers where none is recorded. -/
def tideJobStart (n : Nat) (s : State) : State :=
  let z := s.tslice n
  if !s.hasEng n ∨ s.closedDom n ∨ z.kind ≠ 0 ∨ s.mode ≠ .normal then s
  else match oldestJob n s.tide.jobs with
    | none => s
    | some (j, x) =>
      let s := s.setJob j { x with state := 2, began := x.began + 2 ^ n }
      let known := s.tide.arena.any (fun p => p.1 = x.keyid * 8 + n)
      let v := s.arena x.keyid n
      let z := if x.kind = 2 then
          { z with localFirst := 0, localEnd := 0, poolFirst := 0, poolEnd := 0, more := s.scrubIvs x.moor n
                   newBerth := s.tide.scrubBerth, oldBerth := 0 }
        else if known then
          { z with localFirst := v.localFirst, localEnd := v.localEnd, poolFirst := v.poolFirst
                   poolEnd := v.poolEnd, more := [], oldBerth := x.oldBerth, newBerth := x.newBerth }
        else { z with more := [], oldBerth := x.oldBerth, newBerth := x.newBerth }
      let first := (z.ivs.head?.map (·.1)).getD 0
      let z := { z with
        kind := x.kind, held := false, job := j, keyid := if x.kind = 1 then x.keyid else 0, moor := x.moor
        tideLine := first, next := first, fin := [], credit := 0, other := 0, press := false }
      let s := [0x38, 0x40, 0x48, 0x50].foldl (fun s o =>
        { s with cnt := Tab.set 0 s.cnt (sliceBase n + o) 0 }) (s.setSlice n z)
      let s := if x.kind = 1 then
          s.updEng n (fun e => { e with
          kc :=
            [⟨x.keyid, x.oldBerth, true⟩, ⟨x.keyid, x.newBerth, true⟩] ++ e.kc.filter (fun k => k.keyid ≠ x.keyid) })
        else s
      sliceCheck n s

/-! ### Pacing (R188) -/

/-- Any class of an engine that can hold a line stands at or above PRESS_PRIO. -/
def State.pressed (s : State) (n : Nat) : Bool :=
  (List.range 64).any (fun c =>
    (c = 63 || (Tab.get ({} : BwClass) s.bw.cls c).en) && decide (s.tide.pressPrio ≤ s.classPrio n c))

/-- TIDE_PACE_WINDOW (R188). -/
def tidePaceWindow (n : Nat) (s : State) : State :=
  let z := s.tslice n
  if z.kind = 0 then s
  else
    let p := s.pressed n || z.press || decide (s.tide.qlvlHi ≤ (s.eng n).qlvl)
    let spare := 100 - z.other * 100 / 2400000
    let rate := if p then s.tide.minPct else min s.tide.maxPct (max s.tide.basePct spare)
    s.setSlice n { z with rate := rate, credit := rate * 24000, other := 0, press := false }

/-- The bytes that a turn costs (R188). -/
def State.turnCost (s : State) (n slot : Nat) (scrub : Bool) : Nat :=
  let carve := if s.straps.tagSb then 0 else 16
  if scrub then 136 + carve
  else match (s.eng n).ctrVal slot with
    | some v => if v = 0 ∨ ctrPoisoned ≤ v then 16 else 272 + carve
    | none => 272 + carve

/-! ### Turns (R181, R193) -/

/-- The first slot from `x` on whose turn has not been taken. -/
def Slice.pick (z : Slice) : Nat → Nat → Nat
  | 0, x => x
  | k + 1, x => if z.holds x ∧ z.fin.contains x then z.pick k (nextIn z.ivs x) else x

/-- TIDE_TURN (R181): once the credit covers it, the slice takes the next slot's line lock and re-keys or
scrubs the line. A slot that no valid window maps to a line is finished with nothing written. -/
def tideTurn (n : Nat) (s : State) : State :=
  let z := s.tslice n
  let x := z.pick 512 z.next
  let scrub := decide (z.kind = 2)
  let cost := s.turnCost n x scrub
  if z.kind = 0 ∨ z.held ∨ s.closedDom n ∨ (s.job z.job).state = 3 ∨ !z.holds x ∨ 512 ≤ s.inFlight n ∨
      posIn z.ivs z.tideLine + 512 ≤ posIn z.ivs x ∨ z.credit < cost then s
  else
    let e := s.eng n
    let z := { z with next := nextIn z.ivs x, credit := z.credit - cost }
    match e.slotAddr x with
    | none => sliceCheck n (s.setSlice n (z.finish x))
    | some (pool, a) =>
      let s := s.setSlice n z
      let f := s.fresh
      let s := f.2
      let frz := if pool then none else (e.frzAt a).map (fun p => (⟨p.1, p.2.state, p.2.gen⟩ : FrzSnap))
      let ten := if scrub then z.moor else s.jobTen (s.job z.job)
      let old := (s.getBerth z.oldBerth).key
      let new := (s.getBerth z.newBerth).key
      advance n (acceptLine n { id := f.1, org := .turn x scrub, kind := if scrub then .scrub else .rekey
                                pool := pool, line := a / 128, dline := if pool then 0 else x, slot := x
                                keyid := z.keyid, ten := ten, ctx := 0, key := if scrub then new else old
                                key2 := new, frz := if scrub then none else frz
                                cls := s.classOf (a + (if pool then 2 ^ 50 else 0)), cyc := s.cyc } s)

/-- The end of a turn (R181, R182): its outcome is counted and the slot is finished. -/
def turnEnd (n slot outcome : Nat) (s : State) : State :=
  let z := s.tslice n
  let off := match outcome with | 0 => 0x38 | 1 => 0x40 | 2 => 0x48 | _ => 0x50
  let s := bump (sliceBase n + off) s
  let x := s.job z.job
  let x := match outcome with
    | 0 => { x with tDone := x.tDone + 1 }
    | 1 => { x with tSkip := x.tSkip + 1 }
    | 2 => { x with tClear := x.tClear + 1 }
    | _ => { x with tFail := x.tFail + 1 }
  let s := if z.kind = 0 then s else s.setJob z.job x
  sliceCheck n (s.setSlice n (z.finish slot))

/-! ### Interruptions (R190) -/

/-- A fence, or keeper mode: turns not yet writing are abandoned, and the slice is held at its tide line. -/
def tideHold (n : Nat) (s : State) : State :=
  let z := s.tslice n
  if z.kind = 0 then s
  else
    let gone := (s.eng n).ops.filter (fun o => (match o.org with | .turn _ _ => true | _ => false) &&
      (match o.phase with | .writing => false | .poison _ => false | _ => true))
    let s := gone.foldl (fun s o => removeLine n o.id s) s
    s.setSlice n { z with held := true, next := z.tideLine }

/-- The fence is released: the slice goes on from its tide line. -/
def tideResume (n : Nat) (s : State) : State :=
  let z := s.tslice n
  if z.kind = 0 then s else s.setSlice n { z with held := false, next := z.tideLine }

/-- TENANT_REMOVE cancels the jobs of a mooring (R190). -/
def cancelJobs (t : Nat) (s : State) : State :=
  s.tide.jobs.foldl (fun s p =>
    if p.2.kind = 1 ∧ p.2.moor = t ∧ (p.2.state = 1 ∨ p.2.state = 2) ∧ s.jobTen p.2 = t then
      let x := { p.2 with state := 3 }
      let left := (List.range 8).filter (fun n => bit1 n x.mask && !bit1 n x.began)
      let s := s.setJob p.1 x
      let s := left.foldl (fun s n => engineDone n p.1 s) s
      (List.range 8).foldl (fun s n => if (s.tslice n).job = p.1 then sliceCheck n s else s) s
    else s) s

/-- A free place among the 16 jobs. -/
def State.freeJob (s : State) : Option Nat := (List.range 16).find? (fun j => (s.job j).state = 0)

/-- Is a job for a KeyID queued or running on an engine of a mask? -/
def State.jobFor (s : State) (keyid mask : Nat) : Bool :=
  s.tide.jobs.any (fun p => p.2.kind = 1 && p.2.keyid = keyid && p.2.state ≠ 0 && p.2.mask &&& mask ≠ 0)

/-- Queue a job; one whose arena is empty on every engine of its mask completes at once (R180). -/
def queueJob (j : Nat) (x : TideJob) (s : State) : State :=
  let s := { s with tide := { s.tide with order := s.tide.order + 1 } }
  let s := s.setJob j { x with state := 1, start := s.now, order := s.tide.order }
  let s := trace 0x100 1 26 0x30 .ok 0 j 0 s
  let engs := s.engines.filter (fun n => bit1 n x.mask)
  let empty := x.kind = 1 && engs.all (fun n =>
    let z := s.tslice n
    let v := if s.tide.arena.any (fun p => p.1 = x.keyid * 8 + n) then s.arena x.keyid n
             else ⟨z.localFirst, z.localEnd, z.poolFirst, z.poolEnd⟩
    decide (v.localEnd ≤ v.localFirst ∧ v.poolEnd ≤ v.poolFirst))
  if !empty then s
  else if engs.isEmpty then rekeyEnd j s
  else engs.foldl (fun s n => engineDone n j s) s

/-- REKEY_START (R180), with the KeyID and the mask of its first operand: status and state. -/
def rekeyStart (oper0 : Nat) (s : State) : Status × State :=
  let keyid := bits 0 13 oper0
  let mask := bits 16 8 oper0
  let k := s.getKmap keyid
  let single := decide (popcount 8 mask = 1)
  let oldB := if k.altMask ≠ 0 ∧ mask = k.altMask then k.alt else k.berth
  let old := s.getBerth oldB
  let regions := (List.range 64).map s.frz
  let absent := (List.range 8).any (fun n => bit1 n mask && !s.hasEng n)
  let whole := s.engines.all (fun n => bit1 n mask)
  let active := match old.ten.bind tenMoor with
    | none => true
    | some t => decide ((s.getMoor t).state = .active)
  let st := firstFail .ok
    [(absent || !k.valid || decide (old.usage ≠ 0 ∨ old.state = .empty), .ePermission),
     (decide (old.state = .bad), .eBerthBad),
     (s.jobFor keyid mask, .eState),
     (regions.any (fun z => z.state = 1 && z.keyid = keyid), .eState),
     (regions.any (fun z => z.state = 2 && z.keyid = keyid) && !whole, .eState),
     (!s.normal || !active, .eState),
     (s.freeJob.isNone || s.freeBerth.isNone || decide (8192 ≤ s.memBerths) ||
      decide (k.altMask ≠ 0 ∧ !(single ∧ mask = k.altMask)), .eNoRes)]
  if st = .eState then (st, auditLog 2 .eState 0x10 1 0 0x30 oper0 s)
  else if st ≠ .ok then (st, s)
  else match drbg 32 s with
    | none => (.eNoRes, s)
    | some (key, s) =>
      let b := s.freeBerth.getD 0
      let w := fillBerth b key old.masters old.world old.tenant old.lcmask 0 s
      if w.1 ≠ .ok then (w.1, w.2)
      else
        let moor := (old.ten.bind tenMoor).getD 0
        (.ok, queueJob (s.freeJob.getD 0)
          { kind := 1, keyid := keyid, moor := moor, mask := mask, oldBerth := oldB, newBerth := b } w.2)

def execTidePaceWindow (n : Nat) (s : State) : Out := live (tidePaceWindow n) s

end Sys2Proof.Machine
end

