-- ==== Sys2Proof/Machine/IoOps.lean ====
section
/-! DEFINITION. Operations under way: their transfers of byte ranges through the engines (R25), their start
and their end; the allocator's arenas (R324 to R328); the mailbox's command cycle (R335 to R337). -/

namespace Sys2Proof.Machine

/-! ### Transfers of byte ranges -/

/-- The next piece of a transfer: its line's address, the offset in the line, its length. -/
def RangeIo.piece (r : RangeIo) : Nat × Nat × Nat :=
  let a := r.addr + r.pos
  (a - a % 128, a % 128, min (128 - a % 128) (r.len - r.pos))

/-- Hand the next piece of a transfer to the engine that owns its line: a whole line is a full-line write, a
part of one a partial write (R60). -/
def submitPiece (t : Task) (r : RangeIo) (ten ctx : Nat) (dump : Bool) (s : State) : State :=
  let p := r.piece
  if r.wr then
    let d := slice r.pos p.2.2 r.buf
    if p.2.2 = 128 then submitLine t .full p.1 ten ctx (some (d, allBe)) dump s
    else submitLine t .part p.1 ten ctx (some (patch p.2.1 d (zeros 128), fld p.2.1 p.2.2 (2 ^ p.2.2 - 1))) dump s
  else submitLine t .read p.1 ten ctx none dump s

/-- A piece has come back OK. -/
def RangeIo.took (r : RangeIo) (line : Bytes) : RangeIo :=
  let p := r.piece
  { r with
    pos := r.pos + p.2.2
    buf := if r.wr then r.buf else r.buf ++ slice p.2.1 p.2.2 line }

/-- Begin a transfer of an operation. -/
def ioStart (id : Nat) (r : RangeIo) (s : State) : State :=
  let op := s.getOp id
  submitPiece (.op id) r op.ten op.ctx false (s.setOp id { op with io := some r })

/-- Read `len` bytes at an address for an operation. -/
def ioRead (id addr len : Nat) (s : State) : State := ioStart id { wr := false, addr := addr, len := len } s

/-- Write bytes at an address for an operation. -/
def ioWrite (id addr : Nat) (d : Bytes) (s : State) : State :=
  ioStart id { wr := true, addr := addr, len := d.length, buf := d } s

/-! ### Start and end of an operation -/

/-- Start an operation: it takes its references and counts in its context (R282, R312). -/
def startOp (op : Op) (s : State) : Nat × State :=
  let f := s.fresh
  let s := addRefs op.refs f.2
  let s := if op.counted then ctxBegin op.ten op.ctx s else s
  (f.1, s.setOp f.1 op)

/-- An operation has ended; its owner hears of it when the state next settles. -/
def finishOp (id : Nat) (st : Status) (res handle : Nat) (s : State) : State :=
  s.updOp id (fun o => { o with st := st, res := res, handle := handle, fin := true, io := none })

/-- Release what an ended operation held: its completion bollard is signalled or broken (R301), its
references and its place in the context go. Its status after the signal. -/
def closeOp (id : Nat) (s : State) : Status × State :=
  let op := s.getOp id
  let r := if op.st = .eCtxLost then (op.st, s) else signalCompl op.compl op.st s
  let s := dropRefs op.refs r.2
  let s := if op.counted then ctxEnd op.ten op.ctx s else s
  (r.1, s.dropOp id)

/-! ### COPY (R305, R306) -/

/-- Go on with a copy: the next piece of the destination is read from the source. -/
def copyNext (id src dst len : Nat) (s : State) : State :=
  let done := (s.getOp id).res
  if len ≤ done then finishOp id .ok done 0 s
  else ioRead id (src + done) (min (128 - (dst + done) % 128) (len - done)) s

/-- A copy's transfer has ended OK: what was read is written, what was written is counted. -/
def copyStep (id quay src dst len : Nat) (writing : Bool) (r : RangeIo) (s : State) : State :=
  let op := s.getOp id
  if writing then
    copyNext id src dst len (s.setOp id { op with res := op.res + r.len, body := .copy quay src dst len false })
  else ioWrite id (dst + op.res) r.buf (s.setOp id { op with body := .copy quay src dst len true })

/-- Do two byte ranges overlap, by physical address without the KeyID (R305)? -/
def overlaps (a b len : Nat) : Bool :=
  let x := a % 2 ^ 51
  let y := b % 2 ^ 51
  decide (x < y + len ∧ y < x + len)

/-! ### The allocator (R324 to R327) -/

/-- Insert a free block in rising offset. -/
def buddyPut (k off : Nat) : Buddy → Buddy
  | [] => [(k, off)]
  | (j, o) :: t => if off < o then (k, off) :: (j, o) :: t else (j, o) :: buddyPut k off t

/-- The upper halves left free when a block of 2^j is split down to 2^k at its lower end. -/
def splitRest (off k : Nat) : Nat → Buddy
  | 0 => []
  | j + 1 => if k ≤ j then splitRest off k j ++ [(j, off + 2 ^ j)] else []

/-- The lowest free block that `p` accepts, and the rest. -/
def takeFirst (p : Nat → Bool) : Buddy → Option ((Nat × Nat) × Buddy)
  | [] => none
  | b :: t => if p b.1 then some (b, t) else (takeFirst p t).map (fun r => (r.1, b :: r.2))

/-- Take a block of 2^k bytes (R325): its offset and the free blocks left. -/
def buddyTake (k : Nat) (f : Buddy) : Option (Nat × Buddy) :=
  match takeFirst (fun j => decide (j = k)) f with
  | some (b, t) => some (b.2, t)
  | none =>
    match takeFirst (fun j => decide (k < j)) f with
    | none => none
    | some (b, t) => some (b.2, (splitRest b.2 k b.1).foldl (fun f x => buddyPut x.1 x.2 f) t)

/-- Return a block of 2^k bytes, joining free buddies up to 1 GiB (R327). The first argument bounds the
joins. -/
def buddyJoin : Nat → Nat → Nat → Buddy → Buddy
  | 0, k, off, f => buddyPut k off f
  | n + 1, k, off, f =>
    let b := (k, off ^^^ 2 ^ k)
    if k < 30 ∧ f.contains b then buddyJoin n (k + 1) (min off b.2) (f.erase b) else buddyPut k off f

/-- The block size of an ALLOC, as a power of two of at least 4 KiB (R325). -/
def blockLog2 (size : Nat) : Nat := ((List.range 19).map (· + 12)).find? (fun k => decide (size ≤ 2 ^ k)) |>.getD 31

/-- Base of an arena of a mooring as a physical address, KeyID and pool bit included. -/
def Admission.arenaBase (a : Admission) (pool : Bool) : Nat :=
  if pool then fld 51 13 a.keyP + 2 ^ 50 + a.pbase
  else fld 51 13 a.keyL + (a.lbase + a.lsize - a.scratch * 2 ^ 30)

/-- Free object entries are left for a world: below its mooring's quota, and in the table (R310). -/
def State.objRoom (s : State) (ten : Nat) : Bool :=
  s.freeObj.isSome && (match tenMoor ten with
    | none => true
    | some t => decide ((s.getMoor t).objs < (s.getMoor t).adm.quota))

/-- Take an object table entry; its index and the state. The entry keeps its generation (R313). -/
def newObj (ten : Nat) (o : Obj) (s : State) : Nat × State :=
  let i := s.freeObj.getD 0
  let s := s.setObj i { o with state := .live, ten := ten, gen := (s.getObj i).gen }
  (i, match tenMoor ten with
    | none => s
    | some t => s.updMoor t (fun m => { m with objs := m.objs + 1 }))

def State.handleOf (s : State) (i : Nat) : Nat := mkHandle i (s.getObj i).gen

/-- Take a block from a mooring's arena: its address. -/
def arenaTake (t k : Nat) (pool : Bool) (s : State) : Option (Nat × State) :=
  let m := s.getMoor t
  (buddyTake k (if pool then m.bPool else m.bLocal)).map (fun r =>
    (m.adm.arenaBase pool + r.1,
     s.setMoor t (if pool then { m with bPool := r.2 } else { m with bLocal := r.2 })))

/-- Return a block to a mooring's arena. -/
def arenaGive (t k addr : Nat) (s : State) : State :=
  let m := s.getMoor t
  let pool := bit1 50 addr
  let off := addr - m.adm.arenaBase pool
  s.setMoor t (if pool then { m with bPool := buddyJoin 31 k off m.bPool } else { m with bLocal := buddyJoin 31 k off m.bLocal })

/-- Change HELD of a context (R282). -/
def ctxHold (ten ctx : Nat) (f : Nat → Nat) (s : State) : State :=
  if s.ctxLimit ten ≤ ctx then s
  else
    let c := s.getCtx ten ctx
    s.setCtx ten ctx { c with held := min max64 (f c.held) }

/-- Make the extent object of a block (R325): its handle. -/
def makeExtent (ten ctx addr k : Nat) (s : State) : Nat × State :=
  let r := newObj ten { typ := .extent, addr := addr, size := 2 ^ k, ctx := ctx } s
  (r.2.handleOf r.1, ctxHold ten ctx (· + 2 ^ k) r.2)

/-- ALLOC without ZERO (R325): status, address, handle, state. -/
def allocNow (ten ctx size : Nat) (pool : Bool) (s : State) : Status × Nat × Nat × State :=
  match tenMoor ten with
  | none => (.eNoRes, 0, 0, s)
  | some t =>
    if !s.objRoom ten then (.eNoRes, 0, 0, s)
    else match arenaTake t (blockLog2 size) pool s with
      | none => (.eNoRes, 0, 0, s)
      | some (addr, s) =>
        let h := makeExtent ten ctx addr (blockLog2 size) s
        (.ok, addr, h.1, h.2)

/-- The work that an ALLOC with ZERO has to do when its last line is written (R326). -/
def allocZeroEnd (id addr k : Nat) (s : State) : State :=
  let op := s.getOp id
  if s.objRoom op.ten then
    let h := makeExtent op.ten op.ctx addr k s
    finishOp id .ok addr h.1 h.2
  else finishOp id .eNoRes 0 0 (arenaGive ((tenMoor op.ten).getD 0) k addr s)

/-- An entry whose references are gone leaves the table (R313); an extent's block goes back to its arena
(R327), unless the mooring's arenas are being returned as a whole (R623). -/
def retireObj (i : Nat) (s : State) : State :=
  let o := s.getObj i
  let s := match o.typ, tenMoor o.ten with
    | .extent, some t =>
      let s := ctxHold o.ten o.ctx (· - o.size) s
      if (s.getMoor t).state = .active then arenaGive t (blockLog2 o.size) (o.addr) s else s
    | _, _ => s
  reapObj i s

/-- A FREEING entry with no references left becomes FREE and ends the free that waits for it (R313). -/
def objZero (i : Nat) (s : State) : State :=
  let o := s.getObj i
  if o.state = .freeing ∧ o.refs = 0 then
    let s := retireObj i s
    match o.waiter with
    | none => s
    | some id => finishOp id .ok 0 0 s
  else s

/-- Begin an OBJ_FREE or FREE (R313, R322): with no reference it ends at once. -/
def objFreeStart (id obj : Nat) (s : State) : State :=
  let s := freeingObj obj (some id) s
  if (s.getObj obj).refs = 0 then objZero obj s else s

/-! ### The mailbox (R335 to R338) -/

/-- Master and world of the running command's requester, as the audit ring records them (R593). -/
def State.mbMaster (s : State) : Nat := if s.mbox.sess.isSome then 0x11 else 0x10

/-- Log a refused mailbox command (R337). -/
def mbRefuse (code : Nat) (st : Status) (s : State) : State :=
  auditLog 2 st s.mbMaster 1 0 code (Tab.get 0 s.mbox.oper 0) s

/-- End of the running mailbox command (R335): RESULT, RES0, END_NS, the record of KIND 0x02. -/
def mbEnd (st : Status) (res : Nat) (s : State) : State :=
  let m := s.mbox
  let s := { s with mbox := { m with busy := false, result := st.code, endNs := s.now, res := Tab.set 0 [] 0 res, sess := none } }
  let rec2 : Bytes := [2, BitVec.ofNat 8 st.code, BitVec.ofNat 8 m.code, 0] ++ leBytes 4 m.serial ++
    leBytes 8 s.now ++ leBytes 8 res ++ zeros 8
  beat 25 (putRecord { queue := m.eq, data := rec2 } s)

/-- What a mailbox command answers: an end with a status and RES0, or none while it goes on. -/
abbrev MbAns := Option (Status × Nat) × State

/-- The life-cycle states that a mailbox command allows (R338), as codes of R435. -/
abbrev LcSet := List Nat

/-- Run a mailbox command written to CMD (R335 to R337): `enc` is true where its operands break their
encoding, `modeOk` is its allowed state. A write while BUSY is 1 is ignored and counted. While the boot ROM
serves, and while a life-cycle transition is PENDING, every command but LC_TRANSITION and FW_UPDATE is refused
with E_STATE (R442, R447). -/
def mbRun (code : Nat) (enc : Bool) (lc : LcSet) (modeOk : Bool) (f : State → MbAns) (s : State) : State :=
  let m := s.mbox
  if s.auditFull then s
  else if m.busy then { s with mbox := { m with reject := min max64 (m.reject + 1) } }
  else
    let s := { s with mbox := { m with
      busy := true, code := code, serial := (m.serial + 1) % 2 ^ 32, startNs := s.now } }
    let s := raiseHm 2 s
    let rom := decide (code = 0x18 ∨ code = 0x60)
    let st := firstFail .ok [(enc, .eEncoding), (!lc.contains s.lcState, .eLc),
      (!modeOk || (!rom && (!s.fw.up || s.lc.pending)), .eState)]
    if st ≠ .ok then mbEnd st 0 (mbRefuse code st s)
    else
      let r := f s
      match r.1 with
      | some (st, res) => mbEnd st res r.2
      | none => r.2

/-- Operand word i. -/
def State.oper (s : State) (i : Nat) : Nat := Tab.get 0 s.mbox.oper i

/-- The bytes of the data window from an offset. -/
def State.mbData (s : State) (off n : Nat) : Bytes :=
  let first := off / 32
  let last := (off + n + 31) / 32
  slice (off - first * 32) n (((List.range (last - first)).map (fun i =>
    slice 0 32 (Tab.get [] s.mbox.data (first + i)))).flatten)

/-- Put bytes into the data window from its start, and their number into DATA_LEN. -/
def mbPut (d : Bytes) (s : State) : State :=
  let blocks := (List.range ((d.length + 31) / 32)).map (fun i => (i, slice (32 * i) 32 d))
  { s with mbox := { s.mbox with
    dataLen := d.length
    data := blocks.filter (fun p => p.2 ≠ zeros 32) } }

/-- Every life-cycle state but INVALID (R337), whose codes are 0 to 6 (R435). -/
def lcAny : LcSet := [0, 1, 2, 3, 4, 5, 6]

/-- The instance is NORMAL or in keeper mode. -/
def State.running (s : State) : Bool := decide (s.mode ≠ .starting)

end Sys2Proof.Machine
end

