-- ==== Sys2Proof/Machine/QueueOps.lean ====
section
/-! DEFINITION. Submission queues: doorbells, ring fetch, the decode checks of R298 and the start and end of
queue commands (R289 to R304, R330 to R333, R340 to R342). -/

namespace Sys2Proof.Machine

/-! ### The command format (R297) -/

/-- A queue command as fetched: its ring index and its fields. -/
structure QCmd where
  idx    : Nat
  opcode : Nat
  flags  : Nat
  zero   : Nat
  ctxRaw : Nat
  user   : Nat
  ops    : List Nat
  deriving DecidableEq, Repr

def qcmd (idx : Nat) (b : Bytes) : QCmd :=
  { idx := idx, opcode := leNat (slice 0 1 b), flags := leNat (slice 1 1 b), zero := leNat (slice 2 2 b)
    ctxRaw := leNat (slice 4 4 b), user := leNat (slice 8 8 b)
    ops := (List.range 6).map (fun i => leNat (slice (16 + 8 * i) 8 b)) }

def QCmd.ctx (c : QCmd) : Nat := c.ctxRaw % 2 ^ 20
def QCmd.op (c : QCmd) (i : Nat) : Nat := c.ops.getD i 0
def QCmd.fence (c : QCmd) : Bool := bit1 0 c.flags
def QCmd.quiet (c : QCmd) : Bool := bit1 1 c.flags

def h32 : Nat := 0xFFFFFFFF

/-- The operand bits that a command may set (R303, R475, R477). -/
def opMask : Nat → List Nat
  | 0x01 => [3, max64, 2 ^ 51 - 1, 0, 0, 0]
  | 0x02 => [h32, 0, 0, 0, 0, 0]
  | 0x03 => [h32, max64, h32, max64, h32, h32]
  | 0x04 => [h32, h32, 0x3F, max64, max64, h32]
  | 0x05 => [h32, max64, 1, 0, 0, 0]
  | 0x06 => [h32, max64, 0, 0, 0, 0]
  | 0x07 => [h32, 3, 0, 0, 0, 0]
  | 0x08 => [h32, 0, 0, 0, 0, 0]
  | 0x0A => [0x3F, 0, 0, 0, 0, 0]
  | 0x0B => [0x3F, 0, 0, 0, 0, 0]
  | 0x0D => [2 ^ 20 - 1, h32, max64, 0, 0, 0]
  | 0x0E => [2 ^ 20 - 1, 0, 0, 0, 0, 0]
  | _ => [0, 0, 0, 0, 0, 0]

/-- Bits of `v` outside a mask. -/
def strays (v mask : Nat) : Bool := decide (v &&& mask ≠ v)

/-! ### Decode (R298) -/

/-- What a command asks of the checks of R298. -/
structure QNeeds where
  /-- reset domains it needs (check 1) -/
  doms    : List Nat := []
  /-- operand bits it may set (check 2), and further encoding faults -/
  mask    : List Nat
  enc     : Bool := false
  /-- length operands and their limits (checks 5 and 6) -/
  lens    : List (Nat × Nat) := []
  /-- handles and the object types that fit (checks 7 to 9) -/
  handles : List (Nat × List ObjType) := []
  /-- the completion bollard's handle, or 0 -/
  compl   : Nat := 0
  /-- handle, offset, length (check 10) -/
  ranges  : List (Nat × Nat × Nat) := []
  /-- overlap of COPY (R305) -/
  overlap : Bool := false
  /-- its own state condition fails (check 11), with the status -/
  state   : List (Bool × Status) := []

/-- Every handle that the checks look at. -/
def QNeeds.all (n : QNeeds) : List (Nat × List ObjType) :=
  n.handles ++ (if n.compl = 0 then [] else [(n.compl, [.bollard])])

/-- An entry met by a double-bit error (R39): the object's, or its bollard's. -/
def State.objBad (s : State) (h : Nat) : Bool :=
  let o := s.getObj (handleIdx h)
  o.bad || (o.typ = .bollard && (s.getBoll o.boll).bad)

/-- Checks 7 to 9 over a list of handles, each check over all of them before the next. -/
def handleChecks (hs : List (Nat × List ObjType)) (ten : Nat) (s : State) : List (Bool × Status) :=
  let named := hs.filter (fun h => handleIdx h.1 ≠ 0)
  [(named.any (fun h => (s.getObj (handleIdx h.1)).bad), .eIntegrity),
   (named.any (fun h => !s.handleLive h.1), .eStale),
   (named.any (fun h => s.objBad h.1), .eIntegrity),
   (named.any (fun h => decide ((s.getObj (handleIdx h.1)).ten ≠ ten)), .ePermission),
   (hs.any (fun h => handleIdx h.1 = 0 || !h.2.contains (s.getObj (handleIdx h.1)).typ), .eEncoding)]

/-- The mooring of a queue's world lets it run commands (R300): ACTIVE; once it is being removed its commands
end with E_ABORTED (R512). -/
def State.worldRuns (s : State) (ten : Nat) : Bool :=
  match tenMoor ten with
  | none => true
  | some t => decide ((s.getMoor t).state = .active)

/-- The checks of R298, in order: a status, and true where a length of 0 ends the command at check 6. -/
def qDecode (ten : Nat) (c : QCmd) (n : QNeeds) (s : State) : Status × Bool :=
  let cx := (s.getCtx ten c.ctx).state
  let st := firstFail .ok
    [(!s.normal || n.doms.any s.closedDom, .eFenced),
     (decide (0x0E < c.opcode ∨ 4 ≤ c.flags ∨ c.zero ≠ 0 ∨ 2 ^ 20 ≤ c.ctxRaw ∨ s.ctxLimit ten ≤ c.ctx) ||
      (decide (tenMoor ten = none) && decide (9 ≤ c.opcode ∧ c.opcode ≤ 12)) ||
      (List.zipWith strays c.ops n.mask).any id || n.enc, .eEncoding),
     (decide (cx = .retiring) || !s.worldRuns ten, .eAborted),
     (decide (cx = .lost), .eCtxLost),
     (n.lens.any (fun p => decide (p.2 < p.1)), .eLength)]
  if st ≠ .ok then (st, false)
  else if n.lens.any (fun p => p.1 = 0) then (.ok, true)
  else (firstFail .ok (handleChecks n.all ten s ++
    [(n.ranges.any (fun r => decide ((s.getObj (handleIdx r.1)).size < r.2.1 + r.2.2)), .eBounds),
     (n.overlap, .eEncoding)] ++ n.state), false)

/-- The completion bollard of a command, where its handle names a LIVE bollard of its world: what an end before
check 7 signals or breaks. -/
def complOf (h ten : Nat) (s : State) : Nat :=
  if h = 0 ∨ firstFail .ok (handleChecks [(h, [.bollard])] ten s) ≠ .ok then 0 else h

/-! ### Which queue starts next (R294) -/

/-- Does an earlier BOLLARD_WAIT of a queue still wait? -/
def State.queueWaits (s : State) (q : Nat) : Bool :=
  s.ops.any (fun p => (match p.2.own with | .queue j _ _ _ => j = q | _ => false) &&
    (match p.2.body with | .wait _ _ => true | _ => false))

/-- Commands executing on the instance. -/
def State.running' (s : State) : Nat := (s.queue.map (fun p => p.2.running)).foldl (· + ·) 0

/-- Replay mode of the queue's mooring holds a command of another context (R578). -/
def State.replayHolds (s : State) (ten ctx : Nat) : Bool :=
  match tenMoor ten with
  | none => false
  | some t => (s.getMoor t).win.replay && decide ((s.getMoor t).win.replayCtx ≠ ctx)

/-- May the front command of a queue start? -/
def State.startable (s : State) (q : Nat) : Bool :=
  let x := s.getQueue q
  match x.fetched with
  | [] => false
  | e :: _ =>
    x.en && decide (x.running < 16 ∧ s.running' < 1024) && !s.queueWaits q &&
      (!(qcmd e.1 e.2).fence || x.running = 0) && !s.auditFull && !s.replayHolds x.ten (qcmd e.1 e.2).ctx

/-- Is it a queue's turn: no startable queue stands between the last one served and it (R294)? -/
def State.turn (s : State) (q : Nat) : Bool :=
  let dist := fun (j : Nat) => (j + 4096 - (s.rrQueue + 1)) % 4096
  s.startable q && s.queue.all (fun p => !s.startable p.1 || decide (dist q ≤ dist p.1))

/-- The front command of a queue whose turn it is. -/
def State.front (s : State) (q : Nat) : Option QCmd :=
  if s.turn q then (s.getQueue q).fetched.head?.map (fun e => qcmd e.1 e.2) else none

/-! ### Start and end of a command -/

/-- The engine that carries a command (R589). -/
def qUnit (quay : Nat) (c : QCmd) : Nat :=
  if c.opcode = 3 then 8 + quay else if c.opcode = 4 then 8 + c.op 2 % 16 else 26

/-- Start the front command of a queue (R294): it is decoded, and where it passes the checks `go` runs it.
`sel` tells whether the command is the one of the row. -/
def qStart (q : Nat) (sel : QCmd → Bool) (needs : SubQueue → QCmd → State → QNeeds)
    (body : SubQueue → QCmd → State → Body) (go : Nat → QCmd → State → State) (s : State) : State :=
  match s.front q with
  | none => s
  | some c =>
    if !sel c then s
    else
      let x := s.getQueue q
      let ten := x.ten
      let s := s.setQueue q { x with fetched := x.fetched.drop 1, running := x.running + 1 }
      let s := { s with rrQueue := q }
      let s := trace ten 1 (qUnit x.quay c) c.opcode .ok c.ctx c.user q s
      let n := needs x c s
      let d := qDecode ten c n s
      let op : Op := { own := .queue q c.idx c.user c.quiet, ten := ten, ctx := c.ctx, code := c.opcode, body := .plain }
      if d.1 ≠ .ok ∨ d.2 then
        let r := startOp { op with compl := complOf n.compl ten s, counted := false } s
        finishOp r.1 d.1 0 0 r.2
      else
        let refs := (n.all.map (fun h => handleIdx h.1)).filter (· ≠ 0)
        let refs := match body x c s with | .objFree _ => [] | _ => refs
        let counted := match body x c s with | .retire t _ => decide (t ≠ c.ctx) | _ => true
        let r := startOp { op with body := body x c s, refs := refs, compl := n.compl, counted := counted } s
        go r.1 c r.2

/-- The end of a queue command (R285, R296, R301). A strand's faults have marked its context where they came
(R354, R370), so the end of its PROGRAM_LAUNCH marks nothing further. -/
def queueEnd (id : Nat) (s : State) : State :=
  let op := s.getOp id
  match op.own with
  | .queue q idx user quiet =>
    let r := closeOp id s
    let st := r.1
    let s := r.2
    let launched : Bool := match op.body with | .launch _ _ => true | _ => false
    let s := if s.ctxLimit op.ten ≤ op.ctx ∨ (launched = true ∧ op.st = st) then s else markEnd op.code op.ten op.ctx st s
    let quay := match op.body with | .copy k _ _ _ _ => 8 + k | .launch k _ => 8 + k | _ => 26
    let s := s.updQueue q (fun x => { x with running := x.running - 1 })
    let s := trace op.ten 2 quay op.code st op.ctx user q s
    let keep := decide (st = .ok ∨ op.code = 3) || launched
    postCompl q op.ten op.ctx user idx op.code quiet st (if keep then op.res else 0) (if st = .ok then op.handle else 0) s
  | _ => s

/-- End an unstarted command with E_ABORTED at its place (R332, R512): its completion bollard breaks. -/
def squash (q : Nat) (c : QCmd) (s : State) : State :=
  let x := s.getQueue q
  let h := if c.opcode = 3 ∨ c.opcode = 4 ∨ c.opcode = 9 then complOf (c.op 5) x.ten s else 0
  let s := if h = 0 then s else breakBoll (handleIdx h) s
  let s := if s.ctxLimit x.ten ≤ c.ctx then s else markEnd c.opcode x.ten c.ctx .eAborted s
  postCompl q x.ten c.ctx c.user c.idx c.opcode false .eAborted 0 0 s

/-- Squash the fetched, unstarted commands of a queue that `p` picks; how many, and the state. -/
def squashQueue (q : Nat) (p : QCmd → Bool) (s : State) : Nat × State :=
  let x := s.getQueue q
  let cs := x.fetched.map (fun e => qcmd e.1 e.2)
  let hit := cs.filter p
  let s := s.setQueue q { x with fetched := x.fetched.filter (fun e => !p (qcmd e.1 e.2)) }
  (hit.length, hit.foldl (fun s c => squash q c s) s)

/-! ### Doorbell, fetch and configuration (R290 to R293) -/

def SubQueue.slots (x : SubQueue) : Nat := 2 ^ x.size

/-- Entries pending and not fetched. -/
def SubQueue.pending (x : SubQueue) : Nat := (x.tail + x.slots - x.head) % x.slots

/-- The queue that a master's register names, and the register's address: a global number for the owner, an
index in its range for a tenant (R340, R342). -/
def State.sqOf (s : State) (m : Master) (k off toff : Nat) : Option Nat × Nat :=
  match m with
  | .pf => (if k < 4096 ∧ (s.getQueue k).ten = 0x100 then some k else none, qctlBase k + off)
  | .vf n t =>
    match s.vfMoor n t with
    | none => (none, winBase 0 + toff)
    | some t =>
      let a := (s.getMoor t).adm
      (if k < a.qCount then some (a.qFirst + k) else none, winBase t + toff)
  | .prity => (none, qctlBase k + off)

/-- Count an ignored doorbell write for a tenant (R292). -/
def dbErr (ten : Nat) (s : State) : State :=
  match tenMoor ten with
  | none => s
  | some t => s.updWin t (fun w => { w with dbErr := min 0xFFFFFFFF (w.dbErr + 1) })

/-- A doorbell write (R292). A mooring that is being removed takes none (R512). -/
def doorbellWrite (q tail : Nat) (s : State) : State :=
  let x := s.getQueue q
  if x.slots ≤ tail ∨ !x.en ∨ !(s.worldRuns x.ten) then dbErr x.ten s
  else s.setQueue q { x with tail := tail }

/-- SQ_DOORBELL (R292). -/
def sqDoorbell (m : Master) (k tail : Nat) (s : State) : State :=
  let r := s.sqOf m k 0x10 (8 * k)
  regGuard r.2 r.1.isSome (doorbellWrite (r.1.getD 0) (tail % 0x10000)) s

/-- RING_FETCH (R293): the line that holds the next entry is read. -/
def ringFetch (q : Nat) (s : State) : State :=
  let x := s.getQueue q
  if !x.en ∨ x.bad ∨ x.pending = 0 ∨ !x.fetching.isEmpty then s
  else
    let n := if x.head % 2 = 0 ∧ 2 ≤ x.pending then 2 else 1
    let s := s.setQueue q { x with fetching := [(x.head, n)] }
    submitLine (.ring q) .read (x.base + x.head / 2 * 128) x.ten 0 none false s

/-- Stop a queue (R293): its one completion carries the status and the entry that failed. -/
def stopQueue (q : Nat) (st : Status) (s : State) : State :=
  let x := s.getQueue q
  let s := s.setQueue q { x with en := false, stopped := true, stopSt := st.code, fetching := [] }
  postCompl q x.ten 0 0 x.head 0 false st 0 0 s

/-- A ring line has come back (R293). -/
def ringBack (q : Nat) (st : Status) (data : Bytes) (s : State) : State :=
  let x := s.getQueue q
  match x.fetching with
  | [] => s
  | (i, n) :: _ =>
    if st ≠ .ok then stopQueue q st s
    else
      let es := (List.range n).map (fun j => ((i + j) % x.slots, slice (64 * ((i + j) % 2)) 64 data))
      s.setQueue q { x with fetching := [], fetched := x.fetched ++ es, head := (i + n) % x.slots }

/-- The checks of a write that enables a queue (R291). -/
def State.queueCheck (s : State) (x : SubQueue) : Status :=
  let k := s.getKmap (bits 51 13 x.base)
  let b := s.getBerth (k.pick (s.engines.headD 0))
  firstFail .ok
    [(decide (x.size < 4 ∨ 16 < x.size ∨ x.base % 128 ≠ 0) || bit1 50 x.base, .eEncoding),
     (!k.valid || decide (b.usage ≠ 0 ∨ b.ten ≠ some x.ten) || decide ((s.getEq x.eq).ten ≠ x.ten), .ePermission)]

/-- A write of a queue's BASE (R291). -/
def queueBaseWrite (addr q base : Nat) (s : State) : State :=
  let x := s.getQueue q
  if x.en then permFault addr s
  else if base = x.base then s
  else s.setQueue q { x with base := base, head := 0, tail := 0, fetched := [], fetching := [] }

/-- A write of the word that holds SIZE_LOG2, EQ, QUAY and EN (R291). -/
def queueCtrlWrite (addr q size eq quay : Nat) (en : Bool) (s : State) : State :=
  let x := s.getQueue q
  if x.en ∧ en ∧ size ≠ x.size then permFault addr s
  else
    let y := { x with size := size, eq := eq, quay := quay }
    let y := if size ≠ x.size then { y with head := 0, tail := 0, fetched := [], fetching := [] } else y
    if en ∧ !x.en then
      let st := s.queueCheck y
      s.setQueue q (if x.bad then { y with en := false, stopped := true, stopSt := Status.eIntegrity.code }
        else if st = .ok then { y with en := true, stopped := false, stopSt := 0, fetching := [] }
        else { y with en := false, stopped := true, stopSt := st.code })
    else s.setQueue q { y with en := en }

/-- QUEUE_ENABLE (R291): a write of the control word, as QCTL lays it out for the owner and as QCFG_CTRL does
for a tenant. -/
def queueEnable (m : Master) (k value : Nat) (s : State) : State :=
  let r := s.sqOf m k 8 0x1010
  let en := match m with | .vf _ _ => bit1 17 value | _ => bit1 26 value
  regGuard r.2 r.1.isSome
    (queueCtrlWrite r.2 (r.1.getD 0) (bits 0 5 value) (bits 5 8 value) (bits 13 4 value) en) s

/-! ### The commands' checks and effects (R302 to R308) -/

def anyMem : List ObjType := [.memory, .extent]

/-- The bits of OP2 that an OBJ_REGISTER may set depend on TYPE (R303). -/
def regNeeds (_x : SubQueue) (c : QCmd) (_s : State) : QNeeds :=
  if c.op 0 = 1 then { mask := [3, max64, 2 ^ 21 - 1, 0, 0, 0] }
  else { mask := opMask 1, enc := decide (1 < c.op 0 ∨ c.op 1 % 128 ≠ 0) }

/-- A range of physical addresses, KeyID left out, lies inside one arena of a world (R311); for the owner it
lies outside every mooring's arenas (DESIGN CHOICE 15). -/
def State.inArena (s : State) (ten a size : Nat) : Bool :=
  let lo := a % 2 ^ 51
  match tenMoor ten with
  | some t => (s.getMoor t).adm.covers lo (lo + size)
  | none => !s.moor.any (fun p => decide (p.2.state ≠ .free) &&
      ((decide (p.2.adm.lsize ≠ 0 ∧ lo < p.2.adm.lbase + p.2.adm.lsize ∧ p.2.adm.lbase < lo + size)) ||
       (decide (p.2.adm.pool ≠ 0 ∧ lo < 2 ^ 50 + p.2.adm.pbase + p.2.adm.pool * 2 ^ 30 ∧
         2 ^ 50 + p.2.adm.pbase < lo + size))))

/-- The KeyID of an address names a memory-key berth of a world (R311). -/
def State.keyOf (s : State) (ten addr : Nat) : Bool :=
  let k := s.getKmap (bits 51 13 addr)
  let b := s.getBerth (k.pick (s.engines.headD 0))
  k.valid && decide (b.usage = 0 ∧ b.ten = some ten)

/-- OBJ_REGISTER of a memory object (R311). -/
def registerMemory (id : Nat) (c : QCmd) (s : State) : State :=
  let op := s.getOp id
  let addr := c.op 1
  let size := c.op 2
  if size = 0 then finishOp id .ok 0 0 s
  else
    let st := firstFail .ok
      [(!s.keyOf op.ten addr, .ePermission), (!s.inArena op.ten addr size, .eBounds), (!s.objRoom op.ten, .eNoRes)]
    if st ≠ .ok then finishOp id st 0 0 s
    else
      let r := newObj op.ten { typ := .memory, addr := addr, size := size } s
      finishOp id .ok 0 (r.2.handleOf r.1) r.2

/-- OBJ_REGISTER of a bollard (R316). -/
def registerBollard (id : Nat) (c : QCmd) (s : State) : State :=
  let op := s.getOp id
  match s.freeBoll with
  | none => finishOp id .eNoRes 0 0 s
  | some b =>
    if !s.objRoom op.ten then finishOp id .eNoRes 0 0 s
    else
      let r := newObj op.ten { typ := .bollard, boll := b } s
      let none' := bit1 20 (c.op 2)
      let s := r.2.setBoll b { value := c.op 1, state := 1, ten := op.ten, noSig := none', obj := r.1
                               signaller := if none' then 0 else c.op 2 % 2 ^ 20 }
      finishOp id .ok 0 (s.handleOf r.1) s

/-- COPY's checks (R298, R299, R305). -/
def copyNeeds (x : SubQueue) (c : QCmd) (s : State) : QNeeds :=
  let a := s.getObj (handleIdx (c.op 0))
  let b := s.getObj (handleIdx (c.op 2))
  { doms := [8 + x.quay], mask := opMask 3, lens := [(c.op 4, 2 ^ 31)]
    handles := [(c.op 0, anyMem), (c.op 2, anyMem)], compl := c.op 5
    ranges := [(c.op 0, c.op 1, c.op 4), (c.op 2, c.op 3, c.op 4)]
    overlap := overlaps (a.addr + c.op 1) (b.addr + c.op 3) (c.op 4) }

def copyBody (x : SubQueue) (c : QCmd) (s : State) : Body :=
  .copy x.quay ((s.getObj (handleIdx (c.op 0))).addr + c.op 1) ((s.getObj (handleIdx (c.op 2))).addr + c.op 3)
    (c.op 4) false

def copyGo (id : Nat) (c : QCmd) (s : State) : State :=
  match (s.getOp id).body with
  | .copy _ src dst _ _ => copyNext id src dst (c.op 4) s
  | _ => s

/-- PROGRAM_LAUNCH's checks (R302, R303, R307). -/
def launchNeeds (_x : SubQueue) (c : QCmd) (s : State) : QNeeds :=
  let q := c.op 2 % 16
  let k := c.op 2 / 16 % 4
  { doms := [8 + q], mask := opMask 4, enc := decide (c.op 1 % 8 ≠ 0)
    handles := [(c.op 0, anyMem)], compl := c.op 5, ranges := [(c.op 0, c.op 1, 8)]
    state := [(decide ((s.getStrand q k).state ≠ .idle), .eBusy)] }

/-- Start a strand (R307): its trace records name the strand (R589, R590), and the quay's instruction-cache
lines of the program object are invalidated (R349), fetches under way included. -/
def launchGo (id : Nat) (c : QCmd) (s : State) : State :=
  let op := s.getOp id
  let q := c.op 2 % 16
  let k := c.op 2 / 16 % 4
  let obj := handleIdx (c.op 0)
  let s := s.updQuay q (fun x => { x with
    icache := x.icache.filter (fun l => l.obj ≠ obj), ifetch := x.ifetch.filter (fun f => f.obj ≠ obj) })
  let g : Tab (BitVec 64) := Tab.set 0 (Tab.set 0 [] 1 (BitVec.ofNat 64 (c.op 3))) 2 (BitVec.ofNat 64 (c.op 4))
  let s := trace op.ten 1 (8 + q) 4 .ok op.ctx c.user (k * 16 + q) s
  ctxBegin op.ten op.ctx (s.setStrand q k { state := .running, pc := c.op 1, g := g, launch := id
                                            prog := c.op 0, ten := op.ten, ctx := op.ctx })

/-- A signal's checks (R303). -/
def signalNeeds (_x : SubQueue) (c : QCmd) (_s : State) : QNeeds :=
  { mask := opMask 5, handles := [(c.op 0, [.bollard])] }

def signalGo (reset : Bool) (id : Nat) (c : QCmd) (s : State) : State :=
  let r := if reset then signalReset (handleIdx (c.op 0)) (c.op 1) s else signalAdd (handleIdx (c.op 0)) (c.op 1) s
  finishOp id r.1 r.2.1 0 r.2.2

def waitNeeds (_x : SubQueue) (c : QCmd) (_s : State) : QNeeds :=
  { mask := opMask 6, handles := [(c.op 0, [.bollard])] }

/-- Test a wait (R320): a status and the value, or none while it goes on. -/
def State.waitTest (s : State) (obj target : Nat) : Option (Status × Nat) :=
  let b := s.getBoll (s.getObj obj).boll
  if b.bad then some (.eIntegrity, 0)
  else if b.state = 2 then some (.eBroken, 0)
  else if target ≤ b.value then some (.ok, b.value)
  else none

/-- A wait that is satisfied or broken ends (R320). -/
def waitGo (id : Nat) (s : State) : State :=
  match (s.getOp id).body with
  | .wait obj target =>
    match s.waitTest obj target with
    | none => s
    | some r => finishOp id r.1 r.2 0 s
  | _ => s

def allocNeeds (_x : SubQueue) (c : QCmd) (_s : State) : QNeeds :=
  { mask := opMask 7, lens := [(c.op 0, 2 ^ 30)] }

/-- ALLOC (R325, R326). With ZERO the block is filled before the extent is made. -/
def allocRun (id size : Nat) (pool zero : Bool) (regD regH : Nat) (s : State) : State :=
  let op := s.getOp id
  let k := blockLog2 size
  if !zero then
    let r := allocNow op.ten op.ctx size pool s
    finishOp id r.1 r.2.1 r.2.2.1 r.2.2.2
  else match tenMoor op.ten with
    | none => finishOp id .eNoRes 0 0 s
    | some t =>
      if !s.objRoom op.ten then finishOp id .eNoRes 0 0 s
      else match arenaTake t k pool s with
        | none => finishOp id .eNoRes 0 0 s
        | some (addr, s) =>
          let s := s.setOp id { op with body := .allocZero addr (2 ^ k) pool regD regH }
          ioWrite id addr (zeros 128) s

def allocGo (id : Nat) (c : QCmd) (s : State) : State := allocRun id (c.op 0) (bit1 0 (c.op 1)) (bit1 1 (c.op 1)) 0 0 s

/-- A line of an ALLOC's zero fill has been written OK; the next one follows (R326). -/
def allocZeroStep (id addr size : Nat) (s : State) : State :=
  let op := s.getOp id
  let n := op.res + 128
  let s := s.setOp id { op with res := n, io := none }
  if n < size then ioWrite id (addr + n) (zeros 128) s else allocZeroEnd id addr (blockLog2 size) s

/-- A line of the fill failed: the block goes back (R326). -/
def allocZeroFail (id addr size : Nat) (st : Status) (s : State) : State :=
  let op := s.getOp id
  finishOp id st 0 0 (arenaGive ((tenMoor op.ten).getD 0) (blockLog2 size) addr s)

/-- OBJ_FREE and FREE: an extent for FREE, any other object for OBJ_FREE (R313). -/
def freeNeeds (ext : Bool) (_x : SubQueue) (c : QCmd) (_s : State) : QNeeds :=
  { mask := opMask 2, handles := [(c.op 0, if ext then [.extent] else [.memory, .bollard])] }

def freeBody (_x : SubQueue) (c : QCmd) (_s : State) : Body := .objFree (handleIdx (c.op 0))

def freeGo (id : Nat) (c : QCmd) (s : State) : State := objFreeStart id (handleIdx (c.op 0)) s

/-- The 32 bytes of a context table entry (R282). -/
def ctxBytes32 (c : CtxEnt) (now : Nat) : Bytes :=
  let c := c.settleBusy now
  let st := match c.state with | .clean => 0 | .lost => 1 | .retiring => 2
  [BitVec.ofNat 8 st, BitVec.ofNat 8 c.cause, 0, 0] ++ leBytes 4 c.active ++ leBytes 8 c.busyNs ++
    leBytes 8 c.bytes ++ leBytes 8 c.held

def queryNeeds (x : SubQueue) (c : QCmd) (s : State) : QNeeds :=
  { mask := opMask 0x0D, enc := decide (c.op 2 % 32 ≠ 0), handles := [(c.op 1, anyMem)]
    ranges := [(c.op 1, c.op 2, 32)], state := [(decide (s.ctxLimit x.ten ≤ c.op 0), .eState)] }

/-- QUERY_CONTEXT (R330). -/
def queryGo (id : Nat) (c : QCmd) (s : State) : State :=
  let op := s.getOp id
  ioWrite id ((s.getObj (handleIdx (c.op 1))).addr + c.op 2) (ctxBytes32 (s.getCtx op.ten (c.op 0)) s.now) s

def retireNeeds (x : SubQueue) (c : QCmd) (s : State) : QNeeds :=
  { mask := opMask 0x0E
    state := [(decide (s.ctxLimit x.ten ≤ c.op 0) ||
               decide ((s.getCtx x.ten (c.op 0)).state = .retiring), .eState)] }

/-- Steps 1 to 3 of CONTEXT_RETIRE (R332): the commands squashed, and the state. -/
def retireBegin (id ten target : Nat) (s : State) : Nat × State :=
  let s := s.setCtx ten target { s.getCtx ten target with state := .retiring }
  let qs := (s.queue.filter (fun p => p.2.ten = ten)).map (·.1)
  let r := qs.foldl (fun (a : Nat × State) q =>
    let b := squashQueue q (fun c => c.ctx = target) a.2
    (a.1 + b.1, b.2)) (0, s)
  let waits := (r.2.ops.filter (fun p => p.1 ≠ id && p.2.ten = ten && p.2.ctx = target &&
    (match p.2.own with | .queue _ _ _ _ => true | _ => false) &&
    (match p.2.body with | .wait _ _ => true | _ => false))).map (·.1)
  (r.1, waits.foldl (fun s i => finishOp i .eAborted 0 0 s) r.2)

/-- Step 8 of CONTEXT_RETIRE, once ACTIVE is 0 (R332, R284). -/
def retireEnd (id ten target squashed : Nat) (s : State) : State :=
  let hit := s.boll.filter (fun p => p.2.state = 1 && p.2.ten = ten && !p.2.noSig && p.2.signaller = target)
  let s := hit.foldl (fun s p => breakBoll p.2.obj s) s
  let c := s.getCtx ten target
  let s := s.setCtx ten target { c with state := .clean, cause := 0, busyNs := 0, bytes := 0 }
  finishOp id .ok squashed 0 s

/-- ALLOC_DB (R329): the request of a mooring ends; its outcome goes to ALLOC_RSP. -/
def allocDbEnd (id t : Nat) (s : State) : State :=
  let op := s.getOp id
  let r := closeOp id s
  let s := markEnd op.code op.ten op.ctx r.1 r.2
  s.updWin t (fun w => { w with
    allocPending := false
    allocSt := r.1.code
    allocHandle := if r.1 = .ok then op.handle else 0
    allocAddr := if r.1 = .ok then op.res else 0 })

/-- A write of ALLOC_DB (R329). -/
def allocDbWrite (t value : Nat) (s : State) : State :=
  let ctx := bits 7 20 value
  let op : Op := { own := .allocDb t, ten := t, ctx := ctx, code := if bit1 0 value then 8 else 7, body := .plain
                   counted := false }
  if (s.getMoor t).win.allocPending then dbErr t s
  else
    let s := s.updWin t (fun w => { w with allocPending := true })
    if bit1 0 value then
      let h := bits 32 32 value
      let st := firstFail .ok (handleChecks [(h, [.extent])] t s)
      let r := startOp { op with body := .objFree (handleIdx h) } s
      if st ≠ .ok then finishOp r.1 st 0 0 r.2 else objFreeStart r.1 (handleIdx h) r.2
    else
      let k := bits 2 5 value
      let r := startOp op s
      if k < 12 ∨ 30 < k then finishOp r.1 .eLength 0 0 r.2
      else
        let a := allocNow t ctx (2 ^ k) (bit1 1 value) r.2
        finishOp r.1 a.1 a.2.1 a.2.2.1 a.2.2.2

/-- A master's write of ALLOC_DB (R342). -/
def allocDb (m : Master) (value : Nat) (s : State) : State :=
  match s.tenantOf m with
  | none => regGuard (winBase 0 + 0x1100) false id s
  | some t => regGuard (winBase t + 0x1100) true (allocDbWrite t value) s

end Sys2Proof.Machine
end

