-- ==== Sys2Proof/Machine/QuayOps.lean ====
section
/-! DEFINITION. Sessions and frames: keys, headers and protection of frames, the end of a session's work,
coalescing, the start of frames and fault injection (R201 to R248, R398, R399, R402). -/

namespace Sys2Proof.Machine

/-! ### Space and state of sessions -/

/-- Beats of 256 bytes that payload bytes occupy (R216). -/
def beatsOf (n : Nat) : Nat := (n + 255) / 256

/-- Sessions homed on a quay: not CLOSED (R207). -/
def State.homed (s : State) (q : Nat) : Tab Session :=
  s.sess.filter (fun p => decide (p.2.state ≠ .closed ∧ p.2.quay = q))

/-- Replay beats in use on a quay (R216). -/
def State.replayUsed (s : State) (q : Nat) : Nat :=
  ((s.homed q).map (fun p => (p.2.replay.map (fun f => beatsOf f.data.length)).foldl (· + ·) 0)).foldl (· + ·) 0

/-- Reassembly beats in use on a quay (R219): frames held for their sessions, and REDUCE frames that wait for
their slot or are staged in it (R258, R269), and the staging of each SEAL_LOAD (R482). -/
def State.reasmUsed (s : State) (q : Nat) : Nat :=
  let held := ((s.homed q).map (fun p => (p.2.rx.map (fun f => beatsOf f.2.data.length)).foldl (· + ·) 0)).foldl (· + ·) 0
  let waits := (s.red.waits.filter (fun w => w.quay = q)).map (fun w => beatsOf w.data.length)
  let staged := (s.red.slots.map (fun p => (p.2.chunks.map (fun c => c.staged.filterMap (fun x =>
    match x.quay with | some (k, n) => if k = q then some n else none | none => none))).flatten)).flatten
  let seals := s.ops.filter (fun p => match p.2.body with | .sealLoad z => z.quay = q && z.stage ≠ 0 | _ => false)
  held + waits.foldl (· + ·) 0 + staged.foldl (· + ·) 0 + 513 * seals.length

/-- A session is open on a quay only while it is OPEN and homed there (R212). -/
def Session.openOn (x : Session) (q : Nat) : Bool := decide (x.state = .opened ∧ x.quay = q)

/-- The instance address of a fabric address (R203). -/
def instAddr (a : Nat) : Nat := a / 16 * 16

/-- The epochs this instance accepts (R230). -/
def State.epochOk (s : State) (e : Nat) : Bool :=
  e = s.fed.epoch % 256 || e = (s.fed.epoch + 255) % 256 ||
    (s.fed.prepared.isSome && e = (s.fed.epoch + 1) % 256)

/-- The checks of R215 for a send on a quay. -/
def State.sendCheck (s : State) (q i : Nat) : Status :=
  let x := s.getSess i
  firstFail .ok
    [(decide (x.state = .revoking), .eKeyRevoked), (!x.openOn q, .ePermission), (decide (2 ^ 63 ≤ x.seq), .eSeq)]

/-! ### Keys (R206, R207, R210) -/

/-- World and tenant attributes of a 9-bit coding. -/
def worldAttr (ten : Nat) : Nat × Nat :=
  match tenMoor ten with
  | none => (1, 0)
  | some t => (2, t)

/-- A session berth: usage link, for the home quay and the KDF (R207). -/
def sessBerth (q ten lcmask : Nat) (key : Bytes) : Berth :=
  { key := key, masters := fld (mQuay q) 1 1 + fld mKdf 1 1, world := (worldAttr ten).1, tenant := (worldAttr ten).2,
    lcmask := lcmask, usage := 1, state := .valid }

/-- The 288-bit output for a direction and generation under a master secret (R210). -/
def genOut (master : Bytes) (d r : Nat) : Bytes := kmac master (beBytes 1 d ++ beBytes 8 r) 36 (kdfLabel 6)

/-- The KDF hardware derives a generation into a reserved berth; nothing where the master's berth does not
load. -/
def deriveGen (i d r berth : Nat) (s : State) : Option GenKey × State :=
  let x := s.getSess i
  match x.master with
  | none => (none, s)
  | some m =>
    let l := berthLoad m mKdf 1 (·.fits x.ten) s
    if l.1 ≠ .ok then (none, l.2.2)
    else
      let o := genOut l.2.1 d r
      let s := l.2.2
      (some { gen := r, berth := berth, salt := beNat (o.drop 32) },
       s.setBerth berth (tagged s berth (sessBerth x.quay x.ten (s.getBerth m).lcmask (o.take 32))))

/-- Every berth of a session. -/
def Session.berths (x : Session) : List Nat :=
  x.master.toList ++ x.txKeys.map (·.berth) ++ x.rxKeys.map (·.berth) ++ x.spare

/-- Load a generation's key on the home quay (R427). -/
def genKey (x : Session) (k : GenKey) (s : State) : Status × Bytes × State :=
  berthLoad k.berth (mQuay x.quay) 1 (·.fits x.ten) s

/-- Move to the next transmit generation, where R228 permits it and its key is there (R229). -/
def txMove (i : Nat) (s : State) : Bool × State :=
  let x := s.getSess i
  match x.txKeys with
  | cur :: nxt :: _ =>
    if x.peerRxGen < x.txGen ∨ x.state ≠ .opened then (false, s)
    else
      let r := deriveGen i x.dir (x.txGen + 2) cur.berth s
      let keys := match r.1 with | some k => [nxt, k] | none => [nxt]
      let s := r.2.setSess i { x with txGen := x.txGen + 1, txKeys := keys, genFrames := 0, rot := false, at62 := false }
      (true, bump (quayBase x.quay + 0x120) s)
  | _ => (false, s)

/-- A move is called for: enough frames under the generation, SEQ 2^62, or SESSION_ROTATE (R229). -/
def State.moveDue (s : State) (i : Nat) : Bool :=
  let x := s.getSess i
  let top := if s.fed.mode.isEmpty then 40 else bits 0 6 (leNat (slice 8 8 s.fed.mode))
  x.rot || x.at62 || decide (2 ^ min top (s.getQuay x.quay).rotLog2 ≤ x.genFrames)

/-- The receive side moves R forward by one (R227): the key of the old R − 2 is destroyed and the derivation
of the new R + 1 begins in its berth. -/
def rxMove (i : Nat) (s : State) : State :=
  let x := s.getSess i
  let old := x.rxKeys.filter (fun k => decide (k.gen + 2 = x.rxGen))
  let keep := x.rxKeys.filter (fun k => decide (k.gen + 2 ≠ x.rxGen))
  let free := old.map (·.berth) ++ x.spare
  match free with
  | [] => s
  | b :: rest =>
    let s := s.setBerth b (tagged s b { s.getBerth b with key := zeros 32 })
    s.setSess i { x with
      rxGen := x.rxGen + 1
      rxKeys := keep ++ [{ gen := x.rxGen + 2, berth := b, salt := 0, ready := false }]
      spare := rest
      ackHold := true }

/-- The derivation of the newest receive generation ends (R227). -/
def rxDerived (i : Nat) (s : State) : State :=
  let x := s.getSess i
  match x.rxKeys.find? (fun k => !k.ready) with
  | none => s
  | some k =>
    let r := deriveGen i (1 - x.dir) k.gen k.berth s
    let keys := x.rxKeys.filter (·.ready)
    match r.1 with
    | some n => r.2.setSess i { x with rxKeys := keys ++ [n], ackHold := !(keys.length + 1 = x.rxKeys.length) }
    | none => r.2.setSess i { x with rxKeys := keys, spare := x.spare ++ [k.berth], ackHold := false }

/-! ### Frames (R201 to R206) -/

/-- The 32-byte header (R202). -/
structure FrameHdr where
  version : Nat := 1
  typ   : Nat
  flags : Nat
  sess  : Nat
  kgen  : Nat
  epoch : Nat
  plen  : Nat
  seq   : Nat
  dest  : Nat
  src   : Nat
  ack   : Nat
  deriving DecidableEq, Repr

def FrameHdr.bytes (h : FrameHdr) : Bytes :=
  beBytes 1 (h.version * 16 + h.typ) ++ beBytes 1 h.flags ++ beBytes 2 h.sess ++ beBytes 1 h.kgen ++ beBytes 1 h.epoch ++
  beBytes 2 h.plen ++ beBytes 8 h.seq ++ beBytes 3 h.dest ++ [0] ++ beBytes 3 h.src ++ [0] ++ beBytes 8 h.ack

/-- The header that a frame's first 32 bytes hold, and whether its zero fields are zero. -/
def frameHdr (b : Bytes) : FrameHdr × Bool :=
  let f := fun (o n : Nat) => beNat (slice o n b)
  ({ version := f 0 1 / 16, typ := f 0 1 % 16, flags := f 1 1, sess := f 2 2 % 4096, kgen := f 4 1 % 4, epoch := f 5 1,
     plen := f 6 2, seq := f 8 8, dest := f 16 3, src := f 20 3, ack := f 24 8 },
   decide (f 2 2 < 4096 ∧ f 4 1 < 4 ∧ f 19 1 = 0 ∧ f 23 1 = 0 ∧ f 1 1 < 4 ∧ (f 1 1 < 2 ∨ f 0 1 % 16 = 5)))

def frameIv (salt seq : Nat) : Bytes := beBytes 4 salt ++ beBytes 8 seq

/-- Protect a payload under the transmit generation of a session (R206): header and whole frame. -/
def sealFrame (i typ flags seq : Nat) (data : Bytes) (long : Bool) (s : State) : Status × Bytes × Bytes × State :=
  let x := s.getSess i
  match x.txKeys with
  | [] => (.ePermission, [], [], s)
  | k :: _ =>
    let l := genKey x k s
    if l.1 ≠ .ok then (l.1, [], [], l.2.2)
    else
      let s := l.2.2
      let h : FrameHdr :=
        { typ := typ, flags := flags + b2n (!x.ackHold), sess := x.peerSess, kgen := x.txGen % 4
          epoch := s.fed.epoch % 256, plen := if long then 0xFFFF else data.length, seq := seq, dest := x.dest
          src := (s.getQuay x.quay).addr, ack := if x.ackHold then 0 else x.rel }
      let c := gcmSeal l.2.1 (frameIv k.salt seq) h.bytes data
      (.ok, h.bytes, h.bytes ++ c.1 ++ c.2, s)

/-! ### Fault injection (R241) -/

/-- One step of the generator: the bit it gives and the register after it. -/
def injStep (r : Nat) : Nat × Nat :=
  (r % 2, if r % 2 = 1 then r / 2 ^^^ 0x80200003 else r / 2)

/-- A value of n bits. -/
def injDraw : Nat → Nat → Nat → Nat × Nat
  | 0, v, r => (v, r)
  | n + 1, v, r => injDraw n (2 * v + (injStep r).1) (injStep r).2

/-- Invert ciphertext bit j of a frame. -/
def flipBit (j : Nat) (frame : Bytes) : Bytes :=
  modifyAt frame (32 + j / 8) (fun b => b ^^^ BitVec.ofNat 8 (2 ^ (7 - j % 8)))

/-- Put a frame on the frame port, then the held ones whose turn has come. -/
def putFrame (q : Nat) (f : Bytes) (s : State) : State :=
  let s := emit (.frTx q f) s
  let h := (s.getQuay q).heldTx.map (fun p => (p.1 - 1, p.2))
  let s := s.updQuay q (fun x => { x with heldTx := h.filter (fun p => decide (p.1 ≠ 0)) })
  (h.filter (fun p => decide (p.1 = 0))).foldl (fun s p => emit (.frTx q p.2) s) s

/-- A frame starts on a quay: injection acts on it, then the port takes it (R241). -/
def sendFrame (q typ payload : Nat) (f : Bytes) (s : State) : State :=
  let x := s.getQuay q
  let n := x.inj
  let s := beat (8 + q) s
  if !bit1 typ n.types then putFrame q f s
  else
    let d := injDraw 16 0 x.lfsr
    let c := injDraw 16 0 d.2
    let r := injDraw 16 0 c.2
    let drop := n.dropEn && decide (d.1 < n.drop)
    let corr := n.corrEn && decide (c.1 < n.corr)
    let reord := n.reordEn && decide (r.1 < n.reord)
    if drop then bump (quayBase q + 0x188) (s.updQuay q (fun x => { x with lfsr := r.2 }))
    else
      let k := if corr then injDraw 16 0 r.2 else (0, r.2)
      let s := s.updQuay q (fun x => { x with lfsr := k.2 })
      let f := if corr then flipBit (k.1 * 8 * payload / 2 ^ 16) f else f
      let s := bumpIf corr (quayBase q + 0x190) s
      if reord then
        bump (quayBase q + 0x198) (s.updQuay q (fun x => { x with heldTx := x.heldTx ++ [(n.depth, f)] }))
      else putFrame q f s

/-! ### The end of a session's work (R213, R232, R402) -/

/-- Note the first status other than OK of an operation. -/
def noteSt (id : Nat) (st : Status) (s : State) : State :=
  s.updOp id (fun o => if o.st = .ok then { o with st := st } else o)

/-- The session that an operation of this instance as initiator uses. -/
def Body.session : Body → Option Nat
  | .put _ i _ _ _ _ => some i
  | .get i _ _ => some i
  | .send i _ _ _ => some i
  | .recv i _ _ _ _ => some i
  | .atom i _ _ _ => some i
  | .rsig i => some i
  | .poolReq _ i _ _ => some i
  | _ => none

/-- A counted request packet: ATOM or SIGNAL (R386, R398). -/
def isCounted (d : Bytes) : Bool := let k := leNat (slice 0 1 d); k = 3 || k = 4

/-- End an operation whose session has gone, with a status; a GET whose local writes are under way ends after
them. -/
def cutOp (id : Nat) (st : Status) (s : State) : State :=
  let op := s.getOp id
  let st := if op.st = .ok then st else op.st
  match op.body with
  | .get i _ w =>
    if op.io.isNone ∧ w.isEmpty then finishOp id st 0 0 s
    else s.setOp id { op with st := st, body := .get i [] w }
  | _ => finishOp id st 0 0 s

/-- A tile's packet is refused: its context is LOST, and FL_ERR_CNT counts it (R78). -/
def flitRefuse (q ten ctx : Nat) (st : Status) (count : Bool) (s : State) : State :=
  bumpIf count (quayBase q + 0x128) (markLost ten ctx st s)

/-- What leaves the queues when a session leaves OPEN: a tile's waiting packets are refused with `refuse`; a
coalescing buffer goes with its packets, the uncounted ones of tiles marking their contexts LOST with `st`. -/
def purgeQueues (q i : Nat) (refuse st : Status) (s : State) : State :=
  let x := s.getQuay q
  let mine := fun (it : TxItem) => it.sess = i
  let s := (x.flit.filter mine).foldl (fun s it => flitRefuse q it.ten it.ctx refuse true s) s
  let lost := ((x.gw.filter (fun b => b.sess = i)).map (·.items)).flatten.filter
    (fun it => decide (it.org = .flit) && !isCounted it.data)
  let s := lost.foldl (fun s it => flitRefuse q it.ten it.ctx st false s) s
  s.updQuay q (fun x => { x with
    flit := x.flit.filter (fun it => !mine it)
    fedTx := x.fedTx.filter (fun it => !mine it)
    strandTx := x.strandTx.filter (fun it => !mine it)
    memTx := x.memTx.filter (fun it => !mine it)
    gw := x.gw.filter (fun b => b.sess ≠ i)
    memIn := x.memIn.filter (fun m => m.sess ≠ i)
    ctl := x.ctl.filter (fun c => match c with | .ack j => j ≠ i | .probe j _ => j ≠ i)
    retx := x.retx.filter (fun p => p.1 ≠ i) })

/-- Is an operation's counted packet in the pending table of a quay? -/
def Quay.pends (x : Quay) (id : Nat) : Bool := x.pend.any (fun p => decide (p.org = .op id))

/-- End the initiator's operations on a session (R402, R379): `all` ends the pending counted ones too. A SEND
with frames not started fails the check of R215; a RECV ends only with `all`. -/
def endSessOps (q i : Nat) (st : Status) (all : Bool) (s : State) : State :=
  let ids := (s.ops.filter (fun p => decide (p.2.body.session = some i) && !p.2.fin)).map (·.1)
  let s := ids.foldl (fun s id =>
    match (s.getOp id).body with
    | .recv _ _ _ _ _ => if all then cutOp id st s else s
    | .send _ _ _ _ => cutOp id (if all then st else .ePermission) s
    | .atom _ _ _ _ => if all || !(s.getQuay q).pends id then cutOp id st s else s
    | .rsig _ => if all || !(s.getQuay q).pends id then cutOp id st s else s
    | _ => cutOp id st s) s
  if all then
    let tiles := (s.getQuay q).pend.filter (fun p => decide (p.sess = i) && (match p.org with | .flit => true | _ => false))
    let s := tiles.foldl (fun s p => markLost p.ten p.ctx st s) s
    s.updQuay q (fun x => { x with pend := x.pend.filter (fun p => p.sess ≠ i) })
  else s

/-- The contexts with a frame among a session's replay entries are marked LOST (R213). -/
def loseReplay (i : Nat) (st : Status) (s : State) : State :=
  ((s.getSess i).replay.map (·.ctxs)).flatten.foldl (fun s c => markLost c.1 c.2 st s) s

/-- An OPEN or MIGRATING session becomes BROKEN with a cause (R213, R402). -/
def breakSess (i : Nat) (cause : Status) (s : State) : State :=
  let x := s.getSess i
  if x.state ≠ .opened ∧ x.state ≠ .migrating then s
  else
    let s := loseReplay i cause s
    let s := s.setSess i { x with state := .broken, cause := cause.code, replay := [], rx := [], probe := none, unacked := 0 }
    let s := bump (quayBase x.quay + 0x180) s
    let s := raiseBoth cause (8 + x.quay) 5 x.ten 0 i 0 s
    endSessOps x.quay i cause false (purgeQueues x.quay i .ePermission cause s)

/-- A session becomes REVOKING (R232, R379). -/
def revokeSess (i : Nat) (s : State) : State :=
  let x := s.getSess i
  if x.state ≠ .opened ∧ x.state ≠ .broken ∧ x.state ≠ .migrating then s
  else
    let s := s.setSess i { x with state := .revoking, replay := [], rx := [], probe := none, unacked := 0, recv := none }
    endSessOps x.quay i .eAborted true (purgeQueues x.quay i .eKeyRevoked .eAborted s)

/-- A REVOKING session whose last berth has left REVOKING becomes CLOSED (R212); its berths no longer belong
to the index. -/
def revokedEnd (i : Nat) (s : State) : State :=
  let x := s.getSess i
  if x.state = .revoking ∧ x.berths.all (fun b => decide ((s.getBerth b).state ≠ .revoking ∧ (s.getBerth b).state ≠ .valid)) then
    s.setSess i { x with state := .closed, master := none, spare := [], txKeys := [], rxKeys := [] }
  else s

/-- Close an OPEN or BROKEN session (R212): a posted RECV ends with it. -/
def closeSess (i : Nat) (s : State) : State :=
  let x := s.getSess i
  let s := loseReplay i .eAborted s
  let s := s.setSess i { x with state := .closed, replay := [], rx := [], probe := none, unacked := 0, recv := none
                                master := none, spare := [], txKeys := [], rxKeys := [] }
  let s := if x.state = .opened then endSessOps x.quay i .eAborted false (purgeQueues x.quay i .ePermission .eAborted s) else s
  let s := match x.recv with | some id => cutOp id .eAborted s | none => s
  x.berths.foldl (fun s b => zeroiseBerth b s) s

/-! ### Counted operations (R398, R399) -/

/-- Give a counted packet its ANUM as it enters a frame or a buffer, and hold it as pending: the packet as
sent. Other packets pass. `none` where the ANUM would be 2^63. -/
def enterPacket (q : Nat) (it : TxItem) (s : State) : Option (TxItem × State) :=
  if !(it.typ = 2 && isCounted it.data && leNat (slice 24 8 it.data) = 0) then some (it, s)
  else
    let x := s.getSess it.sess
    if 2 ^ 63 ≤ x.anum then none
    else
      let d := patch 24 (leBytes 8 x.anum) it.data
      let s := s.setSess it.sess { x with anum := x.anum + 1 }
      let s := s.updQuay q (fun y => { y with
        pend := y.pend ++ [{ anum := x.anum, sess := it.sess, data := d, org := it.org, ten := it.ten, ctx := it.ctx }] })
      some ({ it with data := d }, bumpTen it.ten 0x3058 1 s)

/-- A counted packet waits for an entry of the pending table. -/
def Quay.pendRoom (x : Quay) (it : TxItem) : Bool :=
  !(it.typ = 2 && isCounted it.data && leNat (slice 24 8 it.data) = 0) || decide (x.pend.length < 256)

/-- A counted operation that would take ANUM 2^63 ends with E_SEQ, and its session breaks (R398). -/
def anumEnd (q : Nat) (it : TxItem) (s : State) : State :=
  let s := match it.org with
    | .op id => finishOp id .eSeq 0 0 s
    | .flit => flitRefuse q it.ten it.ctx .eSeq true s
    | _ => s
  breakSess it.sess .eSeq s

/-! ### Coalescing (R236 to R239) -/

/-- A record of a BULK payload (R239). -/
def bulkRecord (d : Bytes) : Bytes := leBytes 4 d.length ++ d ++ zeros ((4 - d.length % 4) % 4)

/-- A packet of a GW session on a gateway quay is coalesced, where it fits a buffer (R236, R237). -/
def State.coalesces (s : State) (q : Nat) (it : TxItem) : Bool :=
  it.typ = 2 && (s.getSess it.sess).gw && (s.getQuay q).gwEn && decide (it.data.length ≤ 2044) &&
    (s.getSess it.sess).openOn q

/-- Mark a buffer for its flush and count why. -/
def flushBuf (q : Nat) (p : GwBuf → Bool) (cnt : Nat) (s : State) : State :=
  let x := s.getQuay q
  if x.gw.any (fun b => !b.flush && p b) then
    bump (quayBase q + cnt)
      (s.setQuay q { x with gw := x.gw.map (fun b => if p b then { b with flush := true } else b) })
  else s

/-- Append a packet to its session's open buffer (R237): none while it has to wait. -/
def gwAppend (q : Nat) (it : TxItem) (s : State) : Option State :=
  let x := s.getQuay q
  let r := bulkRecord it.data
  let mine := fun (b : GwBuf) => b.sess = it.sess && !b.flush
  if !x.pendRoom it then none
  else match x.gw.find? mine with
    | some b =>
      if 2048 < b.data.length + r.length then some (flushBuf q mine 0x1A8 s)
      else
        match enterPacket q it s with
        | none => some (anumEnd q it s)
        | some (it, s) =>
          let s := s.updQuay q (fun x => { x with
            gw := x.gw.map (fun b => if mine b then { b with data := b.data ++ bulkRecord it.data, items := b.items ++ [it] } else b) })
          some (bump (quayBase q + 0x1A0) s)
    | none =>
      if 16 ≤ x.gw.length then
        match x.gw.find? (fun b => !b.flush) with
        | some b => some (flushBuf q (fun c => decide (c = b)) 0x1B8 s)
        | none => none
      else
        match enterPacket q it s with
        | none => some (anumEnd q it s)
        | some (it, s) =>
          let s := s.updQuay q (fun x => { x with gw := x.gw ++ [{ sess := it.sess, data := bulkRecord it.data, items := [it] }] })
          some (bump (quayBase q + 0x1A0) s)

/-- Take the head of one of a quay's sources away. -/
def Quay.popSrc (src : Nat) (x : Quay) : Quay :=
  if src = 0 then { x with flit := x.flit.drop 1 } else if src = 1 then { x with strandTx := x.strandTx.drop 1 }
  else { x with memTx := x.memTx.drop 1 }

/-- The head of a source of packets: 0 the flit port, 1 the strands, 4 the memory path. -/
def Quay.headSrc (src : Nat) (x : Quay) : Option TxItem :=
  if src = 0 then x.flit.head? else if src = 1 then x.strandTx.head? else x.memTx.head?

/-- One packet at the head of a source enters its buffer, if it can: the state changed, or none. -/
def gwStep (q src : Nat) (s : State) : Option State :=
  match (s.getQuay q).headSrc src with
  | none => none
  | some it =>
    if !s.coalesces q it then none
    else
      let n := (s.getQuay q).gw.map (fun b => (b.sess, b.data.length))
      match gwAppend q it s with
      | none => none
      | some s' =>
        -- the packet has entered where a buffer grew or opened; otherwise only a flush was marked
        let n' := (s'.getQuay q).gw.map (fun b => (b.sess, b.data.length))
        if n' = n then some s' else some (s'.updQuay q (Quay.popSrc src))

/-- Coalesce what stands at the heads of a quay's sources; the first argument bounds the packets. -/
def gwFill (q : Nat) : Nat → State → State
  | 0, s => s
  | n + 1, s =>
    match gwStep q 0 s with
    | some s' => gwFill q n s'
    | none =>
      match gwStep q 1 s with
      | some s' => gwFill q n s'
      | none =>
        match gwStep q 4 s with
        | some s' => gwFill q n s'
        | none => s

/-! ### Frame start (R214 to R216, R226) -/

/-- A quay may start frames: it runs, its link is up, its domain is ACTIVE, and it is not the source of a
migration (R85, R234, R567). -/
def State.quayTx (s : State) (q : Nat) : Bool :=
  s.runs (8 + q) && (s.getQuay q).linkUp && !s.closedDom (8 + q) &&
    (match s.migr with | some m => decide (m.1 ≠ q) | none => true)

/-- A session has replay space and window for one more data frame (R216), and nothing to send again before it
(R402). -/
def State.sendRoom (s : State) (q i : Nat) : Bool :=
  let x := s.getSess i
  x.openOn q && decide (x.replay.length < 256 ∧ s.replayUsed q + 8 ≤ 2048) &&
    !(s.getQuay q).pend.any (fun p => p.sess = i && p.resend)

/-- A frame for a session starts under the next SEQ (R214, R226): it is protected, kept in replay space and
put on the port. False where its key does not load. -/
def startData (q i typ : Nat) (data : Bytes) (long : Bool) (ctxs : List (Nat × Nat)) (orgs : List TxOrg) (s : State) :
    Status × State :=
  let x := s.getSess i
  if 2 ^ 63 ≤ x.seq then (.eSeq, breakSess i .eSeq s)
  else
    let f := sealFrame i typ 0 x.seq data long s
    let s := f.2.2.2
    if f.1 ≠ .ok then (f.1, s)
    else
      let e : Replay :=
        { seq := x.seq, gen := x.txGen, typ := typ, epoch := s.fed.epoch % 256, header := f.2.1, frame := f.2.2.1, data := data
          long := long, ctxs := ctxs, orgs := orgs, dest := x.dest, src := (s.getQuay q).addr }
      let top := decide (x.seq = 2 ^ 62)
      let s := s.setSess i { x with
        seq := x.seq + 1, genFrames := x.genFrames + 1, replay := x.replay ++ [e], at62 := x.at62 || top
        unacked := if x.ackHold then x.unacked else 0 }
      let s := if top then raiseBoth .ok (8 + q) 6 x.ten 0 i 0 s else s
      let s := bumpTen x.ten 0x3018 1 (bumpTen x.ten 0x3028 data.length (bump (quayBase q + 0x100) s))
      (.ok, sendFrame q typ data.length f.2.2.1 s)

/-- What a packet's start means to where it came from: a SEND counts its frame, and ends with its last one
(R362); a strand's bytes count in its context (R282). -/
def itemStarted (it : TxItem) (s : State) : State :=
  match it.org with
  | .op id =>
    let s := ctxBytes it.ten it.ctx (if it.typ = 2 then it.data.length - 32 else it.data.length) s
    match (s.getOp id).body with
    | .send i loc len n =>
      if !s.hasOp id then s
      else
        let s := s.updOp id (fun o => { o with body := .send i loc len (n - 1) })
        if n = 1 ∧ len = 0 ∧ (s.getOp id).io.isNone then finishOp id .ok 0 0 s else s
    | _ => s
  | _ => s

/-- A packet that cannot be protected: the operation fails with the status of the load (R38, R41). -/
def itemFailed (q : Nat) (it : TxItem) (st : Status) (s : State) : State :=
  match it.org with
  | .op id => finishOp id st 0 0 s
  | .pool id => finishOp id st 0 0 s
  | .flit => flitRefuse q it.ten it.ctx st true s
  | _ => s

/-- The context that a packet's frame carries; a reply carries none. -/
def TxItem.ctxs (it : TxItem) : List (Nat × Nat) :=
  match it.org with
  | .reply => []
  | .fed => []
  | .pool _ => []
  | _ => [(it.ten, it.ctx)]

/-- Start the frame of a packet at the head of a source: none while it waits. -/
def startItem (q : Nat) (it : TxItem) (pop : Quay → Quay) (s : State) : Option State :=
  if !s.sendRoom q it.sess ∨ !(s.getQuay q).pendRoom it ∨ s.coalesces q it then none
  else if (s.getQuay q).gw.any (fun b => b.sess = it.sess) then none
  else
    let s := s.updQuay q pop
    match enterPacket q it s with
    | none => some (anumEnd q it s)
    | some (it, s) =>
      let r := startData q it.sess it.typ it.data it.long it.ctxs [it.org] s
      if r.1 = .ok then some (itemStarted it r.2)
      else if r.1 = .eSeq then some (itemFailed q it .eSeq r.2)
      else some (itemFailed q it r.1 r.2)

/-- Before a frame of another kind starts on a session, the session's open buffer is marked for its flush
(R237). -/
def orderFlush (q : Nat) (it : TxItem) (s : State) : State :=
  if s.coalesces q it then s
  else flushBuf q (fun b => b.sess = it.sess) (if it.typ = 2 then 0x1A8 else 0x1B8) s

/-- Start the BULK frame of a buffer that is marked (R237, R238). -/
def startBulk (q : Nat) (s : State) : Option State :=
  match (s.getQuay q).gw.find? (fun b => b.flush && s.sendRoom q b.sess) with
  | none => none
  | some b =>
    let s := s.updQuay q (fun x => { x with gw := x.gw.erase b })
    let r := startData q b.sess 3 b.data false (b.items.map (·.ctxs)).flatten (b.items.map (·.org)) s
    if r.1 = .ok then some (b.items.foldl (fun s it => itemStarted it s) r.2)
    else some (b.items.foldl (fun s it => itemFailed q it r.1 s) r.2)

/-- A counted operation of a reopened session is sent again, in ANUM order, with RETRY set (R402). -/
def startResend (q : Nat) (s : State) : Option State :=
  match (s.getQuay q).pend.find? (fun p => p.resend && (s.getSess p.sess).openOn q &&
      decide ((s.getSess p.sess).replay.length < 256 ∧ s.replayUsed q + 8 ≤ 2048)) with
  | none => none
  | some p =>
    let d := patch 3 [BitVec.ofNat 8 (leNat (slice 3 1 p.data) ||| 2)] p.data
    let s := s.updQuay q (fun x => { x with
      pend := x.pend.map (fun e => if e = p then { e with data := d, resend := false } else e) })
    let s := bump (fedBase + 0x4930) s
    some (startData q p.sess 2 d false [(p.ten, p.ctx)] [p.org] s).2

/-- Start a control frame that is due (R220 to R222): none where the session holds it back or has gone. -/
def startCtl (q : Nat) (c : CtlDue) (s : State) : Option State :=
  let i := match c with | .ack i => i | .probe i _ => i
  let x := s.getSess i
  if !x.openOn q ∨ x.ackHold then none
  else
    let s := s.updQuay q (fun y => { y with ctl := y.ctl.erase c })
    if 2 ^ 63 ≤ x.ctl then some (breakSess i .eSeq s)
    else
      let sack := (List.range 32).map (fun b => BitVec.ofNat 8 ((List.range 8).foldl (fun n k =>
        n + b2n (x.rx.any (fun f => f.1 = x.rel + 1 + 8 * b + k)) * 2 ^ k) 0))
      let (typ, flags, data) := match c with
        | .ack _ => (4, 0, sack ++ beBytes 8 x.rxGen)
        | .probe _ m => (5, 2 * b2n m, beBytes 8 x.rxGen ++ zeros 8)
      let f := sealFrame i typ flags (2 ^ 63 + x.ctl) data false s
      let s := f.2.2.2
      if f.1 ≠ .ok then some s
      else
        let top := decide (x.ctl = 2 ^ 62)
        let s := s.setSess i { x with ctl := x.ctl + 1, unacked := 0, at62 := x.at62 || top }
        let s := if top then raiseBoth .ok (8 + q) 6 x.ten 0 i 0 s else s
        some (sendFrame q typ data.length f.2.2.1 (bump (quayBase q + 0x118) s))

/-- The first of a list of due things that can start. -/
def firstStart {α : Type} (f : α → Option State) : List α → Option State
  | [] => none
  | a :: t => match f a with | some s => some s | none => firstStart f t

/-- Start the retransmission of least SEQ that is due (R214, R224). -/
def startRetx (q : Nat) (s : State) : Option State :=
  let x := s.getQuay q
  let due := x.retx.filter (fun p => (s.getSess p.1).openOn q)
  match due with
  | [] => none
  | p :: t =>
    let m := t.foldl (fun a b => if b.2 < a.2 then b else a) p
    let s := s.setQuay q { x with retx := x.retx.erase m }
    match (s.getSess m.1).replay.find? (fun f => f.seq = m.2) with
    | none => some s
    | some f => some (sendFrame q f.typ f.data.length f.frame s)

/-! ### Retransmission (R223 to R225, R231) -/

/-- A retransmission is due (R224): the frame is rebuilt where it must be and may be, and queued. -/
def retransmit (i seq : Nat) (s : State) : State :=
  let x := s.getSess i
  match x.replay.find? (fun f => f.seq = seq) with
  | none => s
  | some f =>
    let q := x.quay
    if x.state ≠ .opened ∨ f.sack ∨ (s.getQuay q).retxLimit ≤ f.tries ∨ (s.getQuay q).retx.contains (i, seq) then s
    else
      let must := decide (f.gen < x.txGen ∨ f.dest ≠ x.dest ∨ f.src ≠ (s.getQuay q).addr) || !s.epochOk f.epoch
      let mv := if must ∧ f.gen = x.txGen then txMove i s else (must, s)
      let s := mv.2
      let put (f : Replay) (s : State) : State :=
        (s.updSess i (fun x => { x with replay := x.replay.map (fun g => if g.seq = seq then f else g) })).updQuay q
          (fun y => { y with retx := y.retx ++ [(i, seq)] })
      let same := put { f with tries := f.tries + 1 } (bump (quayBase q + 0x108) s)
      if !mv.1 then same
      else
        let r := sealFrame i f.typ 0 seq f.data false s
        if r.1 ≠ .ok then put { f with tries := f.tries + 1 } (bump (quayBase q + 0x108) r.2.2.2)
        else
          let x := r.2.2.2.getSess i
          put { f with gen := x.txGen, epoch := s.fed.epoch % 256, header := r.2.1, frame := r.2.2.1, long := false
                       tries := f.tries + 1, dest := x.dest, src := (s.getQuay q).addr }
            (bump (quayBase q + 0x110) r.2.2.2)

/-- A frame is still neither covered nor marked after its last permitted retransmission (R225). -/
def retxLimit (i seq : Nat) (s : State) : State :=
  let x := s.getSess i
  match x.replay.find? (fun f => f.seq = seq) with
  | none => s
  | some f =>
    if x.state = .opened ∧ !f.sack ∧ (s.getQuay x.quay).retxLimit ≤ f.tries then breakSess i .eAuth s else s

/-! ### Acknowledgements (R220 to R223, R228) -/

/-- A control frame becomes due, once. -/
def ctlDue (q : Nat) (c : CtlDue) (s : State) : State :=
  s.updQuay q (fun x => if x.ctl.contains c then x else { x with ctl := x.ctl ++ [c] })

/-- A cumulative acknowledgement arrives (R220, R223, R228). -/
def ackIn (i a : Nat) (s : State) : State :=
  let x := s.getSess i
  if a ≤ x.ackRx then s
  else
    let cov := x.replay.filter (fun f => decide (f.seq ≤ a))
    s.setSess i { x with
      ackRx := a
      replay := x.replay.filter (fun f => decide (a < f.seq))
      peerRxGen := cov.foldl (fun g f => max g f.gen) x.peerRxGen }

/-- The SACK of an ACK frame replaces the previous one (R223). -/
def sackIn (i a : Nat) (sack : Bytes) (s : State) : State :=
  s.updSess i (fun x => { x with replay := x.replay.map (fun f =>
    { f with sack := decide (a < f.seq ∧ f.seq ≤ a + 256) && bit1 (f.seq - a - 1) (leNat sack) }) })

/-- RXGEN of an ACK or PROBE frame raises PEER_RXGEN (R228). -/
def rxgenIn (i g : Nat) (s : State) : State := s.updSess i (fun x => { x with peerRxGen := max x.peerRxGen g })

/-- One more release that is not acknowledged (R220). -/
def releaseNoted (i : Nat) (s : State) : State :=
  let x := s.getSess i
  let s := s.setSess i { x with unacked := x.unacked + 1 }
  if (s.getQuay x.quay).ackEvery ≤ x.unacked + 1 then ctlDue x.quay (.ack i) s else s

/-- ACK_DELAY passes after a release not yet acknowledged (R220). -/
def ackDelay (i : Nat) (s : State) : State :=
  let x := s.getSess i
  if x.state = .opened ∧ 0 < x.unacked then ctlDue x.quay (.ack i) s else s

/-! ### Receiving (R82, R217 to R222, R227, R234) -/

/-- The records of a BULK payload (R239): none where a length field is wrong or passes the end. The first
argument bounds their number. -/
def bulkRecords : Nat → Bytes → Option (List Bytes)
  | 0, b => if b.isEmpty then some [] else none
  | n + 1, b =>
    if b.isEmpty then some []
    else
      let len := leNat (slice 0 4 b)
      if b.length < 4 ∨ 4096 ≤ len ∨ b.length < 4 + len then none
      else (bulkRecords n (b.drop (4 + (len + 3) / 4 * 4))).map (fun r => slice 4 len b :: r)

/-- A failure of R217: the frame is dropped and counted, with its subset. -/
def rxFail (q sub : Nat) (s : State) : State :=
  bumpIf (sub ≠ 0) (quayBase q + sub) (bump (quayBase q + 0x150) s)

/-- An authenticated PROBE with MIGRATED set: `moved` where its SRC was new (R234, step 6). -/
def probeIn (q i : Nat) (migrated moved : Bool) (s : State) : State :=
  if !migrated then s
  else ctlDue q (.probe i false) (if moved then rxMove i s else s)

/-- An authenticated frame (R218 to R222, R227). -/
def authFrame (q i : Nat) (h : FrameHdr) (gen : Nat) (data : Bytes) (s : State) : State :=
  let x := s.getSess i
  let s := bump (quayBase q + 0x130) s
  let moved := decide (x.dest ≠ h.src)
  let s := s.setSess i { x with dest := h.src, probe := none }
  let s := if gen = x.rxGen + 1 then rxMove i s else s
  let ack (s : State) : State := if h.flags % 2 = 1 then ackIn i h.ack s else s
  if h.typ < 4 then
    let s := ack s
    let x := s.getSess i
    if h.seq ≤ x.rel ∨ x.rx.any (fun f => f.1 = h.seq) then bump (quayBase q + 0x170) s
    else if x.rel + 256 < h.seq then bump (quayBase q + 0x178) s
    else s.setSess i { x with rx := Tab.put x.rx h.seq { typ := h.typ, data := data, gen := gen, header := h.bytes } }
  else
    let c := h.seq - 2 ^ 63
    if c < x.ctlRx then bump (quayBase q + 0x170) s
    else
      let s := ack (s.updSess i (fun x => { x with ctlRx := c + 1 }))
      if h.typ = 4 then rxgenIn i (beNat (slice 32 8 data)) (sackIn i h.ack (data.take 32) s)
      else probeIn q i (bit1 1 h.flags) moved (rxgenIn i (beNat (slice 0 8 data)) s)

/-- A received frame (R82). -/
def receiveFrame (q : Nat) (frame : Bytes) (bad framing : Bool) (s : State) : State :=
  if !s.runs (8 + q) ∨ s.closedDom (8 + q) ∨ !(s.getQuay q).linkUp then s
  else if bad then bump (quayBase q + 0x138) s
  else if frame.length < 48 ∨ 2096 < frame.length ∨ !framing then bump (quayBase q + 0x140) s
  else
    let p := frameHdr frame
    let h := p.1
    let n := frame.length - 48
    let x := s.getSess h.sess
    if h.dest ≠ (s.getQuay q).addr ∨ !x.openOn q ∨ instAddr h.src ≠ instAddr x.dest then rxFail q 0x158 s
    else if 2048 < s.reasmUsed q + 8 then bump (quayBase q + 0x148) s
    else if !p.2 ∨ h.version ≠ 1 ∨ 5 < h.typ ∨ (h.plen ≠ n ∧ !(h.plen = 0xFFFF ∧ (h.typ = 0 ∨ h.typ = 2))) ∨
        (h.typ = 4 ∧ n ≠ 40) ∨ (h.typ = 5 ∧ n ≠ 16) ∨ (h.typ < 4 ∧ 2 ^ 63 ≤ h.seq) ∨ (4 ≤ h.typ ∧ h.seq < 2 ^ 63) then
      rxFail q 0x158 s
    else
      match x.rxKeys.find? (fun k => k.ready && decide (k.gen % 4 = h.kgen)) with
      | none => rxFail q 0x168 s
      | some k =>
        let l := genKey x k s
        let s := l.2.2
        if l.1 ≠ .ok then rxFail q 0 s
        else
          match gcmOpen l.2.1 (frameIv k.salt h.seq) (frame.take 32) ((frame.drop 32).take n) (frame.drop (32 + n)) with
          | none => rxFail q 0 s
          | some d =>
            if !s.epochOk h.epoch then rxFail q 0x160 s
            else if h.typ = 3 ∧ (bulkRecords 2048 d).isNone then rxFail q 0x158 s
            else authFrame q h.sess h k.gen d s

/-! ### Flit packets (R78, R215, R387) -/

/-- The checks of a tile's MEM packet (R387). -/
def memPacketCheck (d : Bytes) : Status :=
  let f := fun (o n : Nat) => leNat (slice o n d)
  let len := f 4 4
  firstFail .ok
    [(decide (d.length < 32), .eLength),
     (decide (f 0 1 = 5 ∨ f 0 1 = 6), .ePermission),
     (decide (f 0 1 < 1 ∨ 4 < f 0 1 ∨ f 1 1 ≠ 0 ∨ f 24 8 ≠ 0 ∨ f 3 1 ≠ 0 ∨ 32 ≤ f 2 1 ∨ (f 0 1 ≠ 3 ∧ f 2 1 ≠ 0)), .eEncoding),
     (decide (2016 < len ∨ (f 0 1 = 3 ∧ len ≠ 16) ∨ (f 0 1 = 4 ∧ len ≠ 8) ∨
       d.length ≠ 32 + (if f 0 1 = 2 then 0 else len)), .eLength)]

/-- FLIT_PACKET (R78). A quay that is isolated or without power takes none. -/
def flitPacket (q : Nat) (p : Flit) (s : State) : State :=
  if !s.runs (8 + q) then s
  else
    let x := s.getSess p.sess
    let st := firstFail .ok
      [(s.closedDom (8 + q), .eFenced),
       (!p.framing || decide (p.data.length = 0 ∨ 2048 < p.data.length), .eLength),
       (decide (p.typ ≠ 0 ∧ p.typ ≠ 2), .eEncoding),
       (decide (4096 ≤ p.sess ∨ x.state = .closed ∨ x.ten ≠ p.ten), .ePermission)]
    let migrating := decide (x.state = .migrating ∧ x.quay = q)
    let st := if st ≠ .ok ∨ migrating then st else s.sendCheck q p.sess
    let st := if st = .ok ∧ p.typ = 2 then memPacketCheck p.data else st
    if st = .eSeq ∧ x.state = .opened ∧ 2 ^ 63 ≤ x.seq then flitRefuse q p.ten p.ctx st true (breakSess p.sess .eSeq s)
    else if st ≠ .ok then flitRefuse q p.ten p.ctx st true s
    else s.updQuay q (fun y => { y with
    flit := y.flit ++
      [{ sess := p.sess, typ := p.typ, data := p.data, ten := p.ten, ctx := p.ctx, org := .flit, long := decide (256 < p.data.length) }] })

/-! ### Migration (R233 to R235, R380) -/

/-- A migration ends: the command that asked for it completes, and the next one waiting starts later. -/
def migrDone (s : State) : State :=
  let s := { s with migr := none }
  if s.mbox.busy ∧ s.mbox.code = 0x42 then mbEnd .ok 0 s else s

/-- Start moving the sessions of a quay (R233, R234): false where there is nowhere to move them. -/
def migrStart (q q' : Nat) (s : State) : Bool × State :=
  let mine := ((s.homed q).filter (fun p => decide (p.2.state = .opened))).map (·.1)
  if q' = q ∨ 16 ≤ q' ∨ !(s.getQuay q').linkUp then (false, mine.foldl (fun s i => breakSess i .eNoRes s) s)
  else
    let s := mine.foldl (fun s i => s.updSess i (fun x => { x with state := .migrating })) s
    (true, if mine.isEmpty then s else { s with migr := some (q, q') })

/-- The quay's link falls, or a command names it: a second migration waits (R233). -/
def migrAsk (q q' : Nat) (s : State) : State :=
  if s.migr.isSome then { s with migrWait := s.migrWait ++ [(q, q')] } else (migrStart q q' s).2

/-- Start the migrations that wait, until one is under way. -/
def migrNext : Nat → State → State
  | 0, s => s
  | n + 1, s =>
    match s.migr, s.migrWait with
    | none, p :: t => migrNext n (migrStart p.1 p.2 { s with migrWait := t }).2
    | _, _ => s

/-- Move what a quay holds for a session to another quay; a tile's waiting packets are refused (R235). -/
def moveQueues (q q' i : Nat) (s : State) : State :=
  let x := s.getQuay q
  let mine := fun (it : TxItem) => it.sess = i
  let s := (x.flit.filter mine).foldl (fun s it => flitRefuse q it.ten it.ctx .ePermission true s) s
  let red := fun (p : Nat × Nat) => (s.getSlot p.1).sess = i
  let s := s.updQuay q (fun x => { x with
    flit := x.flit.filter (fun it => !mine it), fedTx := x.fedTx.filter (fun it => !mine it)
    strandTx := x.strandTx.filter (fun it => !mine it), memTx := x.memTx.filter (fun it => !mine it)
    gw := x.gw.filter (fun b => b.sess ≠ i), memIn := x.memIn.filter (fun m => m.sess ≠ i)
    pend := x.pend.filter (fun p => p.sess ≠ i), redTx := x.redTx.filter (fun p => !red p)
    ctl := x.ctl.filter (fun c => match c with | .ack j => j ≠ i | .probe j _ => j ≠ i)
    retx := x.retx.filter (fun p => p.1 ≠ i) })
  s.updQuay q' (fun y => { y with
    fedTx := y.fedTx ++ x.fedTx.filter mine, strandTx := y.strandTx ++ x.strandTx.filter mine
    memTx := y.memTx ++ x.memTx.filter mine, gw := y.gw ++ x.gw.filter (fun b => b.sess = i)
    pend := y.pend ++ x.pend.filter (fun p => p.sess = i), redTx := y.redTx ++ x.redTx.filter red })

/-- The copy of a session to the target quay completes (R234, R235). -/
def moveComplete (i : Nat) (s : State) : State :=
  let x := s.getSess i
  match s.migr with
  | none => s
  | some (q, q') =>
    if x.state ≠ .migrating ∨ x.quay ≠ q then s
    else
      let need := (x.replay.map (fun f => beatsOf f.data.length)).foldl (· + ·) 0
      let s :=
        if !(s.getQuay q').linkUp ∨ 2048 < s.replayUsed q' + need ∨ 4096 ≤ (s.homed q').length then breakSess i .eNoRes s
        else
          let s := moveQueues q q' i s
          let s := x.berths.foldl (fun s b =>
            let e := s.getBerth b
            (writeBerth b { e with masters := fld (mQuay q') 1 1 + fld mKdf 1 1 } s).2) s
          let s := s.setSess i { x with
            state := .opened, quay := q', rx := [], replay := x.replay.map (fun f => { f with sack := false }), probe := some 0 }
          let s := ctlDue q' (.probe i true) (rxMove i s)
          raiseBoth .ok (8 + q') 7 x.ten 0 i q' s
      if (s.homed q).any (fun p => decide (p.2.state = .migrating)) then s else migrDone s

/-- 20 µs without a frame from the peer of a migrated session (R234, step 5). -/
def probeRepeat (i : Nat) (s : State) : State :=
  let x := s.getSess i
  match x.probe with
  | none => s
  | some n =>
    if x.state ≠ .opened then s
    else if (s.getQuay x.quay).retxLimit ≤ n then breakSess i .eAuth s
    else ctlDue x.quay (.probe i true) (s.setSess i { x with probe := some (n + 1) })

/-- FR_LINK_UP falls (R85, R233). -/
def linkFalls (q : Nat) (s : State) : State :=
  if !s.hasIsland (8 + q) ∨ !(s.getQuay q).linkUp then s
  else
    let s := s.updQuay q (fun x => { x with linkUp := false })
    migrAsk q (s.getQuay q).spare s

/-- FR_LINK_UP rises (R85, R245). -/
def linkRises (q : Nat) (s : State) : State :=
  if !s.hasIsland (8 + q) ∨ q ≥ 16 then s else s.updQuay q (fun x => { x with linkUp := true })

/-! ### QUAY CTRL (R244) -/

/-- The fields of CTRL as a value gives them. -/
def Quay.withCtrl (x : Quay) (v : Nat) : Quay :=
  { x with
    spare := bits 0 4 v, gwEn := bit1 4 v, retxLimit := bits 5 4 v, rotLog2 := bits 9 6 v
    ackDelay := bits 15 8 v, ackEvery := bits 23 5 v }

/-- The fields of CTRL are in their ranges. -/
def Quay.ctrlOk (x : Quay) : Bool :=
  decide (1 ≤ x.retxLimit ∧ 20 ≤ x.rotLog2 ∧ x.rotLog2 ≤ 40 ∧ 1 ≤ x.ackDelay ∧ 1 ≤ x.ackEvery)

/-- A write of CTRL (R244): a field outside its range leaves it as it is, and a change of GW_EN first flushes
every open buffer. -/
def quayCtrl (m : Master) (q v : Nat) (s : State) : State :=
  let x := s.getQuay q
  let y := x.withCtrl v
  let may := match m with | .vf _ _ => false | _ => true
  let set (s : State) : State := s.updQuay q (fun z =>
    let w := z.withCtrl v
    if x.gwEn ≠ y.gwEn then { w with gw := w.gw.map (fun b => { b with flush := true }) } else w)
  if 16 ≤ q then s
  else regGuard (quayBase q) ((may && y.ctrlOk) || decide (x = y))
    (policyWrite m (quayBase q) v (decide (x ≠ y)) set) s

/-- 1 µs after its first record a buffer is flushed (R237). -/
def gwTime (q i : Nat) (s : State) : State := flushBuf q (fun b => b.sess = i && !b.flush) 0x1B0 s

end Sys2Proof.Machine
end

