-- ==== Sys2Proof/Machine/Keys.lean ====
section
/-! DEFINITION. The berth commands, the KeyID map, the entropy source and the DRBG (R411 to R415, R421 to
R433). -/

namespace Sys2Proof.Machine

/-! ### Keys of the asymmetric crypto unit (R452, R453, R475) -/

/-- An uncompressed ECDSA or ECDH P-384 public key of a seed: 97 bytes. -/
def ecPub97 (seed : Bytes) : Bytes := 4 :: slice 0 96 (Config.ecPub seed)

/-- The ECDH and ML-KEM seeds that the unit derives from a domain key (R475). -/
def dkeyEc (seed : Bytes) : Bytes := kmac seed [] 56 "ODLAHA DKEY EC"
def dkeyMl (seed : Bytes) : Bytes := kmac seed [] 64 "ODLAHA DKEY ML"

/-- OBJ 4 of a domain key: both public keys, 1,665 bytes (R475). -/
def dkeyObj (seed : Bytes) : Bytes := ecPub97 (dkeyEc seed) ++ slice 0 1568 (Config.kemPub (dkeyMl seed))

/-- DKEY_HASH (R475). -/
def dkeyHash (seed : Bytes) : Bytes := sha384 (dkeyObj seed)

/-- Unwrap a wrapped key under a domain key (R476): none where a check fails. -/
def unwrapKey (seed epk keyId iv c tag ct : Bytes) : Option Bytes :=
  match Config.ecShared (dkeyEc seed) epk with
  | none => none
  | some sse =>
    let kek := kmac (slice 0 32 (Config.kemDecap (dkeyMl seed) ct) ++ slice 0 48 sse)
      (keyId ++ dkeyHash seed ++ epk ++ ct) 32 "ODLAHA KWRAP"
    gcmOpen kek iv keyId c tag

/-- Bytes of KDF_CTX. -/
def KeyUnit.ctx (k : KeyUnit) (off n : Nat) : Bytes := (List.range n).map (fun i => Tab.get 0 k.kdfCtx (off + i))

/-- UNWRAP's reading of KDF_CTX (R477): MODE 0x01 with CTX_LEN 190; none for any other content. -/
def KeyUnit.unwrap (k : KeyUnit) (ctxLen : Nat) (seed : Bytes) : Option Bytes :=
  if ctxLen = 190 ∧ k.ctx 0 1 = [1] then
    unwrapKey seed (k.ctx 1 97) (k.ctx 98 32) (k.ctx 130 12) (k.ctx 142 32) (k.ctx 174 16) k.ctIn
  else none

/-! ### Berth commands (R428 to R431) -/

/-- A mooring admits no new key any more (R430). -/
def Mooring.leaving (m : Mooring) : Bool :=
  decide (m.state = .removing ∨ m.state = .quarantine ∨ m.state = .scrubbing)

/-- The attributes of BERTH_STAGE as an EMPTY berth's, and the STATE field beside them (R450). -/
def stageBerth (v : Nat) : Berth :=
  { masters := bits 0 30 v, world := bits 32 2 v, tenant := bits 40 8 v, lcmask := bits 48 7 v, usage := bits 56 3 v }

def stageState (v : Nat) : Nat := bits 60 3 v

/-- The staged attributes do not fit their encoding (R430). -/
def Berth.encBad (b : Berth) : Bool :=
  decide (b.world = 3) || decide (6 ≤ b.usage) || (decide (b.world ≠ 2) && decide (b.tenant ≠ 0))

/-- The checks of R430 that a GEN, DERIVE and UNWRAP share, in order. -/
def fillChecks (i : Nat) (b : Berth) (s : State) : List (Bool × Status) :=
  [(b.encBad, .eEncoding),
   (decide ((s.getBerth i).state ≠ .empty), .eState),
   (decide (b.world = 2) && (s.getMoor b.tenant).leaving, .eKeyRevoked),
   (decide (b.usage = 0 ∧ 8192 ≤ s.memBerths), .eNoRes)]

/-- The berth loaded as a parent has the staged world and mooring, or the vendor's (R430). -/
def parentFits (p b : Berth) : Bool := decide (p.world = 0) || (decide (p.world = b.world) && decide (p.tenant = b.tenant))

/-- A GEN of berth `i` with the attributes of `b` (R430). -/
def berthGen (i : Nat) (b : Berth) (s : State) : Status × State :=
  let st := firstFail .ok (fillChecks i b s)
  if st ≠ .ok then (st, s)
  else
    match drbg 32 s with
    | none => (.eNoRes, s)
    | some r => writeBerth i { b with key := r.1, state := .valid } r.2

/-- The parent key of a derivation (R421, R422, R427): the root's for labels 0 to 4, else a berth's. -/
def parentKey (root : Bool) (parent label : Nat) (b : Berth) (s : State) : Status × Bytes × State :=
  if 9 ≤ label then (.eEncoding, [], s)
  else if root then
    if label ≤ 4 ∧ s.rootOk = true then (.ok, s.lc.root, s) else (.eLc, [], s)
  else if label ≤ 4 then (.ePermission, [], s)
  else
    let r := berthLoad parent mKdf (kdfUsage label) (fun _ => true) s
    if r.1 = .ok ∧ !parentFits (s.getBerth parent) b then (.ePermission, [], r.2.2) else r

/-- A DERIVE into berth `i` (R430). -/
def berthDerive (i : Nat) (b : Berth) (root : Bool) (parent label : Nat) (ctx : Bytes) (s : State) : Status × State :=
  let st := firstFail .ok (fillChecks i b s)
  if st ≠ .ok then (st, s)
  else
    let r := parentKey root parent label b s
    if r.1 ≠ .ok then (r.1, r.2.2)
    else writeBerth i { b with key := kdf r.2.1 label (kdfCtx s label ctx), state := .valid } r.2.2

/-- An UNWRAP into berth `i` under a wrap-usage parent (R430, R477): `f` opens the wrapped key. -/
def berthUnwrap (i : Nat) (b : Berth) (root : Bool) (parent label : Nat) (f : Bytes → Option Bytes) (s : State) :
    Status × State :=
  let st := firstFail .ok (fillChecks i b s ++
    [(decide (9 ≤ label), .eEncoding), (root && !(decide (label ≤ 4) && s.rootOk), .eLc),
     (root || decide (label ≤ 4), .ePermission)])
  if st ≠ .ok then (st, s)
  else
    let r := berthLoad parent mKdf 3 (fun _ => true) s
    if r.1 ≠ .ok then (r.1, r.2.2)
    else if !parentFits (s.getBerth parent) b then (.ePermission, r.2.2)
    else
      match f r.2.1 with
      | none => (.eAuth, r.2.2)
      | some key => writeBerth i { b with key := key, state := .valid } r.2.2

/-- A change of a berth by Prity that R40 reads back. -/
def berthPut (i : Nat) (s : State) : Status × State :=
  let r := readBackFails s
  if r.1 then (.eIntegrity, makeBad i r.2) else (.ok, r.2)

/-- ZEROISE (R428). -/
def berthZeroise (i : Nat) (s : State) : Status × State :=
  let b := s.getBerth i
  if b.state = .valid ∨ b.state = .bad then
    let r := readBackFails s
    if r.1 then (.eIntegrity, makeBad i r.2) else (.ok, emptyBerth i r.2)
  else (.eState, s)

/-- The sessions that hold a berth become REVOKING with it (R232). -/
def revokeHolders (i : Nat) (s : State) : State :=
  s.sess.foldl (fun s p => if p.2.berths.contains i then revokeSess p.1 s else s) s

/-- SET_STATE (R428). -/
def berthSetState (i dst : Nat) (s : State) : Status × State :=
  match (s.getBerth i).state, dst with
  | .valid, 2 =>
    let r := berthPut i (revokeBerth i s)
    if r.1 = .ok then (.ok, revokeHolders i r.2) else r
  | .revoking, 3 => berthPut i (quarantineBerth i s)
  | .quarantine, 0 =>
    let r := readBackFails s
    if r.1 then (.eIntegrity, makeBad i r.2) else (.ok, releaseBerth i r.2)
  | _, _ => (.eState, s)

/-- SET_MASTERS (R428). -/
def berthSetMasters (i masters : Nat) (s : State) : Status × State :=
  let b := s.getBerth i
  if b.state = .valid then writeBerth i { b with masters := masters } s else (.eState, s)

/-- The fields of BERTH_CMD (R450). -/
structure BerthCmd where
  op     : Nat
  parent : Nat
  root   : Bool
  label  : Nat
  ctxLen : Nat

def berthCmdOf (v : Nat) : BerthCmd :=
  { op := bits 0 4 v, parent := bits 4 16 v, root := bit1 20 v, label := bits 21 4 v, ctxLen := bits 25 9 v }

/-- The end of a berth command: its status, KDF_CTX zeroed, its record where it changed the berth, and its
source (R430, R448, R519). -/
def berthEnd (before : Berth) (i : Nat) (r : Status × State) : State :=
  let s := r.2
  let s := { s with keys := { s.keys with status := r.1.code, kdfCtx := [] } }
  let b := s.getBerth i
  let s := if b = before then s else auditLog 3 r.1 0 0 0 i (b.attr b.state.code) s
  raiseHm 3 s

/-- A write of BERTH_CMD (R430): it waits while the audit buffer is full, and only Prity makes it. `want` is
the OP that the command row stands for, or none for a reserved one. -/
def berthCmd (want : Option Nat) (value : Nat) (s : State) : State :=
  let c := berthCmdOf value
  let op := if 1 ≤ c.op ∧ c.op ≤ 6 then some c.op else none
  if op ≠ want then s
  else
    regGuard (keyBase + 0x118) true (fun s =>
      let i := s.keys.berthSel
      let b := stageBerth s.keys.stage
      let ctxBad := decide (256 < c.ctxLen)
      berthEnd (s.getBerth i) i (match c.op with
        | 1 => berthGen i b s
        | 2 => if ctxBad then (.eEncoding, s)
               else berthDerive i b c.root c.parent c.label (s.keys.ctx 0 c.ctxLen) s
        | 3 => berthZeroise i s
        | 4 => berthSetState i (stageState s.keys.stage) s
        | 5 => berthSetMasters i b.masters s
        | 6 => if ctxBad then (.eEncoding, s)
               else berthUnwrap i b c.root c.parent c.label (s.keys.unwrap c.ctxLen) s
        | _ => (.eEncoding, s))) s

/-- GEN (R430). -/
def execGen (value : Nat) (s : State) : Out := live (berthCmd (some 1) value) s

/-- DERIVE (R430). -/
def execDerive (value : Nat) (s : State) : Out := live (berthCmd (some 2) value) s

/-- SET_MASTERS (R430). -/
def execSetMasters (value : Nat) (s : State) : Out := live (berthCmd (some 5) value) s

/-- UNWRAP (R430, R477). -/
def execUnwrap (value : Nat) (s : State) : Out := live (berthCmd (some 6) value) s

/-! ### The KeyID map (R432, R433) -/

/-- The fields of KMAP_DATA. -/
def kmapOf (v : Nat) : KmapEnt :=
  { berth := bits 0 16 v, alt := bits 16 16 v, altMask := bits 32 8 v, valid := bit1 40 v }

def KmapEnt.word (k : KmapEnt) : Nat := k.berth + fld 16 16 k.alt + fld 32 8 k.altMask + fld 40 1 (b2n k.valid)

/-- A VALID berth of usage memory. -/
def memBerth (b : Berth) : Bool := decide (b.state = .valid ∧ b.usage = 0)

/-- The conditions of R433 for an entry. -/
def kmapOk (keyid : Nat) (k : KmapEnt) (s : State) : Bool :=
  !k.valid || (decide (keyid ≠ 0) && memBerth (s.getBerth k.berth) &&
    (decide (k.altMask = 0) ||
      (memBerth (s.getBerth k.alt) && decide ((s.getBerth k.alt).world = (s.getBerth k.berth).world) &&
        decide ((s.getBerth k.alt).tenant = (s.getBerth k.berth).tenant))))

/-- Put a KeyID map entry in force: every engine's copy is invalidated (R137, R433). -/
def kmapPut (keyid : Nat) (k : KmapEnt) (s : State) : State :=
  let s := s.setKmap keyid k
  { s with lic := s.lic.map (fun p => (p.1, { p.2 with kc := p.2.kc.filter (fun e => e.keyid ≠ keyid || e.tide) })) }

/-- KMAP_WRITE (R433): Prity's write of KMAP_DATA, which is policy class. -/
def kmapWrite (value : Nat) (s : State) : State :=
  let keyid := s.keys.kmapSel
  let k := kmapOf value
  regGuard (keyBase + 0x308) (kmapOk keyid k s) (fun s =>
    policyWrite .prity (keyBase + 0x308) k.word (k ≠ s.getKmap keyid) (kmapPut keyid k) s) s

/-- KMAP_WRITE. -/
def execKmapWrite (value : Nat) (s : State) : Out := live (kmapWrite value) s

/-! ### The entropy source (R411 to R414) -/

/-- The DRBG is instantiated from 256 bits of entropy and a 128-bit nonce of the source (R414). -/
def instantiate (s : State) : State :=
  match s.ent.inst, s.ent.pool with
  | false, e :: n :: rest =>
    let k := drbgInit e (n.take 16)
    let s := { s with ent := { s.ent with inst := true, drbgKey := k.1, drbgV := k.2, requests := 0, pool := rest } }
    if s.keys.tagKey.isEmpty then
      match drbg 32 s with
      | none => s
      | some r => { r.2 with keys := { r.2.keys with tagKey := r.1 } }
    else s
  | _, _ => s

/-- Bytes of raw samples, the first sample in bit 0 of byte 0 (DESIGN CHOICE 18). -/
def packBits : Nat → List Bool → Bytes
  | 0, _ => []
  | n + 1, l =>
    BitVec.ofNat 8 ((l.take 8).foldr (fun b a => b2n b + 2 * a) 0) :: packBits n (l.drop 8)

/-- The two health tests over one sample (R411): whether one fails, and the tests' next state. -/
def healthTest (b : Bool) (e : Entropy) : Bool × Entropy :=
  let run := if e.run > 0 ∧ e.last = b then e.run + 1 else 1
  let fresh := decide (e.pos = 0)
  let recur := if fresh then 1 else if b = e.first then e.recur + 1 else e.recur
  let first := if fresh then b else e.first
  (decide (35 ≤ run) || decide (748 ≤ recur),
   { e with last := b, run := run, first := first, recur := recur, pos := (e.pos + 1) % 1024 })

/-- The health tests and the conditioning begin anew. -/
def Entropy.restart (e : Entropy) : Entropy :=
  { e with seen := 0, last := false, run := 0, first := false, recur := 0, pos := 0, raw := [] }

/-- A health test fails (R413): the third failure is fatal. Outputs of the failing window are discarded:
`drop` is how many were conditioned from samples of it. -/
def healthFail (drop : Nat) (s : State) : State :=
  let e := s.ent
  let fails := e.fails + 1
  let e := { e.restart with fails := min 3 fails, pool := e.pool.take (e.pool.length - drop) }
  let s := bump (keyBase + 0x410) s
  if fails < 3 then { s with ent := { e with state := .retry } }
  else raisePrivOpen 32 25 0x23 0 0 { s with ent := { e with state := .failed } }

/-- A raw sample comes (R411 to R413). -/
def entropySample (b : Bool) (s : State) : State :=
  let e := s.ent
  if e.state ≠ .startup ∧ e.state ≠ .ok then s
  else
    let t := healthTest b e
    let drop := if e.state = .ok then (e.pos - e.raw.length + 543) / 544 else 0
    if t.1 then healthFail drop { s with ent := t.2 }
    else if e.state = .startup then
      let n := e.seen + 1
      if n < 1024 then { s with ent := { t.2 with seen := n } }
      else { s with ent := { t.2 with state := .ok, seen := 0, raw := [] } }
    else
      let raw := b :: t.2.raw
      if raw.length < 544 then { s with ent := { t.2 with raw := raw } }
      else
        let out := sha3 (packBits 68 raw.reverse)
        instantiate { s with ent := { t.2 with raw := [], pool := t.2.pool ++ [out] } }

/-- ENTROPY_SAMPLE (R411). In scan nothing of the block draws on the source (R120, R121). -/
def execEntropySample (sample : Bool) (s : State) : Out :=
  live (fun s => if s.fault.scanAck then s else entropySample sample s) s

/-- ENTROPY_RETRY_EXPIRY: 1 ms has passed in RETRY (R413). -/
def execEntropyRetryExpiry (s : State) : Out :=
  live (fun s => if s.ent.state = .retry then { s with ent := { s.ent.restart with state := .startup } } else s) s

end Sys2Proof.Machine
end

