-- ==== Sys2Proof/Machine/ReduceOps.lean ====
section
/-! DEFINITION. The reduction datapath: arming, the examination of REDUCE frames, operands, combinations,
output and failure of slots (R249 to R272). -/

namespace Sys2Proof.Machine

/-! ### Slots and chunks -/

/-- No local operand (R251). -/
def noLocal : Nat := 0x7FFF

def Slot.intFmt (x : Slot) : Bool := isInt x.fmt
def Slot.wire (x : Slot) : Nat := wireFmt x.fmt x.wide

/-- The number of chunks of a slot, and a chunk's elements (R251). -/
def Slot.chunkCount (x : Slot) : Nat := (x.elems + x.chunkElems - 1) / x.chunkElems
def Slot.chunkLen (x : Slot) (k : Nat) : Nat := min x.chunkElems (x.elems - k * x.chunkElems)

/-- Ranks counted from BASE (R251). -/
def Slot.off (x : Slot) (r : Nat) : Nat := (r + x.group - x.base) % x.group

def Slot.hasLocal (x : Slot) : Bool := decide (x.localRank ≠ noLocal)

/-- A chunk before anything has happened to it: the local operand's rank counts as accepted (R259). -/
def Slot.newChunk (x : Slot) (k : Nat) : Chunk :=
  { idx := k, covered := if x.hasLocal then [(x.off x.localRank, 1)] else [], loaded := !x.hasLocal }

def Slot.chunk (x : Slot) (k : Nat) : Chunk := (x.chunks.find? (fun c => c.idx = k)).getD (x.newChunk k)

def Slot.setChunk (x : Slot) (c : Chunk) : Slot :=
  { x with
    chunks :=
      if x.chunks.any (fun d => d.idx = c.idx) then x.chunks.map (fun d => if d.idx = c.idx then c else d)
      else x.chunks ++ [c] }

def State.updChunk (s : State) (n k : Nat) (f : Chunk → Chunk) : State :=
  s.updSlot n (fun x => x.setChunk (f (x.chunk k)))

/-- Accumulator entries in use (R250). -/
def State.accUsed (s : State) : Nat :=
  (s.red.slots.map (fun p => (p.2.chunks.filter (·.entry)).length)).foldl (· + ·) 0

/-- Slots ARMED (R277). -/
def State.slotsArmed (s : State) : Nat := (s.red.slots.filter (fun p => p.2.armed)).length

/-- Frames waiting or staged (R277). -/
def State.frmHeld (s : State) : Nat :=
  s.red.waits.length + (s.red.slots.map (fun p =>
    (p.2.chunks.map (fun c => (c.staged.filter (fun x => x.quay.isSome)).length)).foldl (· + ·) 0)).foldl (· + ·) 0

/-- The slot range of a world (R251); the owner world has every slot (DESIGN CHOICE 8). -/
def State.slotIn (s : State) (ten n : Nat) : Bool :=
  match tenMoor ten with
  | none => decide (n < 1024)
  | some t =>
    let a := (s.getMoor t).adm
    decide ((s.getMoor t).state ≠ .free ∧ a.slotFirst ≤ n ∧ n < a.slotFirst + a.slotCount)

def redCnt (off : Nat) (s : State) : State := bump (redBase + off) s
def redCntBy (n off : Nat) (s : State) : State := if n = 0 then s else bumpBy n (redBase + off) s

/-! ### The end of a slot (R254, R263) -/

/-- A slot's work item ends: trace, references, its place in the context; the slot is FREE. -/
def slotClose (n : Nat) (st : Status) (s : State) : State :=
  let x := s.getSlot n
  let s := trace x.ten 2 24 (if x.forward then 0x29 else 0x28) st x.ctx x.tag n s
  let s := ctxEnd x.ten x.ctx (dropRefs x.refs s)
  let ret := decide ((s.getCtx x.ten x.ctx).state = .retiring)
  let s := if losesCtx 0xFF ret st then markLost x.ten x.ctx st s else s
  let s := if st = .ok then s else redCnt 0x150 s
  { s.setSlot n { x with armed := false, lastSt := st.code, chunks := [], refs := [] } with
    quay := s.quay.map (fun p => (p.1, { p.2 with redTx := p.2.redTx.filter (fun e => e.1 ≠ n) })) }

/-- A slot fails (R263). -/
def slotFail (n : Nat) (st : Status) (s : State) : State :=
  let x := s.getSlot n
  if !x.armed then s
  else
    let s := { s with red := { s.red with waits := s.red.waits.filter (fun w => !(w.slot = n && w.tag = x.tag)) } }
    let s := slotClose n st (s.setSlot n { x with lastTag := x.tag })
    let s := if x.bollard = 0 then s else breakBoll (handleIdx x.bollard) s
    raiseBoth st 24 8 x.ten x.ctx n 0 s

/-- The last chunk of a slot has been output, or it had none (R253, R254): its bollard is signalled. -/
def slotDone (n : Nat) (s : State) : State :=
  let x := s.getSlot n
  let r := if x.bollard = 0 then (Status.ok, 0, s) else signalAdd (handleIdx x.bollard) 1 s
  slotClose n r.1 (if x.elems = 0 then r.2.2 else r.2.2.setSlot n { x with lastTag := x.tag })

/-- A chunk has been output (R254, R259): the next operand read becomes due. -/
def chunkOut (n k : Nat) (s : State) : State :=
  let s := s.updChunk n k (fun c => { c with out := true, entry := false, acc := none, store := [], storing := false, storeBack := none })
  let s := s.updSlot n (fun x => { x with chunksDone := x.chunksDone + 1, nextChunk := x.nextChunk + 1 })
  if (s.getSlot n).chunkCount ≤ (s.getSlot n).chunksDone then slotDone n s else s

/-! ### Combination (R260, R265, R269 to R271) -/

/-- Combine the accumulator with a partial, the accumulator first. `next` tells whether the pair is the one
that FIXED would combine next. -/
def combinePair (n k : Nat) (a p : Partial) (next : Bool) (s : State) : Partial × State :=
  let x := s.getSlot n
  let vals := List.zipWith (combine x.op x.intFmt) a.vals p.vals
  let wraps := if x.intFmt && (x.op = 0 || x.op = 3) then
    ((List.zipWith addWraps a.vals p.vals).filter id).length else 0
  let s := redCntBy wraps 0x128 (redCntBy vals.length 0x108 (redCnt 0x100 (beat 24 s)))
  let s := if x.arrival && (x.op = 0 || x.op = 3) && !x.intFmt && !next then
    bumpTen x.ten 0x3040 1 (bump (soundBase + 0x230) s) else s
  let s := s.updChunk n k (fun c => { c with combos := c.combos + 1 })
  ({ first := if next then x.base else a.first, count := a.count + p.count, vals := vals, contig := next }, s)

/-- Is a pair the one FIXED would combine next (R271)? -/
def Slot.nextPair (x : Slot) (c : Chunk) (a p : Partial) : Bool :=
  (a.contig && a.first = x.base && p.first = (a.first + a.count) % x.group) ||
    (c.combos = 0 && p.first = x.base && a.first = (p.first + p.count) % x.group)

/-- The staged partial that a chunk takes next: under FIXED the one whose range follows (R269), under ARRIVAL
the first to come (R270). -/
def Slot.nextPartial (x : Slot) (c : Chunk) : Option Partial :=
  if x.arrival then c.staged.head?
  else
    let want := match c.acc with | none => x.base | some a => (a.first + a.count) % x.group
    c.staged.find? (fun p => p.first = want)

/-- Fold what a chunk has staged; the first argument bounds the combinations. -/
def foldChunk (n k : Nat) : Nat → State → State
  | 0, s => s
  | m + 1, s =>
    let x := s.getSlot n
    let c := x.chunk k
    if !c.entry ∨ !c.loaded ∨ c.done then s
    else match x.nextPartial c with
      | none => s
      | some p =>
        let s := s.updChunk n k (fun c => { c with staged := c.staged.erase p })
        match c.acc with
        | none => foldChunk n k m (s.updChunk n k (fun c => { c with acc := some { p with quay := none } }))
        | some a =>
          let r := combinePair n k a p (x.nextPair c a p) s
          foldChunk n k m (r.2.updChunk n k (fun c => { c with acc := some r.1 }))

/-! ### Output (R261, R262, R266 to R268) -/

/-- The values of a complete chunk as they leave: divided for AVG over the whole group (R266). -/
def finalVals (n : Nat) (a : Partial) (s : State) : Vals × State :=
  let x := s.getSlot n
  if x.op = 3 ∧ a.count = x.group then
    if x.intFmt then
      (a.vals.map (fun v => intDiv v x.group), redCntBy (a.vals.filter (fun v => decide (signed64 v % x.group ≠ 0))).length 0x110 s)
    else (a.vals.map (fun v => fp32Div v x.group), redCntBy (a.vals.filter (fun v => fp32DivInexact v x.group)).length 0x110 s)
  else (a.vals, s)

/-- Narrow a chunk's values to a format, with the counts of R279. -/
def narrowed (fmt : Nat) (vs : Vals) (s : State) : Bytes × Bytes × State :=
  let e := encodeVals fmt vs
  (e.1, e.2.1, redCntBy e.2.2.nan 0x120 (redCntBy e.2.2.sat 0x118 (redCntBy e.2.2.inexact 0x110 s)))

/-- Go on with a chunk's store (R261): the next line, or all lines have returned. The accumulator entry goes
when the last line has been handed to Lichen (R250). -/
def storeNext (n k : Nat) (s : State) : State :=
  let x := s.getSlot n
  let c := x.chunk k
  match c.store with
  | [] => s.updChunk n k (fun c => { c with storeBack := some .ok })
  | r :: t =>
    if r.len ≤ r.pos then s.updChunk n k (fun c => { c with store := t })
    else
      let last := t.all (fun y => decide (y.len ≤ y.pos)) && decide (r.len ≤ r.pos + r.piece.2.2)
      let s := if last then s.updChunk n k (fun c => { c with entry := false, acc := none }) else s
      submitPiece (.store n k x.serial) r x.ten x.ctx false s

/-- A complete chunk goes to its output. -/
def chunkOutput (n k : Nat) (s : State) : State :=
  let x := s.getSlot n
  let c := x.chunk k
  match c.acc with
  | none => s
  | some a =>
    let s := s.updChunk n k (fun c => { c with done := true })
    if x.forward then
      let q := (s.getSess x.sess).quay
      s.updQuay q (fun y => { y with redTx := y.redTx ++ [(n, k)] })
    else
      let v := finalVals n a s
      let b := narrowed x.fmt v.1 v.2
      let e : RangeIo := { wr := true, addr := x.dst + elemBytes x.fmt (k * x.chunkElems), len := b.1.length, buf := b.1 }
      let z : RangeIo := { wr := true, addr := x.dstScale + scaleBytes x.fmt (k * x.chunkElems), len := b.2.1.length, buf := b.2.1 }
      let s := b.2.2.updChunk n k (fun c => { c with storing := true, store := if b.2.1.isEmpty then [e] else [e, z] })
      storeNext n k s

/-- The REDUCE payload that a FORWARD slot sends for a complete chunk (R255, R262). -/
def forwardPayload (n k : Nat) (s : State) : Bytes × State :=
  let x := s.getSlot n
  let a := ((x.chunk k).acc).getD { first := 0, count := 0, vals := [] }
  let v := finalVals n a s
  let b := narrowed x.wire v.1 v.2
  ([BitVec.ofNat 8 x.op, BitVec.ofNat 8 (x.fmt + 16 * b2n x.wide)] ++ leBytes 2 x.peerSlot ++ leBytes 4 (k * x.chunkElems) ++
    leBytes 2 (x.chunkLen k) ++ leBytes 2 x.base ++ leBytes 2 x.expect ++ zeros 2 ++ leBytes 8 x.tag ++ zeros 8 ++ b.1 ++ b.2.1,
   b.2.2)

/-- Start the frame of the first chunk that a quay has to forward (R262): a failed session check fails the slot;
none while it waits. -/
def startForward (q : Nat) (s : State) : Option State :=
  match (s.getQuay q).redTx with
  | [] => none
  | (n, k) :: _ =>
    let x := s.getSlot n
    let st := s.sendCheck q x.sess
    if (s.getSess x.sess).state = .migrating then none
    else if st = .eSeq then some (slotFail n .eSeq (breakSess x.sess .eSeq s))
    else if st ≠ .ok then some (slotFail n st s)
    else if (s.getQuay q).gw.any (fun b => b.sess = x.sess) then none
    else if !s.sendRoom q x.sess then none
    else
      let s := s.updQuay q (fun y => { y with redTx := y.redTx.drop 1 })
      let p := forwardPayload n k s
      let r := startData q x.sess 1 p.1 false [(x.ten, x.ctx)] [] p.2
      if r.1 ≠ .ok then some (slotFail n r.1 r.2)
      else some (chunkOut n k (ctxBytes x.ten x.ctx p.1.length r.2))

/-- Forwards whose session cannot send any more fail their slots (R215, R262). -/
def failForwards (q : Nat) (s : State) : State :=
  (s.getQuay q).redTx.foldl (fun s e =>
    let i := (s.getSlot e.1).sess
    let st := s.sendCheck q i
    if (s.getSess i).state = .migrating ∨ st = .ok ∨ st = .eSeq then s else slotFail e.1 st s) s

/-! ### Operands (R259) -/

/-- Start the operand read of a chunk: its elements. -/
def operandStart (n k : Nat) (s : State) : State :=
  let x := s.getSlot n
  let r : RangeIo :=
    { wr := false, addr := x.src + elemBytes x.fmt (k * x.chunkElems), len := elemBytes x.fmt (x.chunkLen k) }
  submitPiece (.operand n k x.serial) r x.ten x.ctx false (s.updChunk n k (fun c => { c with operand := some r }))

/-- A line of an operand has come back. -/
def operandLine (n k serial : Nat) (st : Status) (data : Bytes) (s : State) : State :=
  let x := s.getSlot n
  let c := x.chunk k
  if !x.armed ∨ x.serial ≠ serial then s
  else match c.operand with
    | none => s
    | some r =>
      if st ≠ .ok then s.updChunk n k (fun c => { c with operand := none, opBack := some st })
      else
        let s := ctxBytes x.ten x.ctx r.piece.2.2 s
        let r := r.took data
        if r.pos < r.len then
          submitPiece (.operand n k serial) r x.ten x.ctx false (s.updChunk n k (fun c => { c with operand := some r }))
        else if isMx x.fmt ∧ !c.opScales then
          let z : RangeIo :=
            { wr := false, addr := x.srcScale + scaleBytes x.fmt (k * x.chunkElems), len := scaleBytes x.fmt (x.chunkLen k) }
          submitPiece (.operand n k serial) z x.ten x.ctx false
            (s.updChunk n k (fun c => { c with operand := some z, opData := r.buf, opScales := true }))
        else s.updChunk n k (fun c => { c with
          operand := some r, opData := if c.opScales then c.opData else r.buf, opBack := some .ok })

/-- A line of a chunk's store has come back (R261). -/
def storeLine (n k serial : Nat) (st : Status) (s : State) : State :=
  let x := s.getSlot n
  if !x.armed ∨ x.serial ≠ serial then s
  else match (x.chunk k).store with
    | [] => s
    | r :: t =>
      if st ≠ .ok then s.updChunk n k (fun c => { c with store := [], storeBack := some st })
      else
        let s := ctxBytes x.ten x.ctx r.piece.2.2 s
        let r := r.took []
        let s := s.updChunk n k (fun c => { c with store := if r.len ≤ r.pos then t else r :: t })
        storeNext n k s

/-! ### The datapath's own progress -/

/-- Take what a chunk can take: an accumulator entry, its operand read, its fold, its output. -/
def chunkPump (n k : Nat) (s : State) : State :=
  let x := s.getSlot n
  let c := x.chunk k
  let due := if x.hasLocal then decide (k < x.nextChunk) else !c.staged.isEmpty
  let s :=
    if !c.entry ∧ !c.done ∧ due ∧ s.accUsed < 32 then
      let s := s.updChunk n k (fun c => { c with entry := true })
      if x.hasLocal then operandStart n k s else s
    else s
  let s := foldChunk n k ((s.getSlot n).chunk k).staged.length.succ s
  let c := (s.getSlot n).chunk k
  match c.acc with
  | some a => if a.count = x.expect ∧ !c.done then chunkOutput n k s else s
  | none => s

/-- Bring an armed slot forward: its due chunks in ascending ELEM_OFF, then the others it has partials for. -/
def slotPump (n : Nat) (s : State) : State :=
  let x := s.getSlot n
  if !x.armed then s
  else
    let due := (List.range (min x.nextChunk x.chunkCount)).filter (fun k => x.hasLocal && !(x.chunk k).done)
    let more := (x.chunks.map (·.idx)).filter (fun k => !due.contains k && !(x.chunk k).done)
    (due ++ more).foldl (fun s k => if (s.getSlot n).armed then chunkPump n k s else s) s

/-- Bring every armed slot forward. -/
def redPump (s : State) : State :=
  (s.red.slots.filter (fun p => p.2.armed)).foldl (fun s p => slotPump p.1 s) s

/-! ### REDUCE frames (R255 to R258) -/

/-- A header error (R257, row 1): the event goes to the session's tenant; the manual gives it no STATUS, which
is a free value. -/
def hdrErr (sess slot : Nat) (s : State) : State :=
  let f := s.free
  let x := f.2.getSess sess
  let s := redCnt 0x148 f.2
  match tenMoor x.ten with
  | none => s
  | some t => raiseTo (s.getMoor t).win.async (unitRecord (f.1 % 256) (48 + t) 24 9 x.ten 0 slot sess s.now) s

/-- A slot outside the range (R257, row 2). -/
def permErr (sess slot : Nat) (s : State) : State :=
  let f := s.free
  let x := f.2.getSess sess
  let s := raiseTo f.2.ev.ownerAsync (unitRecord (f.1 % 256) 304 24 9 x.ten 0 slot sess f.2.now) (redCnt 0x140 f.2)
  match tenMoor x.ten with
  | none => s
  | some t => raiseTo (s.getMoor t).win.async (unitRecord (f.1 % 256) (48 + t) 24 9 x.ten 0 slot sess s.now) s

/-- Examine a released REDUCE frame (R257); `again` for one that has waited. -/
def redExamine (again : Bool) (w : RedWait) (s : State) : State :=
  let d := w.data
  let f := fun (o n : Nat) => leNat (slice o n d)
  let fmt := f 1 1 % 16
  let wide := bit1 4 (f 1 1)
  let elems := f 8 2
  let cnt := f 12 2
  let bad := decide (d.length < 32 ∨ 4 ≤ f 0 1 ∨ 13 ≤ fmt ∨ 32 ≤ f 1 1 ∨ 1024 ≤ f 2 2 ∨ f 14 2 ≠ 0 ∨ f 24 8 ≠ 0 ∨
    cnt = 0 ∨ 16384 < cnt ∨ d.length ≠ 32 + dataBytes (wireFmt fmt wide) elems ∨ (isMx fmt ∧ elems % 32 ≠ 0))
  let n := f 2 2 % 1024
  let tag := f 16 8
  let x := s.getSlot n
  if bad then hdrErr w.sess n s
  else if !s.slotIn (s.getSess w.sess).ten n then permErr w.sess n s
  else if (!x.armed ∧ tag ≤ x.lastTag) ∨ (x.armed ∧ tag < x.tag) then redCnt 0x138 s
  else if !x.armed ∨ x.tag < tag then
    let s := if again then s else redCnt 0x130 s
    { s with red := { s.red with waits := s.red.waits ++ [{ w with slot := n, tag := tag }] } }
  else if x.op ≠ f 0 1 ∨ x.fmt ≠ fmt ∨ x.wide ≠ wide ∨ f 4 4 % x.chunkElems ≠ 0 ∨ x.elems ≤ f 4 4 ∨
      elems ≠ min x.chunkElems (x.elems - f 4 4) then slotFail n .eEncoding s
  else
    let k := f 4 4 / x.chunkElems
    let c := x.chunk k
    let o := x.off (f 10 2)
    let laps := c.covered.any (fun r => decide (o < r.1 + r.2 ∧ r.1 < o + cnt))
    if x.group ≤ f 10 2 ∨ x.expect < o + cnt ∨ (!x.arrival ∧ laps) ∨
        x.expect < (c.covered.map (·.2)).foldl (· + ·) 0 + cnt then slotFail n .eBounds s
    else
      let wf := x.wire
      let body := d.drop 32
      let p : Partial :=
        { first := f 10 2, count := cnt, quay := some (w.quay, beatsOf d.length), raw := w.header ++ d
          vals := decodeVals wf elems (body.take (elemBytes wf elems)) (body.drop (elemBytes wf elems)) }
      ctxBytes x.ten x.ctx d.length
        (s.updChunk n k (fun c => { c with staged := c.staged ++ [p], covered := c.covered ++ [(o, cnt)] }))

/-! ### Arming (R251 to R254, R258, R272) -/

/-- Check 1 of R252. -/
def Slot.badFields (x : Slot) : Bool :=
  decide (13 ≤ x.fmt ∨ x.group = 0 ∨ 16384 < x.group ∨ x.group ≤ x.base ∨ x.expect = 0 ∨ x.group < x.expect ∨
    (x.localRank ≠ noLocal ∧ (x.group ≤ x.localRank ∨ x.expect ≤ x.off x.localRank)) ∨
    x.chunkElems = 0 ∨ maxElems x.wire < x.chunkElems ∨ (isMx x.fmt ∧ x.chunkElems % 32 ≠ 0))

/-- Every slot of a world and mooring runs FIXED (R272, R489, R504, R578): by the committed mode image, by the
mooring's policy, or under replay mode. -/
def State.fixedOnly (s : State) (ten : Nat) : Bool :=
  bit1 6 (leNat (slice 8 8 s.fed.mode)) ||
    (match tenMoor ten with
     | none => false
     | some t => bit1 2 (s.getMoor t).adm.policy || (s.getMoor t).win.replay)

/-- Arm a slot whose checks have passed (R253, R254, R258): waiting frames of an earlier TAG are stale, those of
the new one are examined again in their release order. -/
def slotArm (n : Nat) (x : Slot) (s : State) : State :=
  let old := s.getSlot n
  let f := s.fresh
  let s := addRefs x.refs f.2
  let arr := x.arrival && s.red.arrivalEn && !s.fixedOnly x.ten
  let x := { x with armed := true, arrival := arr, lastTag := old.lastTag, lastSt := old.lastSt, serial := f.1
                    nextChunk := s.red.pfChunks }
  let s := ctxBegin x.ten x.ctx (trace x.ten 1 24 (if x.forward then 0x29 else 0x28) .ok x.ctx x.tag n s)
  let s := bumpTen x.ten 0x3038 1 (bumpIf arr (soundBase + 0x228) s)
  let s := s.setSlot n x
  if x.elems = 0 then slotDone n s
  else
    let mine := s.red.waits.filter (fun w => w.slot = n && decide (w.tag ≤ x.tag))
    let s := { s with red := { s.red with waits := s.red.waits.filter (fun w => !(w.slot = n && decide (w.tag ≤ x.tag))) } }
    mine.foldl (fun s w => redExamine true w s) s

/-! ### The rows OPERAND_ARRIVAL and CHUNK_STORE_DONE -/

/-- A local operand's lines have all come back (R259): it is decoded as the partial of LOCAL_RANK, or the slot
fails with the status of the line that failed. -/
def operandArrives (n k : Nat) (s : State) : State :=
  let x := s.getSlot n
  let c := x.chunk k
  if !x.armed then s
  else match c.opBack with
    | none => s
    | some .ok =>
      let vals := decodeVals x.fmt (x.chunkLen k) c.opData (match c.operand with | some r => r.buf | none => [])
      let p : Partial := { first := x.localRank, count := 1, vals := vals }
      s.updChunk n k (fun c => { c with
        staged := c.staged ++ [p], loaded := true, operand := none, opData := [], opBack := none })
    | some st => slotFail n st s

/-- Every store write of a chunk has come back (R261). -/
def chunkStored (n k : Nat) (s : State) : State :=
  let x := s.getSlot n
  if !x.armed then s
  else match (x.chunk k).storeBack with
    | none => s
    | some .ok => chunkOut n k s
    | some st => slotFail n st s

/-! ### Resets of the datapath (R254, R568) -/

/-- Every armed slot fails with a status, where `p` picks it. -/
def failSlots (p : Slot → Bool) (st : Status) (s : State) : State :=
  (s.red.slots.filter (fun e => e.2.armed && p e.2)).foldl (fun s e => slotFail e.1 st s) s

end Sys2Proof.Machine
end

