-- ==== Sys2Proof/Machine/MemOps.lean ====
section
/-! DEFINITION. Remote memory: MEM packets, the release of frames, requests served at the target, replies at
the initiator, and pool lines (R219, R385 to R406). -/

namespace Sys2Proof.Machine

/-! ### MEM packets (R385, R386) -/

/-- The fields of a MEM header. -/
structure MemHdr where
  kind   : Nat
  status : Nat := 0
  attr   : Nat := 0
  flags  : Nat := 0
  len    : Nat := 0
  handle : Nat := 0
  rid    : Nat := 0
  off    : Nat := 0
  anum   : Nat := 0
  deriving DecidableEq, Repr

def MemHdr.bytes (h : MemHdr) : Bytes :=
  leBytes 1 h.kind ++ leBytes 1 h.status ++ leBytes 1 h.attr ++ leBytes 1 h.flags ++ leBytes 4 h.len ++ leBytes 4 h.handle ++
    leBytes 4 h.rid ++ leBytes 8 h.off ++ leBytes 8 h.anum

def memHdr (b : Bytes) : MemHdr :=
  let f := fun (o n : Nat) => leNat (slice o n b)
  { kind := f 0 1, status := f 1 1, attr := f 2 1, flags := f 3 1, len := f 4 4, handle := f 8 4, rid := f 12 4
    off := f 16 8, anum := f 24 8 }

/-- Where a packet of the block's own goes: to the sources of its session's home quay. -/
def sendStrand (it : TxItem) (s : State) : State :=
  s.updQuay (s.getSess it.sess).quay (fun x => { x with strandTx := x.strandTx ++ [it] })

/-- The metadata area of a mooring (R490): the offset of a part from LBASE. -/
def up4k (n : Nat) : Nat := (n + 4095) / 4096 * 4096
def Admission.offAlloc (a : Admission) : Nat := up4k (2 ^ a.ctxLog2 * 32)
def Admission.offAreas (a : Admission) : Nat := a.offAlloc + up4k (131072 * (a.scratch + a.pool))
def Admission.offTrace (a : Admission) : Nat := a.offAreas + up4k (a.sessMax * 32768)
def Admission.offDump (a : Admission) : Nat := a.offTrace + up4k (a.traceKib * 1024)
def Admission.metaBase (a : Admission) : Nat := fld 51 13 a.keyL + a.lbase

/-- The address of the record of an ANUM (R400): none where the session has no area. -/
def State.recordAddr (s : State) (i anum : Nat) : Option Nat :=
  let x := s.getSess i
  match tenMoor x.ten with
  | none => if s.fed.reg.osValid then some (s.fed.reg.osBase + 32768 * i + 32 * (anum % 1024)) else none
  | some t =>
    let a := (s.getMoor t).adm
    x.area.map (fun k => a.metaBase + a.offAreas + 32768 * k + 32 * (anum % 1024))

/-! ### Replies of the target (R392) -/

/-- Send a reply on a session, as opened with a serial; it goes nowhere once that opening has ended. -/
def reply (i serial : Nat) (h : MemHdr) (st : Status) (len : Nat) (d : Bytes) (s : State) : State :=
  let x := s.getSess i
  let s := if st = .ok then s else bump (fedBase + 0x4908) s
  if x.serial ≠ serial ∨ (x.state ≠ .opened ∧ x.state ≠ .migrating) then s
  else
    let r := { h with kind := h.kind % 128 + 128, status := st.code, len := len }
    s.updQuay x.quay (fun q => { q with
    memTx := q.memTx ++
      [{ sess := i, typ := 2, data := r.bytes ++ d, ten := x.ten, ctx := 0, org := .reply }] })

/-- Is the request of a counted kind? -/
def MemHdr.counted (h : MemHdr) : Bool := h.kind = 3 || h.kind = 4

/-- The reply's LEN and data where the status is not OK, or nothing was done (R386). -/
def MemHdr.nil (h : MemHdr) : Nat × Bytes := if h.counted then (8, zeros 8) else (0, [])

/-- The record of a counted operation's outcome is written; the reply does not wait for it (R400). -/
def keepRecord (i : Nat) (h : MemHdr) (st : Status) (value : Bytes) (s : State) : State :=
  match s.recordAddr i h.anum with
  | none => s
  | some a =>
    let r := startOp { own := .block, ten := (s.getSess i).ten, ctx := 0, code := 0, body := .recordWrite, counted := false } s
    ioWrite r.1 a (leBytes 8 h.anum ++ value ++ [BitVec.ofNat 8 st.code, BitVec.ofNat 8 h.kind] ++ zeros 14) r.2

/-- Answer a request: a counted one is recorded, whatever its status (R401). -/
def answer (i serial : Nat) (h : MemHdr) (st : Status) (len : Nat) (d : Bytes) (s : State) : State :=
  if h.counted ∧ 0 < h.anum ∧ h.anum ≤ (s.getSess i).wmark then reply i serial h st 8 (slice 0 8 d) (keepRecord i h st (slice 0 8 d) s)
  else reply i serial h st len d s

/-- The operation of a served request has ended: its reply. -/
def targetEnd (id : Nat) (s : State) : State :=
  let op := s.getOp id
  let s := (closeOp id s).2
  match op.own with
  | .target i serial header =>
    let h := memHdr header
    match op.body with
    | .tgtWrite => answer i serial h op.st op.res [] s
    | .tgtRead =>
      if op.st = .ok then answer i serial h .ok h.len (match op.io with | some r => r.buf | none => []) s
      else answer i serial h op.st 0 [] s
    | .tgtAtom _ _ _ _ _ prior =>
      let v := if op.st = .ok ∧ bit1 4 h.attr then prior else 0
      answer i serial h op.st 8 (leBytes 8 v) s
    | .tgtSignal _ _ _ => answer i serial h op.st 8 (leBytes 8 op.res) s
    | .tgtPoolRead _ images _ =>
      if op.st = .ok then answer i serial h .ok h.len images s else answer i serial h op.st 0 [] s
    | .tgtPoolWrite _ _ => answer i serial h op.st 0 [] s
    | _ => s
  | _ => s

/-! ### Release of frames (R219, R257, R388, R501) -/

/-- The frame after REL has been released (R219, R220). -/
def advanceRel (i : Nat) (s : State) : State :=
  let x := s.getSess i
  let n := (Tab.get ({ typ := 0, data := [], gen := 0 } : RxFrame) x.rx (x.rel + 1)).data.length
  let s := s.setSess i { x with rel := x.rel + 1, rx := Tab.erase x.rx (x.rel + 1) }
  let s := bumpTen x.ten 0x3020 1 (bumpTen x.ten 0x3030 n (beat (8 + x.quay) s))
  releaseNoted i s

/-- A packet of the memory path has taken effect: where it was the last of its frame, REL advances. -/
def packetTaken (i : Nat) (s : State) : State :=
  let x := s.getSess i
  let f := Tab.get ({ typ := 0, data := [], gen := 0 } : RxFrame) x.rx (x.rel + 1)
  if f.done ≠ 0 ∧ !(s.getQuay x.quay).memIn.any (fun m => m.sess = i) then advanceRel i s else s

/-- A payload that a posted RECV takes (R363): the bytes it still lacks; the rest of the payload is dropped. -/
def recvTake (id : Nat) (data : Bytes) (s : State) : State :=
  let op := s.getOp id
  match op.body with
  | .recv i loc len taken queued =>
    let n := min data.length (len - taken)
    let op := { op with
      body := .recv i loc len (taken + n) (queued ++ [(loc + taken, data.take n)])
      st := if n < data.length ∧ op.st = .ok then .eLength else op.st }
    let s := ctxBytes op.ten op.ctx n (s.setOp id op)
    if taken + n = len then s.updSess i (fun x => { x with recv := none }) else s
  | _ => s

/-- Start what a RECV or a GET has queued to write, or end it (R363, R364). -/
def writesNext (id : Nat) (s : State) : State :=
  let op := s.getOp id
  if !s.hasOp id ∨ op.fin ∨ op.io.isSome then s
  else match op.body with
    | .recv i loc len taken queued =>
      match queued with
      | (a, d) :: t => ioWrite id a d (s.setOp id { op with body := .recv i loc len taken t })
      | [] => if taken = len then finishOp id op.st 0 0 s else s
    | .get i pieces writes =>
      match writes with
      | (a, d) :: t => ioWrite id a d (s.setOp id { op with body := .get i pieces t })
      | [] => if pieces.isEmpty then finishOp id op.st 0 0 s else s
    | _ => s

/-- RELEASE_FRAME: the payload after REL leaves the quay (R219). A MEM or BULK payload is handed to the memory
path, and REL advances when its last packet has taken effect (R388, R392). `fed` takes a federation message. -/
def releaseFrame (fed : Nat → Bytes → State → State) (i : Nat) (s : State) : State :=
  let x := s.getSess i
  let q := x.quay
  if x.state ≠ .opened ∨ !s.runs (8 + q) ∨ s.closedDom (8 + q) ∨ !x.rx.any (fun f => f.1 = x.rel + 1) then s
  else
    let f := Tab.get ({ typ := 0, data := [], gen := 0 } : RxFrame) x.rx (x.rel + 1)
    if f.done ≠ 0 then s
    else if f.typ = 0 then
      if x.fed then advanceRel i (fed i f.data s)
      else match x.recv with
        | some id => advanceRel i (writesNext id (recvTake id f.data s))
        | none => if (s.getQuay q).rxReady then advanceRel i (emit (.flRx q i 0 x.ten f.data) s) else s
    else if f.typ = 1 then advanceRel i (redExamine false { quay := q, sess := i, slot := 0, tag := 0, data := f.data, header := f.header } s)
    else
      let recs := if f.typ = 2 then [f.data] else (bulkRecords 2048 f.data).getD []
      let good := recs.filter (fun r => decide (32 ≤ r.length))
      let s := (List.range (recs.length - good.length)).foldl (fun s _ => bump (fedBase + 0x4948) s) s
      if good.isEmpty then advanceRel i s
      else
        let s := s.setSess i { x with rx := Tab.put x.rx (x.rel + 1) { f with done := 1 } }
        s.updQuay q (fun y => { y with memIn := y.memIn ++ good.map (fun r => { sess := i, data := r }) })

/-! ### Requests at the target (R390, R391, R395, R401) -/

/-- A merge entry is free on the engine that owns a line (R404). -/
def State.mergeRoom (s : State) (addr : Nat) : Bool :=
  match s.ownerOf (bit1 50 addr) (addr % 2 ^ 50 / 128 * 128) with
  | none => true
  | some (n, _, _) => decide ((s.eng n).mergeHeld < 64)

/-- The partial lines of a range find their merge entries free. -/
def State.partsRoom (s : State) (addr len : Nat) : Bool :=
  (addr % 128 = 0 && decide (128 ≤ len)) && ((addr + len) % 128 = 0 || s.mergeRoom (addr + len - 1)) ||
    (!(addr % 128 = 0 && decide (128 ≤ len)) && s.mergeRoom addr && s.mergeRoom (addr + len - 1))

/-- Check 2 of R390 (R385, R386, R368). -/
def MemHdr.bad (h : MemHdr) (n : Nat) : Bool :=
  let aop := h.attr % 4
  let typ := h.attr / 4 % 4
  decide (h.kind < 1 ∨ 6 < h.kind ∨ h.status ≠ 0 ∨ 4 ≤ h.flags ∨ 32 ≤ h.attr ∨ (h.attr ≠ 0 ∧ h.kind ≠ 3)) ||
    (h.counted && h.anum = 0) || (!h.counted && decide (h.anum ≠ 0)) ||
    (h.kind = 3 && decide (h.len ≠ 16 ∨ typ = 3 ∨ (aop = 3 ∧ (typ = 2 ∨ h.attr < 16)) ∨
      h.off % (if typ = 1 then 8 else 4) ≠ 0)) ||
    (h.kind = 4 && decide (h.len ≠ 8 ∨ h.off ≠ 0)) ||
    ((h.kind = 5 || h.kind = 6) && decide (h.handle ≠ 0 ∨ h.len % 136 ≠ 0 ∨ h.len = 0 ∨ 544 < h.len)) ||
    (if h.kind = 2 ∨ h.kind = 5 then decide (n ≠ 0)
     else if h.kind = 1 ∧ 2016 < h.len then false else decide (n ≠ h.len))

/-- Checks 5 to 8 of R390 for an object. -/
def State.tgtChecks (s : State) (ten : Nat) (h : MemHdr) : Status :=
  let o := s.getObj (handleIdx h.handle)
  let touched := if h.kind = 3 then (if h.attr / 4 % 4 = 1 then 8 else 4) else h.len
  let zero := decide (handleIdx h.handle = 0)
  firstFail .ok
    [(!zero && o.bad, .eIntegrity),
     (!zero && !s.handleLive h.handle, .eStale), (!zero && s.objBad h.handle, .eIntegrity),
     (!zero && decide (o.ten ≠ ten), .ePermission),
     (zero || (if h.kind = 4 then decide (o.typ ≠ .bollard) else if h.kind = 3 then
        decide (o.typ ≠ .memory) || bit1 50 o.addr else decide (o.typ = .bollard)), .eEncoding),
     (decide (h.kind ≠ 4 ∧ o.size < h.off + touched), .eBounds)]

/-- Start the operation of a request that has passed its checks. -/
def tgtStart (i : Nat) (header : Bytes) (body : Body) (refs : List Nat) (s : State) : Nat × State :=
  let x := s.getSess i
  startOp { own := .target i x.serial header, ten := x.ten, ctx := 0, code := 0, body := body, refs := refs, counted := false } s

/-- The RECV that a SIGNAL comes behind, with the bytes it had taken (R372). -/
def State.recvMark (s : State) (i : Nat) : Option (Nat × Nat) :=
  (s.getSess i).recv.map (fun id => (id, match (s.getOp id).body with | .recv _ _ _ t _ => t | _ => 0))

/-- Apply a request past check 4 (R391, R395). -/
def tgtApply (i : Nat) (h : MemHdr) (pkt data : Bytes) (s : State) : State :=
  let x := s.getSess i
  let obj := handleIdx h.handle
  let st := s.tgtChecks x.ten h
  let addr := (s.getObj obj).addr + h.off
  if st ≠ .ok then answer i x.serial h st h.nil.1 h.nil.2 s
  else
    let hd := pkt.take 32
    match h.kind with
    | 1 => let r := tgtStart i hd .tgtWrite [obj] s; ioWrite r.1 addr (data.take h.len) r.2
    | 2 => let r := tgtStart i hd .tgtRead [obj] s; ioRead r.1 addr h.len r.2
    | 3 =>
      let typ := h.attr / 4 % 4
      let w := if typ = 1 then 8 else 4
      let a := leNat (slice 0 w data)
      let c := leNat (slice 8 w data)
      let r := tgtStart i hd (.tgtAtom (h.attr % 4) typ (addr % 128) a c 0) [obj] s
      -- the data of the beat are made in the merge step; a beat of every byte stands for them until then
      ioWrite r.1 addr (zeros w) r.2
    | _ => (tgtStart i hd (.tgtSignal obj (leNat (slice 0 8 data)) (s.recvMark i)) [obj] s).2

/-- A counted request that is not the next one (R401). -/
def tgtReplay (i : Nat) (h : MemHdr) (pkt : Bytes) (s : State) : State :=
  let x := s.getSess i
  let lost (s : State) : State :=
    reply i x.serial h (if h.kind = 4 then .ok else .eAtomLost) 8 (zeros 8) (bump (fedBase + 0x4920) s)
  if x.wmark + 1 < h.anum then reply i x.serial h .eSeq 8 (zeros 8) (bump (fedBase + 0x4928) s)
  else if h.anum + 1023 < x.wmark then lost s
  else match s.recordAddr i h.anum with
    | none => lost s
    | some a =>
      let r := tgtStart i (pkt.take 32) (.tgtRecord h.anum h.kind) [] s
      ioRead r.1 a 32 r.2

/-- The record of a counted request has been read (R401). -/
def recordRead' (id : Nat) (st : Status) (rec' : Bytes) (s : State) : State :=
  let op := s.getOp id
  let s := (closeOp id s).2
  match op.own, op.body with
  | .target i serial header, .tgtRecord anum kind =>
    let h := memHdr header
    if st = .ok ∧ leNat (slice 0 8 rec') = anum then
      reply i serial h (Status.ofCode (leNat (slice 16 1 rec'))) 8 (slice 8 8 rec') (bump (fedBase + 0x4918) s)
    else reply i serial h (if kind = 4 then .ok else .eAtomLost) 8 (zeros 8) (bump (fedBase + 0x4920) s)
  | _, _ => s

/-- A pool request past check 4 (R406). -/
def poolServe (i : Nat) (h : MemHdr) (pkt data : Bytes) (s : State) : State :=
  let x := s.getSess i
  let p := s.fed.reg.pstore
  let n := h.len / 136
  let st := firstFail .ok [(decide (tenMoor x.ten ≠ none) || !p.valid, .ePermission), (decide (p.lines < h.off + n), .eBounds)]
  if st ≠ .ok then reply i x.serial h st 0 [] s
  else if h.kind = 5 then
    let r := tgtStart i (pkt.take 32) (.tgtPoolRead ((List.range n).map (h.off + ·)) [] []) [] s
    ioRead r.1 (fld 51 13 p.keyid + p.base + 128 * h.off) 128 r.2
  else
    let ls := (List.range n).map (fun k => (h.off + k, slice (136 * k) 136 data))
    let r := tgtStart i (pkt.take 32) (.tgtPoolWrite ls true) [] s
    ioWrite r.1 (fld 51 13 p.keyid + p.base + 128 * h.off) (slice 0 128 data) r.2

/-- Address of the tag of a store line (R406). -/
def Pstore.tagAddr (p : Pstore) (i : Nat) : Nat := fld 51 13 p.keyid + p.base + 128 * (p.lines + i / 16) + 8 * (i % 16)
def Pstore.dataAddr (p : Pstore) (i : Nat) : Nat := fld 51 13 p.keyid + p.base + 128 * i

/-- A part of a pool read or write has come back OK: the tag of the line, or the next line (R406). -/
def poolPart (id : Nat) (buf : Bytes) (s : State) : State :=
  let op := s.getOp id
  let p := s.fed.reg.pstore
  match op.body with
  | .tgtPoolRead lines images cur =>
    match lines with
    | [] => finishOp id .ok 0 0 s
    | l :: t =>
      if cur.isEmpty then ioRead id (p.tagAddr l) 8 (s.setOp id { op with body := .tgtPoolRead lines images buf })
      else
        let s := bump (fedBase + 0x4938) (s.setOp id { op with body := .tgtPoolRead t (images ++ cur ++ buf) [] })
        match t with
        | [] => finishOp id .ok 0 0 s
        | m :: _ => ioRead id (p.dataAddr m) 128 s
  | .tgtPoolWrite lines tagNext =>
    match lines with
    | [] => finishOp id .ok 0 0 s
    | l :: t =>
      if tagNext then ioWrite id (p.tagAddr l.1) (l.2.drop 128) (s.setOp id { op with body := .tgtPoolWrite lines false })
      else
        let s := bump (fedBase + 0x4940) (s.setOp id { op with body := .tgtPoolWrite t true })
        match t with
        | [] => finishOp id .ok 0 0 s
        | m :: _ => ioWrite id (p.dataAddr m.1) (m.2.take 128) s
  | _ => s

/-- Serve the request at the front of a quay's memory path (R390): `kinds` are the row's. A request whose
partial lines find no merge entry stays (R404). -/
def serve (q : Nat) (kinds : Nat → Bool) (s : State) : State :=
  match (s.getQuay q).memIn with
  | [] => s
  | m :: _ =>
    let h := memHdr m.data
    let data := m.data.drop 32
    let i := m.sess
    let x := s.getSess i
    if !kinds h.kind ∨ 128 ≤ h.kind ∨ !s.runs (8 + q) then s
    else
      let o := s.getObj (handleIdx h.handle)
      let addr := o.addr + h.off
      let room := !(h.kind = 1 || h.kind = 3) || (s.tgtChecks x.ten h ≠ .ok) || h.bad data.length ||
        (h.kind = 1 && decide (h.len = 0 ∨ 2016 < h.len)) || (h.kind = 3 && decide (h.anum ≠ x.wmark + 1)) ||
        s.partsRoom addr (if h.kind = 3 then 1 else h.len)
      if !room then s
      else
        let s := s.updQuay q (fun y => { y with memIn := y.memIn.drop 1 })
        let s := packetTaken i (bump (fedBase + 0x4900) s)
        if s.closedDom (8 + q) then reply i x.serial h .eFenced h.nil.1 h.nil.2 s
        else if h.bad data.length then reply i x.serial h .eEncoding h.nil.1 h.nil.2 s
        else if h.counted ∧ h.anum ≠ x.wmark + 1 then tgtReplay i h m.data s
        else
          let s := if h.counted then bump (fedBase + 0x4910) (s.updSess i (fun y => { y with wmark := h.anum })) else s
          if 2016 < h.len then answer i x.serial h .eLength h.nil.1 h.nil.2 s
          else if h.len = 0 then answer i x.serial h .ok 0 [] s
          else if h.kind = 5 ∨ h.kind = 6 then poolServe i h m.data data s
          else tgtApply i h m.data data s

/-- A SIGNAL is applied once everything released before it on its session has taken effect (R372). -/
def signalApply (id : Nat) (s : State) : State :=
  let op := s.getOp id
  match op.own, op.body with
  | .target i _ _, .tgtSignal obj v mark =>
    let earlier := s.ops.any (fun p => decide (p.1 < id) && !p.2.fin &&
      (match p.2.own with | .target j _ _ => j = i | _ => false))
    let recvs := s.ops.any (fun p => decide (p.1 < id) && !p.2.fin && (match p.2.body with
      | .recv j _ _ taken queued =>
        let left := (queued.map (fun e => e.2.length)).foldl (· + ·) 0 + (match p.2.io with | some r => r.len | none => 0)
        j = i && (match mark with | some (r, m) => if r = p.1 then decide (taken - left < m) else true | none => true)
      | _ => false))
    if op.fin ∨ earlier ∨ recvs then s
    else
      let r := signalAdd obj v s
      finishOp id r.1 r.2.1 0 r.2.2
  | _, _ => s

/-! ### Replies at the initiator (R388, R389, R399, R403) -/

/-- The pending entry that a reply of a counted operation ends (R399). -/
def takePend (q i anum : Nat) (s : State) : Option Pend × State :=
  match (s.getQuay q).pend.find? (fun p => p.sess = i && p.anum = anum) with
  | none => (none, s)
  | some p => (some p, s.updQuay q (fun x => { x with pend := x.pend.erase p }))

/-- The length of the next piece of a PUT or GET (R389). -/
def putPiece (off len : Nat) : Nat :=
  if len ≤ 1920 then len else 1920 - (off + 1920) % 128

/-- Continue a PUT (R389): read the next piece, or end when every piece has been answered. -/
def putNext (id : Nat) (s : State) : State :=
  let op := s.getOp id
  match op.body with
  | .put loc _ _ off len rids =>
    if op.fin ∨ op.io.isSome then s
    else if len = 0 ∨ op.st ≠ .ok then (if rids.isEmpty then finishOp id op.st 0 0 s else s)
    else ioRead id loc (putPiece off len) s
  | _ => s

/-- A piece of a PUT has been read: its WRITE is handed over (R389). -/
def putLoaded (id : Nat) (d : Bytes) (s : State) : State :=
  let op := s.getOp id
  match op.body with
  | .put loc i handle off len rids =>
    let f := s.fresh
    let rid := f.1 % 2 ^ 32
    let h : MemHdr := { kind := 1, flags := 1, len := d.length, handle := handle, rid := rid, off := off }
    let s := f.2.setOp id { op with io := none
                                    body := .put (loc + d.length) i handle (off + d.length) (len - d.length) (rids ++ [rid]) }
    putNext id (sendStrand { sess := i, typ := 2, data := h.bytes ++ d, ten := op.ten, ctx := op.ctx, org := .op id } s)
  | _ => s

/-- The pieces of a GET: (remote offset, length) (R389). -/
def getPieces : Nat → Nat → Nat → List (Nat × Nat)
  | 0, _, _ => []
  | n + 1, off, len =>
    if len = 0 then [] else (off, putPiece off len) :: getPieces n (off + putPiece off len) (len - putPiece off len)

/-- The pieces and the READ packets of a GET (R364, R389); the operation hands the packets over when it
begins. -/
def getPrepare (id loc i handle off len : Nat) (s : State) : State :=
  (getPieces (len / 1793 + 2) off len).foldl (fun s p =>
    let op := s.getOp id
    let f := s.fresh
    let rid := f.1 % 2 ^ 32
    let h : MemHdr := { kind := 2, flags := 1, len := p.2, handle := handle, rid := rid, off := p.1 }
    match op.body with
    | .get _ pieces w =>
      f.2.setOp id { op with body := .get i (pieces ++ [(rid, loc + (p.1 - off), p.2)]) w, pkts := op.pkts ++ [h.bytes] }
    | _ => f.2) s

/-- A frame's worth of a SEND has been read: it is handed over (R362). -/
def sendNext (id : Nat) (s : State) : State :=
  let op := s.getOp id
  match op.body with
  | .send _ loc len n =>
    if op.fin ∨ op.io.isSome then s
    else if op.st ≠ .ok then (if n = 0 then finishOp id op.st 0 0 s else s)
    else if len = 0 then s
    else ioRead id loc (min 2048 len) s
  | _ => s

def sendLoaded (id : Nat) (d : Bytes) (s : State) : State :=
  let op := s.getOp id
  match op.body with
  | .send i loc len n =>
    let s := s.setOp id { op with io := none, body := .send i (loc + d.length) (len - d.length) (n + 1) }
    sendNext id (sendStrand { sess := i, typ := 0, data := d, ten := op.ten, ctx := op.ctx, org := .op id } s)
  | _ => s

/-- Has an operation handed over every packet it will send? -/
def Op.handed (o : Op) : Bool :=
  o.fin || (o.begun && (match o.body with
    | .put _ _ _ _ len _ => decide (len = 0 ∨ o.st ≠ .ok)
    | .send _ _ len _ => decide (len = 0 ∨ o.st ≠ .ok)
    | _ => true))

/-- Does an operation of the same strand on the same session stand before this one (R347)? A RECV sends
nothing. -/
def State.sessBlocked (s : State) (id : Nat) (o : Op) : Bool :=
  s.ops.any (fun p => decide (p.1 < id) && !p.2.handed && decide (p.2.body.session = o.body.session) &&
    (match p.2.own, o.own with | .strand a b _, .strand c d _ => a = c && b = d | _, _ => false))

/-- An operation on a session begins, once its turn has come: its packets are handed over, or its data read. -/
def beginOp (id : Nat) (s : State) : State :=
  let op := s.getOp id
  if op.begun ∨ op.fin ∨ s.sessBlocked id op then s
  else match op.body.session with
    | none => s
    | some i =>
      let s := s.setOp id { op with begun := true, pkts := [] }
      let s := op.pkts.foldl (fun s d =>
        sendStrand { sess := i, typ := 2, data := d, ten := op.ten, ctx := op.ctx, org := .op id } s) s
      sendNext id (putNext id s)

/-- The operation of a strand that awaits a reply with an identifier. -/
def State.awaiting (s : State) (i rid : Nat) : Option Nat :=
  (s.ops.find? (fun p => !p.2.fin && (match p.2.body with
    | .put _ j _ _ _ rids => j = i && rids.contains rid
    | .get j pieces _ => j = i && pieces.any (fun e => e.1 = rid)
    | .atom j _ _ _ => j = i && p.1 % 2 ^ 32 = rid
    | .rsig j => j = i && p.1 % 2 ^ 32 = rid
    | .poolReq _ j _ _ => j = i && p.1 % 2 ^ 32 = rid
    | _ => false))).map (·.1)

/-- A reply that is a tile's is handed to the flit receive port; a counted one ends its pending entry, and a
fetching ATOM whose result is lost marks the tile's context (R388, R403). -/
def tileReply (q i : Nat) (h : MemHdr) (pkt : Bytes) (s : State) : State :=
  let s := emit (.flRx q i 2 (s.getSess i).ten pkt) s
  if h.kind = 0x83 ∨ h.kind = 0x84 then
    let r := takePend q i h.anum s
    match r.1 with
    | some p =>
      if h.kind = 0x83 ∧ h.status = Status.eAtomLost.code ∧ bit1 4 h.attr then markLost p.ten p.ctx .eAtomLost r.2 else r.2
    | none => r.2
  else s

/-- A reply ends the piece or the operation that it answers (R388, R389, R368, R372). -/
def strandReply (q i : Nat) (h : MemHdr) (data : Bytes) (s : State) : State :=
  let st := Status.ofCode h.status
  let s := if h.kind = 0x83 ∨ h.kind = 0x84 then (takePend q i h.anum s).2 else s
  match s.awaiting i h.rid with
  | none => s
  | some id =>
    let op := s.getOp id
    match op.body with
    | .put loc j hd off len rids =>
      if h.kind ≠ 0x81 then s
      else
        let op := { op with body := .put loc j hd off len (rids.erase h.rid), st := if op.st = .ok then st else op.st }
        putNext id (s.setOp id op)
    | .get j pieces writes =>
      if h.kind ≠ 0x82 then s
      else
        let p := (pieces.find? (fun e => e.1 = h.rid)).getD (0, 0, 0)
        let w := if st = .ok then writes ++ [(p.2.1, slice 0 p.2.2 data)] else writes
        let op := { op with body := .get j (pieces.filter (fun e => e.1 ≠ h.rid)) w, st := if op.st = .ok then st else op.st }
        let s := ctxBytes op.ten op.ctx (if st = .ok then p.2.2 else 0) (s.setOp id op)
        writesNext id s
    | .atom _ _ fetch _ =>
      if h.kind ≠ 0x83 then s
      else finishOp id (if st = .eAtomLost ∧ !fetch then .ok else st) (leNat (slice 0 8 data)) 0 s
    | .rsig _ => if h.kind ≠ 0x84 then s else finishOp id st 0 0 s
    | _ => s

/-- The reply at the front of a quay's memory path, where it is of the row's kind (R388). -/
def takeReply (q : Nat) (kinds : Nat → Bool) (f : Nat → MemHdr → Bytes → State → State) (s : State) : State :=
  match (s.getQuay q).memIn with
  | [] => s
  | m :: _ =>
    let h := memHdr m.data
    if !kinds h.kind ∨ h.kind < 128 ∨ !s.runs (8 + q) ∨ (!bit1 0 h.flags && !(s.getQuay q).rxReady) then s
    else
      let s := s.updQuay q (fun y => { y with memIn := y.memIn.drop 1 })
      packetTaken m.sess (f m.sess h m.data s)

/-- A reply to a strand or a tile. -/
def memReply (q i : Nat) (h : MemHdr) (pkt : Bytes) (s : State) : State :=
  if bit1 0 h.flags then strandReply q i h (pkt.drop 32) s else tileReply q i h pkt s

/-! ### Pool lines (R405) -/

/-- The route that covers a pool byte address: the lowest-numbered valid one. -/
def State.route (s : State) (a : Nat) : Option Proute :=
  (s.fed.reg.proute.find? (fun p => p.2.valid && decide (p.2.base ≤ a ∧ a < p.2.limit))).map (·.2)

/-- End a pool line with a status (R405). -/
def poolLineFail (n : Nat) (r : DnReq) (st : Status) (s : State) : State :=
  match r.use with
  | .poison id => partDone n id false true s
  | .data id =>
    match (s.eng n).op? id with
    | none => s
    | some op =>
      match op.kind with
      | .read => endRead n op st (zeros 128) s
      | .rekey => endTurn n op 3 s
      | .scrub => if op.phase = .writing then writeDue n { op with wBad := false } s else endTurn n op 3 s
      | _ => endWrite n op st s
  | _ => s

/-- Take a pool request out of an engine's outstanding ones. -/
def takePool (n lineOp : Nat) (s : State) : Option DnReq × State :=
  let e := s.eng n
  match e.out.find? (fun r => r.pool && (match r.use with | .data o => o = lineOp | .poison o => o = lineOp | _ => false)) with
  | none => (none, s)
  | some r => (some r, s.setEng n { e with out := e.out.erase r })

/-- A pool request has ended with a status in place of its reply: each of its lines ends with it. -/
def poolEnd (id : Nat) (s : State) : State :=
  let op := s.getOp id
  let s := s.dropOp id
  match op.body with
  | .poolReq n _ _ lines =>
    let s := lines.foldl (fun s l =>
      let r := takePool n l s
      match r.1 with
      | none => r.2
      | some x => poolLineFail n x op.st r.2) s
    advance n s
  | _ => s

/-- Pool line images, or the acknowledgement of a pool write, have come back (R405). -/
def poolReply (i : Nat) (h : MemHdr) (data : Bytes) (s : State) : State :=
  match s.awaiting i h.rid with
  | none => s
  | some id =>
    match (s.getOp id).body with
    | .poolReq n _ wr lines =>
      if wr ≠ (h.kind = 0x86) then s
      else if h.status ≠ 0 then poolEnd id (s.updOp id (fun o => { o with st := Status.ofCode h.status }))
      else
        let s := s.dropOp id
        let s := (List.zip (List.range lines.length) lines).foldl (fun s (p : Nat × Nat) =>
          let r := takePool n p.2 s
          match r.1 with
          | none => r.2
          | some _ =>
            if wr then partDone n p.2 false false r.2
            else dataBack n p.2 (slice (136 * p.1) 128 data) (beNat (slice (136 * p.1 + 128) 8 data)) false r.2) s
        advance n s
    | _ => s

/-- Do two due requests travel together: lines of one upstream request, next to one another, in one route, both
reads or both writes (R405)? -/
def State.poolTogether (s : State) (n : Nat) (a b : DnReq) : Bool :=
  let org (r : DnReq) : Option Origin := match r.use with
    | .data o => ((s.eng n).op? o).map LineOp.org
    | _ => none
  match org a, org b with
  | some (.up l q i), some (.up l' q' j) =>
    l = l' && q = q' && a.wr == b.wr && i + 1 = j && s.route (a.line * 128) == s.route (b.line * 128)
  | _, _ => false

/-- The run of due requests that begins with one of them; at most four lines. -/
def State.poolRun (s : State) (n : Nat) : Nat → DnReq → List DnReq → List DnReq
  | 0, _, _ => []
  | k + 1, r, rest =>
    match rest.find? (fun x => s.poolTogether n r x) with
    | none => [r]
    | some x => r :: s.poolRun n k x rest

def DnReq.lineOp (r : DnReq) : Nat := match r.use with | .data o => o | .poison o => o | _ => 0

/-- Hand a run of pool lines over as one request on its route's session (R405): none while the session is
moving. -/
def poolIssue (n : Nat) (run : List DnReq) (s : State) : Option State :=
  match run with
  | [] => none
  | r :: _ =>
    let drop (s : State) : State := s.updEng n (fun e => { e with due := e.due.filter (fun x => !run.contains x) })
    match s.route (r.line * 128) with
    | none => some (run.foldl (fun s x => poolLineFail n x .eBounds s) (drop s))
    | some p =>
      let x := s.getSess p.sess
      let st := s.sendCheck x.quay p.sess
      if x.state = .migrating then none
      else if st ≠ .ok then some (run.foldl (fun s x => poolLineFail n x st s) (drop s))
      else
        let t := run.foldl (fun (a : Bytes × State) y =>
          let w := issueData n y a.2
          (a.1 ++ (if y.wr then slice 0 128 w.1.data ++ beBytes 8 w.1.sb else []),
           w.2.updEng n (fun e => { e with out := e.out ++ [w.1] }))) ([], drop s)
        let o := startOp { own := .block, ten := 0x100, ctx := 0, code := 0, counted := false
                           body := .poolReq n p.sess r.wr (run.map (·.lineOp)) } t.2
        let h : MemHdr := { kind := if r.wr then 6 else 5, flags := 1, len := 136 * run.length, rid := o.1 % 2 ^ 32
                            off := p.rline + (r.line * 128 - p.base) / 128 }
        let it : TxItem := { sess := p.sess, typ := 2, data := h.bytes ++ t.1, ten := 0x100, ctx := 0, org := .pool o.1 }
        some (o.2.updQuay x.quay (fun q => { q with memTx := q.memTx ++ [it] }))

/-- Hand over every pool line that may go; the first argument bounds the requests. -/
def poolHand (n : Nat) : Nat → State → State
  | 0, s => s
  | k + 1, s =>
    let l := (s.issuable n true [] (s.eng n).due).map (·.1)
    let heads := l.filter (fun r => !l.any (fun x => s.poolTogether n x r))
    match firstStart (fun r => poolIssue n (s.poolRun n 4 r l) s) heads with
    | none => s
    | some s => poolHand n k s

end Sys2Proof.Machine
end

