-- ==== Sys2Proof/Machine/StrandOps.lean ====
section
/-! DEFINITION. Quay programs: fetching, issue, the checks and effects of the strand instructions, and the end
of a strand (R343 to R382). SEALLD stands with the sealed weights. -/

namespace Sys2Proof.Machine

/-! ### Registers and fields (R343, R351, R352) -/

/-- A register: g0 reads zero. -/
def Strand.reg (x : Strand) (i : Nat) : Nat := if i = 0 then 0 else (Tab.get 0 x.g i).toNat

/-- Write a register: a write of g0 is discarded. -/
def setReg (q k i v : Nat) (s : State) : State :=
  if i = 0 then s else s.updStrand q k (fun x => { x with g := Tab.set 0 x.g i (BitVec.ofNat 64 v) })

/-- A register as a signed number. -/
def Strand.sreg (x : Strand) (i : Nat) : Int := signed64 (x.reg i)

def opcodeOf (w : Nat) : Nat := w / 2 ^ 56

/-- DISP and IMM: 32 bits in two's complement. -/
def disp32 (w : Nat) : Int := signed32 (w % 2 ^ 32)

/-- Bits of a word that R351 names for an opcode, the opcode's own included; none for a reserved opcode. -/
def insMask : Nat → Option Nat
  | 0x00 => some 0
  | 0x01 => some 0
  | 0x02 => some (2 ^ 24 - 1)
  | 0x03 => some (2 ^ 32 - 1)
  | 0x04 => some (fld 44 8 0xFF + (2 ^ 32 - 1))
  | 0x05 => some (fld 44 8 0xFF + (2 ^ 32 - 1))
  | 0x06 => some (fld 44 8 0xFF + (2 ^ 32 - 1))
  | 0x07 => some (fld 48 4 15 + (2 ^ 32 - 1))
  | 0x08 => some 0
  | 0x10 => some (fld 52 4 15 + fld 48 2 3 + (2 ^ 48 - 1))
  | 0x11 => some (fld 48 8 0xFF + (2 ^ 32 - 1))
  | 0x12 => some (fld 44 12 0xFFF)
  | 0x13 => some (fld 43 13 0x1FFF + (2 ^ 32 - 1))
  | 0x14 => some (fld 43 13 0x1FFF + (2 ^ 32 - 1))
  | 0x15 => some (fld 43 13 0x1FFF + (2 ^ 32 - 1))
  | 0x16 => some (fld 43 13 0x1FFF + (2 ^ 32 - 1))
  | 0x17 => some (fld 43 13 0x1FFF + (2 ^ 32 - 1))
  | 0x18 => some (fld 43 13 0x1FFF + (2 ^ 32 - 1))
  | 0x19 => some (fld 44 12 0xFFF + (2 ^ 32 - 1))
  | 0x1A => some (fld 44 12 0xFFF + (2 ^ 32 - 1))
  | 0x20 => some (fld 48 8 0xFF)
  | 0x21 => some (fld 48 8 0xFF)
  | 0x22 => some (fld 48 8 0xFF)
  | 0x23 => some (fld 48 8 0xFF)
  | 0x24 => some (fld 48 8 0xFF)
  | 0x28 => some (fld 28 28 (2 ^ 28 - 1))
  | 0x29 => some (fld 28 28 (2 ^ 28 - 1))
  | 0x2C => some (fld 43 13 0x1FFF)
  | 0x30 => some (fld 44 8 0xFF + (2 ^ 32 - 1))
  | 0x31 => some (fld 43 9 0x1FF)
  | 0x32 => some (fld 44 8 0xFF)
  | 0x38 => some (fld 42 14 0x3FFF)
  | 0x39 => some (fld 48 4 15)
  | 0x3A => some (fld 52 4 15)
  | 0x3C => some (fld 52 4 15)
  | 0x3D => some 0
  | _ => none

/-- Is an opcode reserved (R351)? -/
def opReserved (op : Nat) : Bool := (insMask op).isNone

/-- A word with a reserved opcode or a reserved bit set (R350). -/
def wordReserved (w : Nat) : Bool :=
  match insMask (opcodeOf w) with
  | none => true
  | some m => decide ((w % 2 ^ 56) &&& m ≠ w % 2 ^ 56)

/-- The length of an instruction's register block, from B (R352). -/
def blockLen (w : Nat) : Nat :=
  match opcodeOf w with
  | 0x20 => 4
  | 0x21 => 5
  | 0x22 => 5
  | 0x23 => 3
  | 0x24 => 3
  | 0x28 => 4
  | 0x29 => 4
  | 0x2C => if bits 46 2 w = 3 then 5 else 4
  | 0x32 => 2
  | 0x3A => 5
  | _ => 0

/-- The first register of an instruction's block. -/
def blockReg (w : Nat) : Nat :=
  match opcodeOf w with
  | 0x28 => bits 28 4 w
  | 0x29 => bits 28 4 w
  | 0x2C => bits 48 4 w
  | 0x32 => bits 48 4 w
  | _ => bits 52 4 w

/-- The registers that an instruction reads or writes. -/
def insRegs (w : Nat) : List Nat :=
  let d := bits 52 4 w
  let a := bits 48 4 w
  let b := bits 44 4 w
  let block := (List.range (blockLen w)).map (blockReg w + ·)
  match opcodeOf w with
  | 0x01 => [1]
  | 0x04 => [a, b]
  | 0x05 => [a, b]
  | 0x06 => [a, b]
  | 0x07 => [a]
  | 0x10 => [d]
  | 0x11 => [d, a]
  | 0x12 => [d, a, b]
  | 0x13 => if bit1 43 w then [d, a] else [d, a, b]
  | 0x14 => if bit1 43 w then [d, a] else [d, a, b]
  | 0x15 => if bit1 43 w then [d, a] else [d, a, b]
  | 0x16 => if bit1 43 w then [d, a] else [d, a, b]
  | 0x17 => if bit1 43 w then [d, a] else [d, a, b]
  | 0x18 => if bit1 43 w then [d, a] else [d, a, b]
  | 0x19 => [d, a, b]
  | 0x1A => [d, a, b]
  | 0x20 => a :: block
  | 0x21 => a :: block
  | 0x22 => a :: block
  | 0x23 => a :: block
  | 0x24 => a :: block
  | 0x28 => [b, bits 40 4 w, bits 36 4 w, bits 32 4 w] ++ block
  | 0x29 => [b, bits 40 4 w, bits 36 4 w, bits 32 4 w] ++ block
  | 0x2C => if bit1 43 w then d :: block else block
  | 0x30 => [a, b]
  | 0x31 => [a, b]
  | 0x32 => b :: block
  | 0x38 => [d, a, b]
  | 0x39 => [a]
  | 0x3A => block
  | 0x3C => [d]
  | _ => []

/-- Is an instruction an outstanding operation (R347)? -/
def insOutstanding (op : Nat) : Bool :=
  [0x19, 0x1A, 0x20, 0x21, 0x22, 0x23, 0x24, 0x2C, 0x32, 0x3A].contains op

/-- The register that supplies an instruction's session: its number and whether other fields share it. -/
def insSession (x : Strand) (w : Nat) : Option Nat :=
  match opcodeOf w with
  | 0x21 => some (x.reg (blockReg w))
  | 0x22 => some (x.reg (blockReg w))
  | 0x23 => some (x.reg (blockReg w))
  | 0x24 => some (x.reg (blockReg w))
  | 0x2C => some (x.reg (blockReg w))
  | 0x32 => some (x.reg (blockReg w))
  | 0x29 => some (x.reg (blockReg w + 3) % 4096)
  | _ => none

/-! ### The strand's operations, its faults and its end (R347, R354, R356) -/

/-- Is an operation a strand's? -/
def Op.ofStrand (o : Op) (q k : Nat) : Bool :=
  match o.own with
  | .strand a b _ => a = q && b = k
  | _ => false

/-- Operations of a strand that have not ended. -/
def State.strandOps (s : State) (q k : Nat) : Tab Op := s.ops.filter (fun p => p.2.ofStrand q k)

/-- The registers of a strand whose result is pending (R346). -/
def State.pendingRegs (s : State) (q k : Nat) : List Nat :=
  (s.strandOps q k).filterMap (fun p => match p.2.body with
    | .ld d => if d = 0 then none else some d
    | .atom _ d true _ => if d = 0 then none else some d
    | _ => none)

/-- Stop a strand: the first status is recorded with its instruction, and nothing further issues (R354). -/
def strandHalt (q k : Nat) (st : Status) (pc op trap : Nat) (s : State) : State :=
  s.updStrand q k (fun x =>
    if x.state = .idle then x
    else
      let x := if x.fault = .ok then { x with fault := st, faultPc := pc, faultOp := op, trap := trap } else x
      { x with state := .draining, wait := match x.wait with | .op i => .op i | _ => .no })

/-- Mark a strand's context for a status (R285, R354): a bollard wait that meets a BROKEN bollard does not. -/
def strandMark (q k op : Nat) (st : Status) (s : State) : State :=
  let x := s.getStrand q k
  markEnd (if op = 0x30 then 6 else 0xFF) x.ten x.ctx st s

/-- A fault of an instruction at an offset (R354). -/
def strandFault (q k : Nat) (st : Status) (pc op trap : Nat) (s : State) : State :=
  strandHalt q k st pc op trap (strandMark q k op st s)

/-- A strand is stopped from outside (R378, R381): the offset is its PC, with no opcode (R356). -/
def strandStop (q k : Nat) (st : Status) (s : State) : State :=
  let x := s.getStrand q k
  if x.state = .idle ∨ x.state = .draining then s else strandFault q k st x.pc 0 0 s

/-- Stop every strand that `p` picks. -/
def stopStrands (p : Nat → Strand → Bool) (st : Status) (s : State) : State :=
  (List.range 16).foldl (fun s q => (List.range 4).foldl (fun s k =>
    if p q (s.getStrand q k) then strandStop q k st s else s) s) s

/-- RESULT of the launch of a program that ends with a status (R356). -/
def Strand.result (x : Strand) : Nat := x.faultPc + fld 32 8 x.faultOp + fld 40 24 x.trap

/-- A strand becomes IDLE, and its PROGRAM_LAUNCH ends (R345, R376). -/
def strandEnd (q k : Nat) (s : State) : State :=
  let x := s.getStrand q k
  let user := match (s.getOp x.launch).own with | .queue _ _ u _ => u | _ => 0
  let s := trace x.ten 2 (8 + q) 4 x.fault x.ctx user (k * 16 + q) s
  let s := ctxEnd x.ten x.ctx (dropRefs x.refs s)
  let s := s.setStrand q k { x with state := .idle, wait := .no, refs := [] }
  finishOp x.launch x.fault (if x.fault = .ok then x.reg 1 else x.result) 0 s

/-- A draining strand with nothing outstanding ends. -/
def strandDrained (q k : Nat) (s : State) : State :=
  if (s.getStrand q k).state = .draining ∧ (s.strandOps q k).isEmpty then strandEnd q k s else s

/-! ### Fetching (R348, R349) -/

/-- The resident line that holds a strand's next instruction. -/
def State.insLine (s : State) (q : Nat) (x : Strand) : Option ICLine :=
  (s.getQuay q).icache.find? (fun l => l.obj = handleIdx x.prog && l.gen = handleGen x.prog && l.line = x.pc / 128)

/-- The word at a strand's PC, where its line is resident. -/
def State.insWord (s : State) (q k : Nat) : Option Nat :=
  let x := s.getStrand q k
  (s.insLine q x).map (fun l => leNat (slice (x.pc % 128) 8 l.data))

/-- Is a line resident in a quay's instruction cache, or being fetched? -/
def Quay.insComing (y : Quay) (obj gen line : Nat) : Bool :=
  y.icache.any (fun l => l.obj = obj && l.gen = gen && l.line = line) ||
    y.ifetch.any (fun f => f.obj = obj && f.gen = gen && f.line = line)

/-- Begin a fetch of a line of a strand's program under its world and mooring (R348). -/
def insFetch (q : Nat) (x : Strand) (line : Nat) (ahead : Bool) (s : State) : State :=
  let obj := handleIdx x.prog
  let o := s.getObj obj
  if o.size ≤ 128 * line ∨ (s.getQuay q).insComing obj (handleGen x.prog) line then s
  else
    let f := s.fresh
    let e : ICFetch := { id := f.1, obj := obj, gen := handleGen x.prog, line := line, ten := x.ten, ctx := x.ctx, ahead := ahead }
    let s := f.2.updQuay q (fun y => { y with ifetch := y.ifetch ++ [e] })
    submitLine (.ifetch q f.1) .read (o.addr + 128 * line) x.ten 0 none false (ctxBytes x.ten x.ctx 128 s)

/-- A running strand whose next instruction is not resident stops issuing while its line is fetched; a PC beyond
the object faults (R348, R349). -/
def strandFetch (q k : Nat) (s : State) : State :=
  let x := s.getStrand q k
  if x.state ≠ .running ∨ (x.wait ≠ .no ∧ x.wait ≠ .fetch) then s
  else if (s.getObj (handleIdx x.prog)).size ≤ x.pc then strandFault q k .eBounds x.pc 0 0 s
  else match s.insLine q x with
    | some _ => if x.wait = .fetch then s.setStrand q k { x with wait := .no } else s
    | none =>
      let s := s.setStrand q k { x with wait := .fetch }
      if (s.getQuay q).insComing (handleIdx x.prog) (handleGen x.prog) (x.pc / 128) then s
      else insFetch q x (x.pc / 128 + 1) true (insFetch q x (x.pc / 128) false s)

/-- Install a line in its set of four ways, the least recently used making room; lists stand most recent first
(R348). The set of a line is its number modulo 32 (DESIGN CHOICE 16). -/
def icInstall (l : ICLine) (c : List ICLine) : List ICLine :=
  let rest := c.filter (fun e => !(e.obj = l.obj && e.gen = l.gen && e.line = l.line))
  let mine := rest.filter (fun e => e.line % 32 = l.line % 32)
  match mine[3]? with
  | none => l :: rest
  | some _ => l :: rest.erase (mine.getLastD l)

/-- IFETCH_LINE_RETURN: the oldest fetch of a quay that has come back is installed, and the strands that wait for
it resume; a line that failed faults them (R348, R349). -/
def ifetchLineReturn (q : Nat) (s : State) : State :=
  let y := s.getQuay q
  match y.ifetch.find? (fun f => f.back.isSome) with
  | none => s
  | some f =>
    let s := s.setQuay q { y with ifetch := y.ifetch.filter (fun e => e.id ≠ f.id) }
    match f.back with
    | some (.ok, d) =>
      s.updQuay q (fun y => { y with
        icache := icInstall { obj := f.obj, gen := f.gen, line := f.line, data := d, ahead := f.ahead } y.icache })
    | some (st, _) =>
      (List.range 4).foldl (fun s k =>
        let x := s.getStrand q k
        if x.state = .running ∧ x.wait = .fetch ∧ handleIdx x.prog = f.obj ∧ x.pc / 128 = f.line then
          strandFault q k st x.pc 0 0 s
        else s) s
    | none => s

/-- A strand issues from a line: it becomes the most recently used of the cache, and a line fetched ahead starts
the fetch of its own next line (R348). -/
def icUse (q k : Nat) (s : State) : State :=
  let x := s.getStrand q k
  match s.insLine q x with
  | none => s
  | some l =>
    let s := s.updQuay q (fun y => { y with icache := { l with ahead := false } :: y.icache.erase l })
    if l.ahead then insFetch q x (l.line + 1) true s else s

/-! ### Issue (R346) -/

/-- Is a strand ready to issue? -/
def State.strandReady (s : State) (q k : Nat) : Bool :=
  let x := s.getStrand q k
  match s.insWord q k with
  | none => false
  | some w =>
    decide (x.state = .running ∧ x.wait = .no) && !(insRegs w).any (s.pendingRegs q k).contains &&
      (!insOutstanding (opcodeOf w) || decide ((s.strandOps q k).length < 32))

/-- Is it a strand's turn: no ready strand stands between the one that issued last and it? -/
def State.strandTurn (s : State) (q k : Nat) : Bool :=
  ([1, 2, 3, 4].map (fun i => ((s.getQuay q).rrStrand + i) % 4)).find? (s.strandReady q) == some k

/-- A strand moves on to the next word. -/
def insNext (q k : Nat) (s : State) : State :=
  s.updStrand q k (fun x => { x with pc := (x.pc + 8) % 2 ^ 32, wait := .no })

/-- A fault at the strand's present instruction. -/
def insFault (q k w : Nat) (st : Status) (trap : Nat) (s : State) : State :=
  strandFault q k st (s.getStrand q k).pc (opcodeOf w) trap s

/-- Issue the instruction at a strand's PC where it is of the row's opcodes: an instruction that names a
MIGRATING session pauses the strand (R345, R380), a word with a reserved opcode or bit faults (R350). -/
def issue (q k : Nat) (sel : Nat → Bool) (f : Nat → State → State) (s : State) : State :=
  if !s.runs (8 + q) || s.closedDom (8 + q) || !s.strandTurn q k then s
  else match s.insWord q k with
    | none => s
    | some w =>
      let x := s.getStrand q k
      let moving : Bool := match insSession x w with
        | some i => decide (i < 4096 ∧ (s.getSess i).state = .migrating)
        | none => false
      if !sel (opcodeOf w) then s
      else if moving then
        s.setStrand q k { x with state := .paused }
      else
        let s := beat (8 + q) (icUse q k (s.updQuay q (fun y => { y with rrStrand := k })))
        if wordReserved w then insFault q k w .eEncoding 0 s else f w s

/-- A paused strand runs on once the session that its instruction names is no longer MIGRATING (R345). -/
def strandResume (q k : Nat) (s : State) : State :=
  let x := s.getStrand q k
  if x.state ≠ .paused then s
  else match s.insWord q k with
    | none => s.setStrand q k { x with state := .running }
    | some w =>
      match insSession x w with
      | some i => if (s.getSess i).state = .migrating then s else s.setStrand q k { x with state := .running }
      | none => s.setStrand q k { x with state := .running }

/-! ### The checks of R353 -/

/-- What an instruction asks of the checks of R353. -/
structure INeeds where
  enc     : Bool := false
  len     : Option (Nat × Nat) := none
  handles : List (Nat × List ObjType) := []
  ranges  : List (Nat × Nat × Nat) := []
  sess    : Option Nat := none
  /-- the instruction sends on the session -/
  sends   : Bool := true
  state   : List (Bool × Status) := []

/-- The checks of orders 2 to 10 for a strand on a quay: a status, and true where a length of 0 ends the
instruction at order 4. A session of another world stands with the E_PERMISSION of R215 (assumption 17). -/
def insCheck (q : Nat) (x : Strand) (n : INeeds) (s : State) : Status × Bool :=
  let st := firstFail .ok
    [(n.enc || n.handles.any (fun h => decide (2 ^ 32 ≤ h.1)) || (match n.sess with | some i => decide (4096 ≤ i) | none => false), .eEncoding),
     (match n.len with | some l => decide (l.2 < l.1) | none => false, .eLength)]
  let zero : Bool := match n.len with | some l => decide (l.1 = 0) | none => false
  if st ≠ .ok then (st, false)
  else if zero then (.ok, true)
  else
    let sess := match n.sess with
      | none => []
      | some i =>
        let y := s.getSess i
        [(decide (y.state = .revoking), Status.eKeyRevoked), (!y.openOn q || decide (y.ten ≠ x.ten), .ePermission),
         (n.sends && decide (2 ^ 63 ≤ y.seq), .eSeq)]
    (firstFail .ok (handleChecks n.handles x.ten s ++
      [(n.ranges.any (fun r => decide ((s.getObj (handleIdx r.1)).size < r.2.1 + r.2.2)), .eBounds)] ++ sess ++ n.state), false)

/-- A strand takes its reference to an object that it names (R312). -/
def strandRef (q k obj : Nat) (s : State) : State :=
  let x := s.getStrand q k
  if x.refs.contains obj then s else addRef obj (s.setStrand q k { x with refs := x.refs ++ [obj] })

/-- Check an instruction and, where it passes, let `go` carry it out. A send at the end of SEQ breaks its session
(R215). -/
def checked (q k w : Nat) (n : INeeds) (go : State → State) (s : State) : State :=
  let c := insCheck q (s.getStrand q k) n s
  if c.1 ≠ .ok then
    let s := if c.1 = .eSeq then (match n.sess with | some i => breakSess i .eSeq s | none => s) else s
    insFault q k w c.1 0 s
  else if c.2 then insNext q k s
  else go (n.handles.foldl (fun s h => strandRef q k (handleIdx h.1) s) s)

/-- Start an operation of a strand at its present instruction: its identifier. -/
def strandOp (q k w : Nat) (body : Body) (begun : Bool) (s : State) : Nat × State :=
  let x := s.getStrand q k
  startOp { own := .strand q k x.pc, ten := x.ten, ctx := x.ctx, code := opcodeOf w, body := body, counted := false
            begun := begun } s

/-! ### Register and control instructions (R357 to R359, R376) -/

def insNop (q k _w : Nat) (s : State) : State := insNext q k s

def insTrap (q k w : Nat) (s : State) : State := insFault q k w .eAborted (w % 2 ^ 24) s

/-- Pop every loop-stack entry, from the top, whose body does not hold a target (R358). -/
def popLoops (t : Nat) : List LoopEnt → List LoopEnt
  | [] => []
  | e :: l => if e.body ≤ t ∧ t ≤ e.endl then e :: l else popLoops t l

/-- Go to a target: one outside the object faults at fetch, with the PC that names it (R349, R358). `loops` gives
the loop stack, top first, once the target is known. -/
def insGoto (q k : Nat) (t : Int) (branch : Bool) (s : State) : State :=
  let x := s.getStrand q k
  let size := (s.getObj (handleIdx x.prog)).size
  let pc := (t % 2 ^ 32).toNat
  if 0 ≤ t ∧ t < size then
    s.setStrand q k { x with pc := pc, wait := .no, loops := if branch then popLoops pc x.loops else x.loops }
  else strandFault q k .eBounds pc 0 0 (s.setStrand q k { x with pc := pc })

/-- The target PC_branch + 8 × DISP. -/
def insTarget (x : Strand) (w : Nat) : Int := (x.pc : Int) + 8 * disp32 w

/-- Branch where a condition holds (R358). -/
def branchIf (q k w : Nat) (c : Bool) (s : State) : State :=
  if c then insGoto q k (insTarget (s.getStrand q k) w) true s else insNext q k s

def insBr (q k w : Nat) (s : State) : State := branchIf q k w true s

def insBeq (q k w : Nat) (s : State) : State :=
  let x := s.getStrand q k
  branchIf q k w (x.reg (bits 48 4 w) = x.reg (bits 44 4 w)) s

def insBne (q k w : Nat) (s : State) : State :=
  let x := s.getStrand q k
  branchIf q k w (x.reg (bits 48 4 w) ≠ x.reg (bits 44 4 w)) s

def insBlt (q k w : Nat) (s : State) : State :=
  let x := s.getStrand q k
  branchIf q k w (decide (x.sreg (bits 48 4 w) < x.sreg (bits 44 4 w))) s

/-- LOOP (R359). The loop stack stands top first. -/
def insLoop (q k w : Nat) (s : State) : State :=
  let x := s.getStrand q k
  let n := x.reg (bits 48 4 w)
  let endl := insTarget x w
  if disp32 w ≤ 0 then insFault q k w .eEncoding 0 s
  else if 2 ^ 20 ≤ n then insFault q k w .eLength 0 s
  else if n = 0 then insGoto q k (endl + 8) false s
  else if 4 ≤ x.loops.length then insFault q k w .eNoRes 0 s
  else insNext q k (s.setStrand q k { x with
    loops := { body := (x.pc + 8) % 2 ^ 32, endl := (endl % 2 ^ 32).toNat, count := n } :: x.loops })

/-- ENDL (R359). -/
def insEndl (q k w : Nat) (s : State) : State :=
  let x := s.getStrand q k
  match x.loops with
  | [] => insFault q k w .eEncoding 0 s
  | e :: l =>
    if e.endl ≠ x.pc then insFault q k w .eEncoding 0 s
    else if 1 < e.count then s.setStrand q k { x with pc := e.body, loops := { e with count := e.count - 1 } :: l }
    else insNext q k (s.setStrand q k { x with loops := l })

/-- Write gD and move on. -/
def insSet (q k w v : Nat) (s : State) : State := insNext q k (setReg q k (bits 52 4 w) (v % 2 ^ 64) s)

def insMovi (q k w : Nat) (s : State) : State :=
  let imm := w % 2 ^ 48
  insSet q k w ((if bit1 47 w then imm + (2 ^ 64 - 2 ^ 48) else imm) * 2 ^ (16 * bits 48 2 w)) s

/-- gA. -/
def insA (x : Strand) (w : Nat) : Nat := x.reg (bits 48 4 w)

/-- IMM as a 64-bit pattern. -/
def insImm (w : Nat) : Nat := pat64 (disp32 w)

/-- X: gB, or IMM where I is 1 (R357). -/
def insX (x : Strand) (w : Nat) : Nat := if bit1 43 w then insImm w else x.reg (bits 44 4 w)

def insAddi (q k w : Nat) (s : State) : State :=
  insSet q k w (insA (s.getStrand q k) w + insImm w) s

def insAdd (q k w : Nat) (s : State) : State :=
  insSet q k w (insA (s.getStrand q k) w + (s.getStrand q k).reg (bits 44 4 w)) s

def insSub (q k w : Nat) (s : State) : State :=
  insSet q k w (insA (s.getStrand q k) w + 2 ^ 64 - insX (s.getStrand q k) w) s

def insAnd (q k w : Nat) (s : State) : State :=
  insSet q k w (insA (s.getStrand q k) w &&& insX (s.getStrand q k) w) s

def insOr (q k w : Nat) (s : State) : State :=
  insSet q k w (insA (s.getStrand q k) w ||| insX (s.getStrand q k) w) s

def insXor (q k w : Nat) (s : State) : State :=
  insSet q k w (insA (s.getStrand q k) w ^^^ insX (s.getStrand q k) w) s

def insShl (q k w : Nat) (s : State) : State :=
  insSet q k w (insA (s.getStrand q k) w * 2 ^ (insX (s.getStrand q k) w % 64)) s

def insShr (q k w : Nat) (s : State) : State :=
  insSet q k w (insA (s.getStrand q k) w / 2 ^ (insX (s.getStrand q k) w % 64)) s

def insTstamp (q k w : Nat) (s : State) : State := insSet q k w s.now s

/-! ### Memory of the instance (R360, R361, R373) -/

/-- The offset gO + DISP of LD and ST. -/
def insOffset (x : Strand) (w : Nat) : Nat := (x.reg (bits 44 4 w) + insImm w) % 2 ^ 64

def ldNeeds (x : Strand) (w : Nat) : INeeds :=
  let h := insA x w
  { enc := decide (insOffset x w % 8 ≠ 0), handles := [(h, anyMem)], ranges := [(h, insOffset x w, 8)] }

def insAddr (x : Strand) (w : Nat) (s : State) : Nat := (s.getObj (handleIdx (insA x w))).addr + insOffset x w

def insLd (q k w : Nat) (s : State) : State :=
  let x := s.getStrand q k
  checked q k w (ldNeeds x w) (fun s =>
    let r := strandOp q k w (.ld (bits 52 4 w)) true s
    ioRead r.1 (insAddr x w s) 8 (insNext q k r.2)) s

def insSt (q k w : Nat) (s : State) : State :=
  let x := s.getStrand q k
  checked q k w (ldNeeds x w) (fun s =>
    let r := strandOp q k w .st true s
    ioWrite r.1 (insAddr x w s) (leBytes 8 (x.reg (bits 52 4 w))) (insNext q k r.2)) s

/-- Register i of an instruction's block. -/
def blk (x : Strand) (w i : Nat) : Nat := x.reg (blockReg w + i)

/-- The block passes g15 (R352). -/
def blkOver (w : Nat) : Bool := decide (16 < blockReg w + blockLen w)

/-- The length in gL, with the limit of order 3. -/
def insLen (x : Strand) (w : Nat) : Nat := x.reg (bits 48 4 w)

def insCopy (q k w : Nat) (s : State) : State :=
  let x := s.getStrand q k
  let len := insLen x w
  let a := fun (s : State) => (s.getObj (handleIdx (blk x w 0))).addr + blk x w 1
  let b := fun (s : State) => (s.getObj (handleIdx (blk x w 2))).addr + blk x w 3
  checked q k w
    { enc := blkOver w, len := some (len, 2 ^ 31), handles := [(blk x w 0, anyMem), (blk x w 2, anyMem)]
      ranges := [(blk x w 0, blk x w 1, len), (blk x w 2, blk x w 3, len)]
      state := [(overlaps (a s) (b s) len, .eEncoding)] }
    (fun s =>
      let r := strandOp q k w (.copy q (a s) (b s) len false) true s
      copyNext r.1 (a s) (b s) len (insNext q k r.2)) s

/-- ALLOC (R373). -/
def insAlloc (q k w : Nat) (s : State) : State :=
  let x := s.getStrand q k
  let size := insA x w
  let d := bits 52 4 w
  let h := bits 44 4 w
  if 2 ^ 30 < size then insFault q k w .eLength 0 s
  else if size = 0 then insNext q k (setReg q k h 0 (setReg q k d 0 s))
  else
    let r := strandOp q k w (.alloc d h) true s
    let s := r.2.updStrand q k (fun x => { x with wait := .op r.1 })
    allocRun r.1 size (bit1 43 w) (bit1 42 w) d h s

/-! ### Operations on sessions (R362 to R364, R368, R372) -/

def insPut (q k w : Nat) (s : State) : State :=
  let x := s.getStrand q k
  let len := insLen x w
  checked q k w
    { enc := blkOver w || decide (2 ^ 32 ≤ blk x w 3), len := some (len, 2 ^ 31), handles := [(blk x w 1, anyMem)]
      ranges := [(blk x w 1, blk x w 2, len)], sess := some (blk x w 0) }
    (fun s =>
      let loc := (s.getObj (handleIdx (blk x w 1))).addr + blk x w 2
      insNext q k (strandOp q k w (.put loc (blk x w 0) (blk x w 3) (blk x w 4) len []) false s).2) s

def insGet (q k w : Nat) (s : State) : State :=
  let x := s.getStrand q k
  let len := insLen x w
  checked q k w
    { enc := blkOver w || decide (2 ^ 32 ≤ blk x w 3), len := some (len, 2 ^ 31), handles := [(blk x w 1, anyMem)]
      ranges := [(blk x w 1, blk x w 2, len)], sess := some (blk x w 0) }
    (fun s =>
      let loc := (s.getObj (handleIdx (blk x w 1))).addr + blk x w 2
      let r := strandOp q k w (.get (blk x w 0) [] []) false s
      getPrepare r.1 loc (blk x w 0) (blk x w 3) (blk x w 4) len (insNext q k r.2)) s

def insSend (q k w : Nat) (s : State) : State :=
  let x := s.getStrand q k
  let len := insLen x w
  checked q k w
    { enc := blkOver w, len := some (len, 2 ^ 31), handles := [(blk x w 1, anyMem)]
      ranges := [(blk x w 1, blk x w 2, len)], sess := some (blk x w 0) }
    (fun s =>
      let loc := (s.getObj (handleIdx (blk x w 1))).addr + blk x w 2
      insNext q k (strandOp q k w (.send (blk x w 0) loc len 0) false s).2) s

def insRecv (q k w : Nat) (s : State) : State :=
  let x := s.getStrand q k
  let len := insLen x w
  let i := blk x w 0
  checked q k w
    { enc := blkOver w, len := some (len, 2 ^ 31), handles := [(blk x w 1, anyMem)]
      ranges := [(blk x w 1, blk x w 2, len)], sess := some i, sends := false
      state := [((s.getSess i).recv.isSome, .eState)] }
    (fun s =>
      let loc := (s.getObj (handleIdx (blk x w 1))).addr + blk x w 2
      let r := strandOp q k w (.recv i loc len 0 []) true s
      insNext q k (r.2.updSess i (fun y => { y with recv := some r.1 }))) s

/-- A packet of one counted request of a strand. -/
def insPacket (id kind attr handle off : Nat) (data : Bytes) (s : State) : State :=
  let h : MemHdr := { kind := kind, attr := attr, flags := 1, len := data.length, handle := handle, rid := id % 2 ^ 32, off := off }
  s.updOp id (fun o => { o with pkts := [h.bytes ++ data] })

/-- ATOM (R368, R369). -/
def insAtom (q k w : Nat) (s : State) : State :=
  let x := s.getStrand q k
  let aop := bits 46 2 w
  let typ := bits 44 2 w
  let fetch := bit1 43 w
  let size := if typ = 1 then 8 else 4
  checked q k w
    { enc := blkOver w || decide (2 ^ 32 ≤ blk x w 1 ∨ typ = 3 ∨ (aop = 3 ∧ (typ = 2 ∨ fetch = false)) ∨
        (fetch = false ∧ bits 52 4 w ≠ 0) ∨ blk x w 2 % size ≠ 0), sess := some (blk x w 0) }
    (fun s =>
      let r := strandOp q k w (.atom (blk x w 0) (bits 52 4 w) fetch typ) false s
      let c := if aop = 3 then blk x w 4 else 0
      insNext q k (insPacket r.1 3 (aop + 4 * typ + 16 * b2n fetch) (blk x w 1) (blk x w 2)
        (leBytes 8 (blk x w 3) ++ leBytes 8 c) r.2)) s

/-- RSIGB (R372). -/
def insRsigb (q k w : Nat) (s : State) : State :=
  let x := s.getStrand q k
  checked q k w { enc := blkOver w || decide (2 ^ 32 ≤ blk x w 1), sess := some (blk x w 0) }
    (fun s =>
      let r := strandOp q k w (.rsig (blk x w 0)) false s
      insNext q k (insPacket r.1 4 0 (blk x w 1) 0 (leBytes 8 (x.reg (bits 44 4 w))) r.2)) s

/-! ### Arming reductions (R365, R366) -/

/-- The slot that a REDUCE or RFWD describes (R365), with its source and destination objects. -/
def insSlot (x : Strand) (w : Nat) (s : State) : Slot :=
  let fwd := decide (opcodeOf w = 0x29)
  let gs := x.reg (bits 44 4 w)
  let gk := x.reg (bits 40 4 w)
  let fmt := bits 50 4 w
  let elems := x.reg (bits 36 4 w)
  let src := handleIdx (blk x w 1 % 2 ^ 32)
  let dst := handleIdx (blk x w 1 / 2 ^ 32)
  let loc := bits 48 15 gk ≠ noLocal
  let bol := gs / 2 ^ 32
  let sa := (s.getObj src).addr + blk x w 2
  let da := (s.getObj dst).addr + blk x w 3
  let n := elemBytes fmt elems
  { ten := x.ten, ctx := x.ctx, tag := blk x w 0, op := bits 54 2 w, fmt := fmt, wide := bit1 49 w, arrival := bit1 48 w
    group := bits 0 15 gk, base := bits 16 14 gk, expect := bits 32 15 gk, localRank := bits 48 15 gk
    elems := elems, chunkElems := x.reg (bits 32 4 w)
    src := if loc then sa else 0, srcScale := if loc then sa + n else 0
    forward := fwd, dst := if fwd then 0 else da, dstScale := if fwd then 0 else da + n
    sess := if fwd then bits 0 12 (blk x w 3) else 0, peerSlot := if fwd then bits 16 10 (blk x w 3) else 0
    bollard := bol
    refs := (if loc then [src] else []) ++ (if fwd then [] else [dst]) ++ (if bol = 0 then [] else [handleIdx bol]) }

/-- The checks of R366, in order. -/
def armCheck (x : Strand) (w : Nat) (z : Slot) (s : State) : Status :=
  let gs := x.reg (bits 44 4 w)
  let gk := x.reg (bits 40 4 w)
  let n := gs % 1024
  let loc := decide (z.localRank ≠ noLocal)
  let bytes := elemBytes z.fmt z.elems + scaleBytes z.fmt z.elems
  let src := blk x w 1 % 2 ^ 32
  let dst := blk x w 1 / 2 ^ 32
  let hs := (if loc then [(src, anyMem)] else []) ++ (if z.forward then [] else [(dst, anyMem)]) ++
    (if z.bollard = 0 then [] else [(z.bollard, [ObjType.bollard])])
  let y := s.getSess z.sess
  let stray := decide (gs / 1024 % 2 ^ 22 ≠ 0) || bit1 15 gk || bits 30 2 gk ≠ 0 || bit1 47 gk || bit1 63 gk ||
    (z.forward && decide (bits 12 4 (blk x w 3) ≠ 0 ∨ 2 ^ 26 ≤ blk x w 3))
  firstFail .ok
    ([(s.closedDom 24, .eFenced),
      (blkOver w || stray || decide (2 ^ 33 ≤ z.elems) || (isMx z.fmt && decide (z.elems % 32 ≠ 0)) || z.badFields, .eEncoding)] ++
     handleChecks hs x.ten s ++
     [(!s.slotIn x.ten n, .ePermission), (decide (2 ^ 31 < bytes), .eLength),
      ((loc && decide ((s.getObj (handleIdx src)).size < blk x w 2 + bytes)) ||
       (!z.forward && decide ((s.getObj (handleIdx dst)).size < blk x w 3 + bytes)), .eBounds),
      (z.forward && decide (y.state = .revoking), .eKeyRevoked),
      (z.forward && decide (y.state ≠ .opened ∨ y.ten ≠ x.ten), .ePermission),
      (z.forward && decide (2 ^ 63 ≤ y.seq), .eSeq),
      ((s.getSlot n).armed || decide (z.tag ≤ (s.getSlot n).lastTag), .eState)])

/-- REDUCE and RFWD (R365 to R367). -/
def insArm (q k w : Nat) (s : State) : State :=
  let x := s.getStrand q k
  let z := insSlot x w s
  let st := armCheck x w z s
  if st ≠ .ok then
    insFault q k w st 0 (if st = .eSeq then breakSess z.sess .eSeq s else s)
  else
    let s := z.refs.foldl (fun s o => strandRef q k o s) s
    slotArm (x.reg (bits 44 4 w) % 1024) z (insNext q k s)

/-! ### Waits and drains (R370, R371, R374, R376) -/

/-- Test a WAITB (R370). -/
def waitbTest (q k w obj target : Nat) (s : State) : State :=
  match s.waitTest obj target with
  | none => s.updStrand q k (fun x => { x with wait := .bollard obj target w })
  | some (.ok, _) => insNext q k s
  | some (.eBroken, _) => if disp32 w ≠ 0 then branchIf q k w true s else insFault q k w .eBroken 0 s
  | some (st, _) => insFault q k w st 0 s

def insWaitb (q k w : Nat) (s : State) : State :=
  let x := s.getStrand q k
  let h := insA x w
  checked q k w { handles := [(h, [.bollard])] } (waitbTest q k w (handleIdx h) (x.reg (bits 44 4 w))) s

/-- SIGB once every earlier operation has ended OK (R371). -/
def sigbApply (q k w : Nat) (s : State) : State :=
  let x := s.getStrand q k
  let obj := handleIdx (insA x w)
  let v := x.reg (bits 44 4 w)
  let r := if bit1 43 w then signalReset obj v s else signalAdd obj v s
  if r.1 = .ok then insNext q k r.2.2 else insFault q k w r.1 0 r.2.2

/-- FREE once every earlier operation has ended (R374): the strand's own reference goes first. An entry that
other work has begun to free meanwhile is stale (R313). -/
def freeApply (q k w : Nat) (s : State) : State :=
  let x := s.getStrand q k
  let h := insA x w
  let obj := handleIdx h
  if !s.handleLive h then insFault q k w .eStale 0 s
  else
    let s := if x.refs.contains obj then dropRef obj (s.setStrand q k { x with refs := x.refs.erase obj }) else s
    let r := strandOp q k w (.objFree obj) true s
    objFreeStart r.1 obj (r.2.updStrand q k (fun x => { x with wait := .op r.1 }))

/-- What a draining instruction does once nothing is outstanding. -/
def drainApply (q k w : Nat) (s : State) : State :=
  match opcodeOf w with
  | 0x01 => strandEnd q k s
  | 0x31 => sigbApply q k w s
  | 0x39 => freeApply q k w s
  | _ => insNext q k s

/-- Wait for every earlier outstanding operation, then go on (R371, R374, R376). -/
def insDrain (q k w : Nat) (s : State) : State :=
  if (s.strandOps q k).isEmpty then drainApply q k w s
  else s.updStrand q k (fun x => { x with wait := .drain w })

def insHalt (q k w : Nat) (s : State) : State := insDrain q k w s

def insFence (q k w : Nat) (s : State) : State := insDrain q k w s

def insSigb (q k w : Nat) (s : State) : State :=
  checked q k w { handles := [(insA (s.getStrand q k) w, [.bollard])] } (insDrain q k w) s

def insFree (q k w : Nat) (s : State) : State :=
  checked q k w { handles := [(insA (s.getStrand q k) w, [.extent])] } (insDrain q k w) s

/-- Go on with what a strand waits for. -/
def strandWaits (q k : Nat) (s : State) : State :=
  let x := s.getStrand q k
  if x.state ≠ .running then s
  else match x.wait with
    | .bollard obj target w => if (s.waitTest obj target).isSome then waitbTest q k w obj target s else s
    | .drain w => if (s.strandOps q k).isEmpty then drainApply q k w s else s
    | _ => s

/-! ### The end of a strand's operation (R354, R355, R369, R373) -/

/-- An operation of a strand has ended: its registers are written, and a status other than OK faults the strand,
but for an ALLOC with E_NO_RESOURCE. -/
def strandOpEnd (id : Nat) (s : State) : State :=
  let op := s.getOp id
  match op.own with
  | .strand q k pc =>
    let s := (closeOp id s).2
    let regs := match op.body with
      | .alloc d h => some (d, h)
      | .allocZero _ _ _ d h => some (d, h)
      | _ => none
    let s := match op.body with
      | .ld d => if op.st = .ok then setReg q k d op.res s else s
      | .atom _ d true typ => if op.st = .ok then setReg q k d (if typ = 1 then op.res else op.res % 2 ^ 32) s else s
      | _ => s
    let waits := decide ((s.getStrand q k).wait = .op id)
    match regs with
    | some (d, h) =>
      if op.st = .ok ∨ op.st = .eNoRes then
        let s := setReg q k h (if op.st = .ok then op.handle else 0) (setReg q k d (if op.st = .ok then op.res else 0) s)
        if (s.getStrand q k).state = .running then insNext q k s else s.updStrand q k (fun x => { x with wait := .no })
      else strandFault q k op.st pc op.code 0 (s.updStrand q k (fun x => { x with wait := .no }))
    | none =>
      let s := if waits then s.updStrand q k (fun x => { x with wait := .no }) else s
      if op.st ≠ .ok then strandFault q k op.st pc op.code 0 s
      else if waits ∧ (s.getStrand q k).state = .running then insNext q k s
      else s
  | _ => s

/-! ### The state image (R382) -/

/-- The code of a strand's state in its image. -/
def StrandState.code : StrandState → Nat
  | .idle => 0
  | .running => 1
  | .paused => 2
  | .draining => 3

/-- The 256-byte image of a strand. -/
def strandImage (q k : Nat) (s : State) : Bytes :=
  let x := s.getStrand q k
  let outst := ((s.strandOps q k).filter (fun p => insOutstanding p.2.code)).length
  let waits := match x.wait with | .no => false | .fetch => false | _ => true
  let sr := x.fault.code + fld 8 3 x.loops.length + fld 11 6 outst + fld 17 2 x.state.code + fld 20 1 (b2n waits)
  let ent := fun (e : LoopEnt) => leBytes 4 e.body ++ leBytes 4 e.endl ++ leBytes 8 (e.count % 2 ^ 20)
  slice 0 256 (leBytes 8 x.pc ++ leBytes 8 sr ++ ((List.range 15).map (fun i => leBytes 8 (x.reg (i + 1)))).flatten ++
    slice 0 64 ((x.loops.reverse.map ent).flatten) ++ leBytes 4 x.prog ++ leBytes 4 (x.ctx + fld 20 9 x.ten) ++
    leBytes 1 (q + fld 4 2 k) ++ zeros 7 ++ leBytes 8 s.now ++ zeros 32)

end Sys2Proof.Machine
end

