-- ==== Sys2Proof/Machine/SealOps.lean ====
section
/-! DEFINITION. Sealed weights: KEY_UNWRAP, SEAL_LOAD, SEALLD, SEAL_ABORT and REGION_RELEASE (R308, R375, R475
to R483). -/

namespace Sys2Proof.Machine

/-! ### The region and its model -/

/-- A region is assigned to the mooring of a 9-bit coding (R481, R487). -/
def State.regionOf (s : State) (ten region : Nat) : Bool :=
  match tenMoor ten with
  | none => false
  | some t => (s.getMoor t).adm.regions.any (fun r => r.1 = region)

/-- Record, or clear, what a region holds for the report (R468, R482, R483). -/
def setModel (ten region : Nat) (m : Option (Bytes × Nat)) (s : State) : State :=
  match tenMoor ten with
  | none => s
  | some t => s.updMoor t (fun x =>
      let rest := x.models.filter (fun p => p.1 ≠ region)
      { x with models := match m with | none => rest | some p => rest ++ [(region, p.1, p.2)] })

/-! ### SEAL_LOAD (R480 to R483) -/

/-- An operation's SEAL_LOAD. -/
def State.seal? (s : State) (id : Nat) : Option SealSt :=
  match (s.getOp id).body with
  | .sealLoad z => if s.hasOp id && !(s.getOp id).fin then some z else none
  | _ => none

def setSeal (id : Nat) (z : SealSt) (s : State) : State := s.updOp id (fun o => { o with body := .sealLoad z })

/-- A SEAL_LOAD ends with a failure (R483): its region becomes EMPTY and its model's record goes. -/
def sealFail (id : Nat) (st : Status) (s : State) : State :=
  match s.seal? id with
  | none => s
  | some z =>
    let s := (frzWrite z.region 0 s).2
    let s := setModel (s.getOp id).ten z.region none s
    finishOp id st 0 0 (setSeal id { z with key := [], got := [], plain := [] } s)

/-- Records of a container (R479). -/
def SealSt.records (z : SealSt) : Nat := (z.total + 65535) / 65536

/-- Bytes of record i with its tag, and the container byte at which it begins (R479). -/
def SealSt.recLen (z : SealSt) (i : Nat) : Nat := min 65536 (z.total - 65536 * i) + 16
def SealSt.recPos (i : Nat) : Nat := 128 + 65552 * i

/-- The next contiguous part of the ring that holds the bytes still wanted (R480). -/
def sealRead (id : Nat) (z : SealSt) (s : State) : State :=
  let off := z.pos % z.len
  ioRead id (z.src + off) (min z.want (z.len - off)) (setSeal id z s)

/-- Write the next line of a verified record to its region (R163, R482). -/
def sealLine (id : Nat) (z : SealSt) (s : State) : State :=
  let f := s.frz z.region
  let addr := fld 51 13 f.keyid + f.base + 128 * z.line
  let d := slice 0 128 (z.plain.drop (128 * (z.line - 512 * z.record)))
  let op := s.getOp id
  let s := s.setOp id { op with io := some { wr := true, addr := addr, len := 128, buf := d }, body := .sealLoad z }
  submitLine (.op id) .seal addr op.ten op.ctx (some (d, allBe)) false s

/-- Add consumed bytes to DRAIN (R480, R483): the failure, if any, and the state. -/
def sealDrain (z : SealSt) (n : Nat) (s : State) : Status × State :=
  if z.drain = 0 then (.ok, s)
  else
    let r := signalAdd z.drain n s
    (if r.1 = .eBroken then .eAborted else r.1, r.2.2)

/-- Go on to the next record, or end after the last (R482). -/
def sealNext (id : Nat) (z : SealSt) (s : State) : State :=
  if z.record < z.records then setSeal id { z with stage := 3, plain := [] } s
  else
    let r := frzWrite z.region 2 s
    if !r.1 then sealFail id .eIntegrity (setSeal id z r.2)
    else
      let s := setModel (s.getOp id).ten z.region (some (slice 16 32 z.header, z.total)) r.2
      let s := if z.consume then zeroiseBerth z.berth s else s
      finishOp id .ok (128 + z.total + 16 * z.records) 0 (setSeal id { z with key := [], plain := [] } s)

/-- Wait for FILL to reach a number of container bytes, then read from a position (R482). -/
def sealAwait (id : Nat) (z : SealSt) (pos want stage : Nat) (s : State) : State :=
  match s.waitTest z.fill (pos + want) with
  | none => s
  | some (.ok, _) => sealRead id { z with stage := stage, pos := pos, want := want, got := [] } s
  | some (st, _) => sealFail id (if st = .eBroken then .eAborted else st) s

/-- Running SEAL_LOADs of a quay. -/
def State.sealsOn (s : State) (q : Nat) : Nat :=
  (s.ops.filter (fun p => match p.2.body with | .sealLoad z => z.quay = q && z.stage ≠ 0 && !p.2.fin | _ => false)).length

/-- What a SEAL_LOAD waits for: a place and staging on its quay, FILL of the header, FILL of the next record. -/
def sealPump (id : Nat) (s : State) : State :=
  match s.seal? id with
  | none => s
  | some z =>
    match z.stage with
    | 0 =>
      if s.sealsOn z.quay < 2 ∧ s.reasmUsed z.quay + 513 ≤ 2048 then setSeal id { z with stage := 1 } s else s
    | 1 => sealAwait id z 0 128 2 s
    | 3 => sealAwait id z (SealSt.recPos z.record) (z.recLen z.record) 4 s
    | _ => s

/-- The checks of a container's header (R482). -/
def sealHeader (z : SealSt) (h : Bytes) (lines : Nat) : Status :=
  let f := fun (o n : Nat) => slice o n h
  firstFail .ok
    [(decide (f 0 4 ≠ [0x4F, 0x44, 0x53, 0x57] ∨ f 4 1 ≠ [1] ∨ f 5 1 ≠ [16] ∨ f 6 2 ≠ zeros 2 ∨ f 88 24 ≠ zeros 24), .eEncoding),
     (decide (leNat (f 8 8) ≠ lines * 128), .eBounds),
     ((gcmOpen z.key (f 80 8 ++ [0xFF, 0xFF, 0xFF, 0xFF]) (f 0 112) [] (f 112 16)).isNone, .eAuth)]

/-- A record's plaintext, where its tag verifies (R479). -/
def sealRecord (z : SealSt) (b : Bytes) : Option Bytes :=
  let n := b.length - 16
  gcmOpen z.key (slice 80 8 z.header ++ beBytes 4 z.record) (slice 0 112 z.header ++ beBytes 4 z.record)
    (b.take n) (b.drop n)

/-- The bytes that a SEAL_LOAD wanted have been read. -/
def sealLoaded (id : Nat) (z : SealSt) (s : State) : State :=
  if z.stage = 2 then
    let st := sealHeader z z.got (s.frz z.region).lines
    if st ≠ .ok then sealFail id st s
    else
      let r := sealDrain z 128 s
      if r.1 ≠ .ok then sealFail id r.1 r.2
      else sealNext id { z with header := z.got, total := leNat (slice 8 8 z.got), got := [] } r.2
  else
    match sealRecord z z.got with
    | none => sealFail id .eAuth s
    | some p => sealLine id { z with stage := 5, plain := p, got := [] } s

/-- A read of the ring, or a line of the region, has come back (R482, R483). -/
def sealBack (id : Nat) (st : Status) (r : RangeIo) (s : State) : State :=
  match s.seal? id with
  | none => s
  | some z =>
    if z.stage = 5 then
      if st ≠ .ok then sealFail id (if st = .eFenced then .eFenced else .eFrozen) s
      else
        let z := { z with line := z.line + 1 }
        if z.line * 128 < 65536 * z.record + z.plain.length then sealLine id z s
        else
          let d := sealDrain z (z.recLen z.record) (setSeal id z s)
          if d.1 ≠ .ok then sealFail id d.1 d.2 else sealNext id { z with record := z.record + 1 } d.2
    else if st ≠ .ok then sealFail id .eAuth s
    else if r.pos < r.len then submitPiece (.op id) r (s.getOp id).ten (s.getOp id).ctx false
      (s.updOp id (fun o => { o with io := some r }))
    else
      let z := { z with pos := z.pos + r.len, want := z.want - r.len, got := z.got ++ r.buf }
      if z.want ≠ 0 then sealRead id z s else sealLoaded id z (setSeal id z s)

/-- The fields of OP0 to OP4 (R480), and the bits that they may set. -/
structure SealArgs where
  region : Nat
  consume : Bool
  keyref : Nat
  src    : Nat
  off    : Nat
  len    : Nat
  fill   : Nat
  drain  : Nat

def sealArgs (o : List Nat) : SealArgs :=
  let f := fun (i : Nat) => o.getD i 0
  { region := f 0 % 64, consume := bit1 6 (f 0), keyref := bits 16 16 (f 0), src := f 1, off := f 2, len := f 3
    fill := f 4 % 2 ^ 32, drain := bits 32 32 (f 4) }

def sealMask : List Nat := [0xFFFF007F, h32, max64, h32, max64, h32]

/-- Every type of object: checks 7 and 8 of R298 look at FILL and DRAIN, whose type R481 tests. -/
def anyObj : List ObjType := anyMem ++ [.bollard]

def SealArgs.handles (a : SealArgs) : List (Nat × List ObjType) :=
  [(a.src, anyMem), (a.fill, anyObj)] ++ (if a.drain = 0 then [] else [(a.drain, anyObj)])

/-- The checks of R481, in order, and the opening of the region: the failure, if any. -/
def sealCheck (quay ten : Nat) (a : SealArgs) (s : State) : Status × Bytes × State :=
  let z := s.frz a.region
  let typ := fun (h : Nat) => (s.getObj (handleIdx h)).typ
  if a.len < 65680 then (.eLength, [], s)
  else if !s.regionOf ten a.region then (.ePermission, [], s)
  else
    let r := berthLoad a.keyref (mQuay quay) 5 (·.fits ten) s
    let st := firstFail .ok
      [(decide (r.1 ≠ .ok), .ePermission),
       (decide (typ a.fill ≠ .bollard) || (decide (a.drain ≠ 0) && decide (typ a.drain ≠ .bollard)), .eEncoding),
       (decide (z.state = 1) || s.jobFor z.keyid 255, .eState),
       (decide (z.gen = 0xFFFFFFFF), .eCtrExhausted)]
    (st, r.2.1, r.2.2)

/-- Carry SEAL_LOAD out for an operation on a quay (R481, R482). A region whose range R162 does not accept fails
with E_STATE, and one whose change of STATE fails its read-back with E_INTEGRITY. -/
def sealStart (id quay : Nat) (a : SealArgs) (s : State) : State :=
  let ten := (s.getOp id).ten
  let c := sealCheck quay ten a s
  if c.1 ≠ .ok then finishOp id c.1 0 0 c.2.2
  else if !c.2.2.frzMoves a.region 1 then finishOp id .eState 0 0 c.2.2
  else
    let r := frzWrite a.region 1 c.2.2
    if !r.1 then finishOp id .eIntegrity 0 0 r.2
    else
      let s := setModel ten a.region none r.2
      let src := (s.getObj (handleIdx a.src)).addr + a.off
      let z : SealSt := { quay := quay, region := a.region, berth := a.keyref, consume := a.consume, key := c.2.1
                          src := src, len := a.len, fill := handleIdx a.fill, drain := handleIdx a.drain }
      s.updOp id (fun o => { o with body := .sealLoad z })

/-- SEAL_LOAD's checks of R298. -/
def sealNeeds (x : SubQueue) (c : QCmd) (s : State) : QNeeds :=
  let a := sealArgs c.ops
  { doms := (8 + x.quay) :: s.engines, mask := sealMask, lens := [(a.len, 2 ^ 31)], handles := a.handles
    compl := c.op 5, ranges := [(a.src, a.off, a.len)] }

def sealGo (id : Nat) (c : QCmd) (s : State) : State :=
  match (s.getOp id).own with
  | .queue q _ _ _ => sealStart id (s.getQueue q).quay (sealArgs c.ops) s
  | _ => s

/-- SEALLD (R375): a block of five registers laid out as OP0 to OP4. -/
def insSealld (q k w : Nat) (s : State) : State :=
  let x := s.getStrand q k
  let ops := (List.range 5).map (fun i => blk x w i)
  let a := sealArgs ops
  checked q k w
    { enc := blkOver w || (tenMoor x.ten).isNone || (List.zipWith strays ops sealMask).any id
      len := some (a.len, 2 ^ 31), handles := a.handles, ranges := [(a.src, a.off, a.len)] }
    (fun s =>
      if s.engines.any s.closedDom then insFault q k w .eFenced 0 s
      else
        let r := strandOp q k w .plain true s
        sealStart r.1 q a (insNext q k r.2)) s

/-! ### SEAL_ABORT and REGION_RELEASE (R308) -/

/-- The SEAL_LOAD that runs on a region. -/
def State.sealOn (s : State) (region : Nat) : Option Nat :=
  (s.ops.find? (fun p => !p.2.fin && (match p.2.body with | .sealLoad z => z.region = region | _ => false))).map (·.1)

def regionNeeds (_x : SubQueue) (c : QCmd) (_s : State) : QNeeds := { mask := opMask c.opcode }

/-- SEAL_ABORT (R308). -/
def sealAbortGo (id : Nat) (c : QCmd) (s : State) : State :=
  let region := c.op 0 % 64
  let st := firstFail .ok [(!s.regionOf (s.getOp id).ten region, .ePermission), (decide ((s.frz region).state ≠ 1), .eState)]
  if st ≠ .ok then finishOp id st 0 0 s
  else
    let s := match s.sealOn region with
      | some o => sealFail o .eAborted s
      | none => (frzWrite region 0 s).2
    finishOp id .ok 0 0 s

/-- REGION_RELEASE (R308). -/
def regionReleaseGo (id : Nat) (c : QCmd) (s : State) : State :=
  let region := c.op 0 % 64
  let z := s.frz region
  let st := firstFail .ok
    [(!s.regionOf (s.getOp id).ten region, .ePermission), (decide (z.state ≠ 2) || s.jobFor z.keyid 255, .eState)]
  if st ≠ .ok then finishOp id st 0 0 s
  else
    let r := frzWrite region 0 s
    finishOp id (if r.1 then .ok else .eIntegrity) 0 0
      (if r.1 then setModel (s.getOp id).ten region none r.2 else r.2)

/-- SEAL_LOADs that `p` picks end with a status. -/
def failSeals (p : Op → SealSt → Bool) (st : Status) (s : State) : State :=
  s.ops.foldl (fun s e => match e.2.body with
    | .sealLoad z => if !e.2.fin && p e.2 z then sealFail e.1 st s else s
    | _ => s) s

/-! ### KEY_UNWRAP (R476, R477) -/

def unwrapNeeds (_x : SubQueue) (c : QCmd) (_s : State) : QNeeds :=
  { mask := [h32, max64, 0, 0, 0, 0], handles := [(c.op 0, anyMem)], ranges := [(c.op 0, c.op 1, 1816)] }

def unwrapGo (id : Nat) (c : QCmd) (s : State) : State :=
  let s := s.updOp id (fun o => { o with body := .unwrap [] [] })
  ioRead id ((s.getObj (handleIdx (c.op 0))).addr + c.op 1) 1816 s

/-- Load-only berths of a mooring that are not EMPTY. -/
def State.loadBerths (s : State) (t : Nat) : Nat :=
  (s.keys.berths.filter (fun p => decide (p.2.world = 2 ∧ p.2.tenant = t ∧ p.2.usage = 5 ∧ p.2.state ≠ .empty))).length

/-- Prity unwraps a model key (R477, steps 4 to 6): the status, the berth, the state. -/
def keyUnwrap (t : Nat) (b : Bytes) (s : State) : Status × Nat × State :=
  let f := fun (o n : Nat) => slice o n b
  let seed := match (s.getMoor t).dkey with | some d => (s.getBerth d).key | none => []
  let st := firstFail .ok
    [(decide (f 0 4 ≠ [0x4F, 0x44, 0x4B, 0x57] ∨ f 4 1 ≠ [1] ∨ f 5 3 ≠ zeros 3 ∨ f 1753 3 ≠ zeros 3), .eEncoding),
     (decide (f 40 48 ≠ dkeyHash seed), .eAuth),
     (decide (16 ≤ s.loadBerths t) || s.freeBerth.isNone, .eNoRes)]
  if st ≠ .ok then (st, 0, s)
  else
    let i := s.freeBerth.getD 0
    let berth : Berth := { masters := 0xFFFF000, world := 2, tenant := t, lcmask := 0x18, usage := 5 }
    let ctx := [1] ++ f 88 97 ++ f 8 32 ++ f 1756 12 ++ f 1768 32 ++ f 1800 16
    let k := { s.keys with ctIn := f 185 1568, berthSel := i, stage := berth.attr 0
                           kdfCtx := (List.range 190).map (fun j => (j, ctx.getD j 0)) }
    let s := { s with keys := k }
    let r := berthUnwrap i berth false ((s.getMoor t).dkey.getD 0) 5 (k.unwrap 190) s
    let st := if r.1 = .eBerthBad ∨ r.1 = .eKeyRevoked then .ePermission else r.1
    (st, i, berthEnd {} i r)

/-- The 1,816 bytes have been read, or a line of them failed (R477). -/
def unwrapBack (id : Nat) (st : Status) (r : RangeIo) (s : State) : State :=
  if st ≠ .ok then finishOp id .eAuth 0 0 s
  else if r.pos < r.len then submitPiece (.op id) r (s.getOp id).ten (s.getOp id).ctx false
    (s.updOp id (fun o => { o with io := some r }))
  else
    let k := keyUnwrap (tenMoor (s.getOp id).ten |>.getD 0) r.buf s
    finishOp id k.1 (if k.1 = .ok then k.2.1 else 0) 0 k.2.2

end Sys2Proof.Machine
end

