-- ==== Sys2Proof/Machine/Fault.lean ====
section
/-! DEFINITION. Reset domains, fences, dumps and releases, keeper mode and self-test (R43 to R47, R564 to
R584). -/

namespace Sys2Proof.Machine

/-! ### Reset domains (R566) -/

/-- Does a number name a domain of this instance? -/
def State.domNamed (s : State) (d : Nat) : Bool :=
  (decide (d < 25) && s.hasIsland d) || d = 26 || d = 32 || d = 33

/-- Member domains of a domain. -/
def State.domMembers (s : State) (d : Nat) : List Nat := if d = 32 ∨ d = 33 then s.members else [d]

/-- The sequence that a domain's fence follows: its own, or that of domain 32 or 33. -/
def State.leadOf (s : State) (d : Nat) : Nat :=
  if d < 27 then (s.getDom d).lead
  else if d = 32 ∧ ((s.getDom 32).state = .draining ∨ (s.getDom 32).state = .dumping) then 32 else 33

/-- The members that follow a sequence and stand in a state. -/
def State.groupIn (s : State) (lead : Nat) (st : DomState) : List Nat :=
  s.members.filter (fun m => decide ((s.getDom m).lead = lead ∧ (s.getDom m).state = st))

/-! ### The entries of a dump (R571, R572) -/

/-- An entry: its header and its body. -/
def dumpEntry (kind unit index ctx ten ns : Nat) (body : Bytes) : DumpEnt :=
  { moor := tenMoor ten
    data := leBytes 1 kind ++ leBytes 1 unit ++ leBytes 2 index ++ leBytes 4 body.length ++ leBytes 4 ctx ++
      leBytes 2 ten ++ zeros 2 ++ leBytes 8 ns ++ zeros 8 ++ body }

/-- KIND 0x01: the strands of a quay that are not IDLE. -/
def dumpStrands (s : State) (q : Nat) : List DumpEnt :=
  (List.range 4).filterMap (fun k =>
    let x := s.getStrand q k
    if x.state = .idle then none else some (dumpEntry 1 (8 + q) (k * 16 + q) x.ctx x.ten s.now (strandImage q k s)))

/-- KIND 0x02: the merge entries that an engine holds. -/
def dumpMerges (s : State) (n : Nat) : List DumpEnt :=
  let es := (s.eng n).ops.filter (fun o => decide (o.kind = .part))
  (List.range es.length).zipWith (fun i (o : LineOp) =>
    let b := o.beat.getD (zeros 128, 0)
    dumpEntry 2 n i o.ctx o.ten s.now
      (slice 0 128 (o.plain.getD []) ++ slice 0 128 b.1 ++ leBytes 16 b.2 ++ leBytes 8 o.detail ++ leBytes 8 (o.ctr.getD 0))) es

/-- A frame's payload padded to a multiple of 32. -/
def pad32 (d : Bytes) : Bytes := d ++ zeros ((32 - d.length % 32) % 32)

/-- Number the frames of a quay by the first of the reassembly beats that each occupies, in the order they are
listed (DESIGN CHOICE 19). -/
def dumpFrames (q ns : Nat) : Nat → List (Nat × Bytes × Bytes) → List DumpEnt
  | _, [] => []
  | at0, (ten, h, d) :: t =>
    dumpEntry 3 (8 + q) at0 0 ten ns (h ++ pad32 d) :: dumpFrames q ns (at0 + beatsOf d.length) t

/-- KIND 0x03: the frames that a quay's reassembly space holds. -/
def dumpReassembly (s : State) (q : Nat) : List DumpEnt :=
  let held := ((s.homed q).map (fun p => p.2.rx.map (fun f => (p.2.ten, f.2.header, f.2.data)))).flatten
  let waits := (s.red.waits.filter (fun w => w.quay = q)).map (fun w => ((s.getSess w.sess).ten, w.header, w.data))
  let staged := (s.red.slots.map (fun p => (p.2.chunks.map (fun c => c.staged.filterMap (fun x => match x.quay with
    | some (k, _) => if k = q then some (p.2.ten, x.raw.take 32, x.raw.drop 32) else none
    | none => none))).flatten)).flatten
  dumpFrames q s.now 0 (held ++ waits ++ staged)

/-- SLOT_INFO0 to SLOT_INFO2 of a slot (R278). -/
def slotInfo0 (x : Slot) : Nat :=
  b2n x.armed + fld 1 1 (b2n x.arrival) + fld 2 2 x.op + fld 4 4 x.fmt + fld 8 1 (b2n x.wide) +
    fld 9 1 (b2n x.forward) + fld 10 9 x.ten + fld 19 20 x.ctx + fld 39 8 x.lastSt
def slotInfo1 (x : Slot) : Nat := if x.armed then x.tag else x.lastTag
def slotInfo2 (x : Slot) : Nat := fld 0 32 x.chunksDone + fld 32 15 x.group

/-- The 16 KiB accumulator entry of a chunk: its values, 4 bytes each for FP32 and 8 for INT64 (DESIGN CHOICE
20). -/
def accEntry (x : Slot) (c : Chunk) : Bytes :=
  slice 0 16384 (match c.acc with
    | some a => (a.vals.map (leBytes (if x.intFmt then 8 else 4))).flatten
    | none => [])

/-- KIND 0x04: the accumulator entries held. -/
def dumpAccs (s : State) : List DumpEnt :=
  (s.red.slots.map (fun p => (p.2.chunks.filter (·.entry)).map (fun c =>
    dumpEntry 4 24 p.1 p.2.ctx p.2.ten s.now
      (leBytes 8 (slotInfo0 p.2) ++ leBytes 8 (slotInfo1 p.2) ++ leBytes 8 (slotInfo2 p.2) ++ zeros 8 ++ accEntry p.2 c)))).flatten

/-- Every entry of a group of domains, in the order of R573. -/
def dumpEntries (s : State) (ms : List Nat) : List DumpEnt :=
  let qs := (ms.filter (fun m => decide (8 ≤ m ∧ m < 24))).map (· - 8)
  (qs.map (dumpStrands s)).flatten ++ ((ms.filter (· < 8)).map (dumpMerges s)).flatten ++
    (qs.map (dumpReassembly s)).flatten ++ (if ms.contains 24 then dumpAccs s else [])

/-! ### Draining (R53, R144, R157, R567, R568) -/

/-- Nothing is outstanding on an engine, and every counter line is written back (R144). -/
def State.engDrained (s : State) (n : Nat) : Bool :=
  let e := s.eng n
  let init := fun (r : DnReq) => match r.use with | .init => true | _ => false
  e.ops.isEmpty && (e.due ++ e.out).all init && e.tags.isEmpty && e.cc.all (fun c => !c.dirty)

/-- The quay that carries an operation, where one does. -/
def Op.quay? (s : State) (o : Op) : Option Nat :=
  match o.own, o.body with
  | .strand q _ _, _ => some q
  | _, .copy q _ _ _ _ => some q
  | _, .launch q _ => some q
  | _, .sealLoad z => some z.quay
  | .target i _ _, _ => some (s.getSess i).quay
  | _, _ => none

/-- Nothing is outstanding on a quay. -/
def State.quayDrained (s : State) (q : Nat) : Bool :=
  let x := s.getQuay q
  x.strands.all (fun p => decide (p.2.state = .idle)) && x.flit.isEmpty && x.fedTx.isEmpty && x.strandTx.isEmpty &&
    x.redTx.isEmpty && x.gw.isEmpty && x.memTx.isEmpty && x.memIn.isEmpty && x.pend.isEmpty &&
    s.ops.all (fun p => decide (p.2.quay? s ≠ some q))

/-- Nothing is outstanding in a domain. -/
def State.domDrained (s : State) (m : Nat) : Bool :=
  if m < 8 then s.engDrained m
  else if m < 24 then s.quayDrained (m - 8)
  else if m = 24 then s.red.slots.all (fun p => !p.2.armed) && s.red.waits.isEmpty
  else s.ev.store.isEmpty

/-- May a line operation go on after DRAIN_LIMIT: a write whose data, and those ahead of it in its chain, are
complete (R144, R157), or one already under way downstream? -/
def Engine.survives (e : Engine) (o : LineOp) : Bool :=
  match o.phase with
  | .writing => true
  | .poison _ => true
  | _ => o.kind ≠ .read && o.beat.isSome &&
    (match o.chain with
     | none => true
     | some h => ((e.chainOf h).takeWhile (fun p => p.id ≠ o.id)).all (fun p => p.beat.isSome))

/-- A chain whose last entry has merged and has no next one any more goes to its write. -/
def chainClose (n : Nat) (o : LineOp) (s : State) : State :=
  if o.phase = .merged ∧ ((s.eng n).nextInChain o).isNone then
    match o.dirty, o.ctr with
    | true, some c => writeAfter n o c s
    | true, none => s
    | false, _ => endWrite n o .ok s
  else s

/-- DRAIN_LIMIT passes on an engine (R53, R157): every request still waiting is answered E_FENCED; responses
still due are late; writes with complete data go on. -/
def engineLimit (n : Nat) (s : State) : State :=
  let e := s.eng n
  let kept := e.ops.filter (fun o => e.survives o)
  let gone := e.ops.filter (fun o => !e.survives o)
  let turn := fun (o : LineOp) => match o.org with | .turn _ _ => true | _ => false
  let s := (kept.filter (fun o => !o.told && !turn o)).foldl (fun s o =>
    putLine n { o with told := true } (deliver n o .eFenced (zeros 128) 0 s)) s
  let s := gone.foldl (fun s o => endLine n o .eFenced (zeros 128) 0 s) s
  let needCtr := kept.any (fun o => o.ctr.isNone && o.frz.isNone &&
    (match o.phase with | .writing => false | .poison _ => false | _ => true))
  let dead := fun (r : DnReq) => match r.use with
    | .data i => gone.any (fun o => o.id = i)
    | .tag i => gone.any (fun o => o.id = i)
    | .ctr p => p || !needCtr
    | _ => false
  let s := s.updEng n (fun e => { e with
    late := e.late ++ (e.out.filter (fun r => dead r && !r.pool && !r.wr)).map (·.rid)
    out := e.out.filter (fun r => !(dead r && !r.wr))
    due := e.due.filter (fun r => !(dead r && !r.wr)) })
  let s := (s.eng n).ops.foldl (fun s o => chainClose n o s) s
  advance n s

/-- What a quay still has outstanding is answered E_FENCED (R381, R568): operations, sessions, counted
operations. -/
def quayCut (q : Nat) (s : State) : State :=
  let mine := s.ops.filter (fun p => !p.2.fin && decide (p.2.quay? s = some q))
  let s := mine.foldl (fun s p => match p.2.own, p.2.body with
    | .target _ _ _, _ => s.dropOp p.1
    | _, .sealLoad _ => sealFail p.1 .eFenced s
    | _, .allocZero a k _ _ _ => allocZeroFail p.1 a k .eFenced s
    | _, .launch _ _ => s
    | _, _ => finishOp p.1 .eFenced 0 0 s) s
  (s.homed q).foldl (fun s p => endSessOps q p.1 .eFenced true (breakSess p.1 .eFenced s)) s

/-- What a domain still has outstanding is answered or dropped (R568). -/
def domCut (m : Nat) (s : State) : State :=
  if m < 8 then failSeals (fun _ _ => true) .eFenced s
  else if m < 24 then quayCut (m - 8) s
  else if m = 24 then
    let s := failSlots (fun _ => true) .eFenced s
    { s with red := { s.red with waits := [] } }
  else
    let s := bumpBy s.ev.store.length (faultBase + 0x330) s
    { s with ev := { s.ev with store := [] } }

/-! ### Writing a dump (R573 to R575) -/

/-- The dump header of an area (R574). -/
def dumpHeader (lead : Nat) (d : Dom) (a : DumpArea) : Bytes :=
  leBytes 8 d.seq ++ leBytes 8 d.ns ++ leBytes 1 lead ++ leBytes 1 d.cause ++ leBytes 1 (b2n a.trunc) ++ [0] ++
    leBytes 4 a.count ++ leBytes 8 (a.pos - 64) ++ (if a.moor.isNone then leBytes 32 d.map else zeros 32)

/-- Drop entries that fit no more, and begin to write the next one, or the header after the last (R573, R575).
The bytes of an area that is too small for a header are left alone. -/
def areaNext (lead idx : Nat) (a : DumpArea) : List Bytes → State → DumpArea × State
  | [], s =>
    if a.size < 64 then ({ a with left := [], io := none, stage := 2 }, s)
    else
      let r : RangeIo := { wr := true, addr := a.addr, len := 64, buf := dumpHeader lead (s.getDom lead) a }
      ({ a with left := [], io := some r, stage := 1 }, submitPiece (.dump lead (idx * 2 + 1)) r a.ten 0 true s)
  | e :: t, s =>
    if a.size < a.pos + e.length then areaNext lead idx { a with trunc := true } t (bump (faultBase + 0x338) s)
    else
      let r : RangeIo := { wr := true, addr := a.addr + a.pos, len := e.length, buf := e }
      ({ a with left := e :: t, io := some r }, submitPiece (.dump lead (idx * 2)) r a.ten 0 true s)

/-- Go on with an area of a dump. -/
def dumpGo (lead idx : Nat) (a : DumpArea) (s : State) : State :=
  let r := areaNext lead idx a a.left s
  let d := r.2.getDom lead
  r.2.setDom lead { d with areas := modifyAt d.areas idx (fun _ => r.1) }

/-- A line of a dump has come back: `which` is the area, doubled, plus one for its header. -/
def dumpBack (lead which : Nat) (st : Status) (s : State) : State :=
  let d := s.getDom lead
  let idx := which / 2
  match d.areas[idx]? with
  | none => s
  | some a =>
    match a.io with
    | none => s
    | some r =>
      let header := decide (which % 2 = 1)
      if header ≠ decide (a.stage ≠ 0) then s
      else
        let put := fun (a : DumpArea) (s : State) =>
          let d := s.getDom lead
          s.setDom lead { d with areas := modifyAt d.areas idx (fun _ => a) }
        if st ≠ .ok then
          if header then put { a with io := none, stage := 2 } s
          else dumpGo lead idx { a with io := none, trunc := true, left := a.left.drop 1 } (bump (faultBase + 0x338) s)
        else
          let r := r.took []
          if r.pos < r.len then submitPiece (.dump lead which) r a.ten 0 true (put { a with io := some r } s)
          else if header then
            let s := put { a with io := none, stage := 2 } s
            match a.moor with
            | some t => s.updWin t (fun w => { w with dumpSeq := d.seq })
            | none => s
          else dumpGo lead idx { a with io := none, pos := a.pos + r.len, count := a.count + 1, left := a.left.drop 1 } s

/-- The areas that a dump's entries go to (R573): each mooring's with entries, and the owner's always. -/
def dumpAreas (s : State) (es : List DumpEnt) : List DumpArea :=
  let ts := (List.range 256).filter (fun t => es.any (fun e => e.moor = some t))
  let own : DumpArea := { moor := none, addr := s.fault.odumpBase, size := s.fault.odumpSize, ten := ownerTen
                          left := (es.filter (fun e => e.moor.isNone)).map (·.data) }
  own :: ts.map (fun t =>
    let a := (s.getMoor t).adm
    { moor := some t, addr := a.metaBase + a.offDump, size := a.dumpKib * 1024, ten := t
      left := (es.filter (fun e => e.moor = some t)).map (·.data) })

/-- A sequence enters DUMPING (R567, R571). -/
def enterDump (lead : Nat) (s : State) : State :=
  let ms := s.groupIn lead .draining
  let d := s.getDom lead
  let es := if d.limit then d.held else dumpEntries s ms
  let s := ms.foldl (fun s m => domCut m s) s
  let seq := (s.fault.dumpSeq + 1) % 2 ^ 32
  let s := { s with fault := { s.fault with dumpSeq := seq } }
  let areas := dumpAreas s es
  let map := (areas.filterMap (·.moor)).foldl (fun a t => a + 2 ^ t) 0
  let s := ms.foldl (fun s m => s.setDom m { s.getDom m with state := .dumping }) s
  let s := s.setDom lead { s.getDom lead with state := .dumping, seq := seq, ns := s.now, areas := areas, map := map, held := [] }
  (List.range areas.length).foldl (fun s i => match (s.getDom lead).areas[i]? with
    | some a => dumpGo lead i a s
    | none => s) s

/-- The sequences that run. -/
def State.leads (s : State) (st : DomState) : List Nat :=
  (s.fault.doms.filter (fun p => decide (p.2.lead = p.1 ∧ p.2.state = st))).map (·.1)

/-- A domain whose last outstanding request has ended goes on to DUMPING (R567). -/
def fencePump (s : State) : State :=
  (s.leads .draining).foldl (fun s l =>
    if (s.groupIn l .draining).all s.domDrained then enterDump l s else s) s

/-! ### Fences (R567 to R569) -/

/-- Begin a sequence over the ACTIVE ones of some domains: new work is refused from now on. -/
def fenceGroup (lead cause : Nat) (among : List Nat) (s : State) : State :=
  let ms := among.filter (fun m => decide ((s.getDom m).state = .active))
  let s := ms.foldl (fun s m => s.setDom m { state := .draining, cause := cause, lead := lead }) s
  let s := if 27 ≤ lead then s.setDom lead { state := .draining, cause := cause, lead := lead } else s
  ms.foldl (fun s m =>
    if m < 8 then
      let s := s.updEng m (fun e => { e with ops := e.ops.map (fun o => { o with fenced := true }) })
      advance m (tideHold m s)
    else if m < 24 then stopStrands (fun q _ => q = m - 8) .eFenced s
    else s) s

/-- The instance enters keeper mode (R43, R44): every data-path island, and the event unit, is fenced. -/
def keeperEnter (lead cause : Nat) (s : State) : State :=
  let s := if s.mode = .normal then { s with mode := .keeper } else s
  if s.domState 32 = 0 then fenceGroup lead cause s.members s else s

/-- A fence that a write, or the pilot's message, calls for: ignored and counted unless the domain is ACTIVE. -/
def fenceDomain (d cause : Nat) (s : State) : State :=
  if !s.domNamed d ∨ s.domState d ≠ 0 then bump (faultBase + 0x328) s
  else if d = 32 ∨ d = 33 then keeperEnter d cause s
  else fenceGroup d cause [d] s

/-- DRAIN_LIMIT passes for a sequence (R53, R567). Write-back goes on until it is complete. -/
def drainLimit (d : Nat) (s : State) : State :=
  let l := s.leadOf d
  let x := s.getDom l
  if x.state ≠ .draining ∨ x.lead ≠ l ∨ x.limit then s
  else
    let ms := s.groupIn l .draining
    let s := s.setDom l { x with limit := true, held := dumpEntries s ms }
    ms.foldl (fun s m => if m < 8 then engineLimit m s else domCut m s) s

/-- What a domain's fence leaves empty (R568). -/
def domClear (m : Nat) (s : State) : State :=
  if m < 8 then s.updEng m (fun e => { e with cc := [], kc := [], trk := [] })
  else if m < 24 then s.updQuay (m - 8) (fun x => { x with
    flit := [], fedTx := [], strandTx := [], redTx := [], gw := [], memTx := [], ctl := [], retx := []
    heldTx := [], memIn := [], pend := [], icache := [], ifetch := [], strands := [] })
  else if m = 24 then s
  else { s with ev := { s.ev with
    banks := [], queues := s.ev.queues.map (fun p => (p.1, { p.2 with arm := .armed, pend := 0, timer := false })) } }

/-- The dump is written, or dropped at its limit, and write-back is complete: the domains become FENCED
(R567). -/
def fencedNow (l : Nat) (s : State) : State :=
  let d := s.getDom l
  let ms := s.groupIn l .dumping
  if d.state = .dumping ∧ d.lead = l ∧ d.areas.all (fun a => decide (2 ≤ a.stage)) ∧
      ms.all (fun m => decide (8 ≤ m) || s.engDrained m) then
    let s := ms.foldl (fun s m =>
      let s := (domClear m s).setDom m { s.getDom m with state := .fenced }
      if m < 25 then s.updIsland m (fun x => { x with fenced := true }) else s) s
    s.setDom l { s.getDom l with state := .fenced }
  else s

/-- DUMP_LIMIT passes (R575): the entries not written are dropped, and each area's header follows. -/
def dumpLimit (d : Nat) (s : State) : State :=
  let l := s.leadOf d
  let x := s.getDom l
  if x.state ≠ .dumping ∨ x.lead ≠ l then s
  else
    let s := (List.range x.areas.length).foldl (fun s i => match (s.getDom l).areas[i]? with
      | some a =>
        if a.stage ≠ 0 then s
        else
          let s := bumpBy a.left.length (faultBase + 0x338) s
          dumpGo l i { a with left := [], io := none, trunc := a.trunc || !a.left.isEmpty } s
      | none => s) s
    let x := s.getDom l
    fencedNow l (s.setDom l { x with areas := x.areas.map (fun a => if a.stage = 1 then { a with stage := 3 } else a) })

/-! ### Self-test (R580 to R584) -/

/-- Islands under test. -/
def State.bistRunning (s : State) : Nat := ((List.range 27).filter (fun i => decide ((s.getIsland i).bistRun ≠ 0))).length

/-- Start what waits for one of the two places, in island-number order (R581). -/
def bistPump (s : State) : State :=
  (List.range 25).foldl (fun s i =>
    let x := s.getIsland i
    if x.bistWait ≠ 0 ∧ s.bistRunning < 2 then s.setIsland i { x with bistRun := x.bistWait, bistWait := 0 } else s) s

/-- BIST_FAIL (R605). -/
def State.bistFail (s : State) : Nat := (List.range 27).foldl (fun a i => a + (if (s.getIsland i).bistFail then 2 ^ i else 0)) 0

/-- SAFE is entered (R584): one privileged event for each island that failed. -/
def enterSafe (s : State) : State :=
  (List.range 27).foldl (fun s i => if (s.getIsland i).bistFail then raisePrivOpen 35 25 0x30 0 i s else s)
    { s with fault := { s.fault with safe := true }, mode := .keeper }

/-- A domain's member serves again (R570). -/
def domOpen (m : Nat) (s : State) : State :=
  let s := s.setDom m {}
  if m < 8 then tideResume m (s.updIsland m (fun x => { x with fenced := false }))
  else if m < 25 then s.updIsland m (fun x => { x with fenced := false })
  else
    let held := s.fault.heldPriv
    let s := { s with fault := { s.fault with heldPriv := [] } }
    held.foldl (fun s r => putRecord { queue := s.ev.privEq, data := r, priv := true } s) s

/-- The tests of a return to NORMAL have all ended (R43, R582). -/
def returnDone (s : State) : State :=
  if (List.range 25).any (fun i => (s.getIsland i).bistRun = 4 || (s.getIsland i).bistWait = 4) then s
  else if s.bistFail ≠ 0 then enterSafe s
  else
    let s := { s with mode := .normal }
    s.members.foldl (fun s m => domOpen m s) ((s.setDom 32 {}).setDom 33 {})

/-- A test of an island ends (R581 to R584). -/
def bistComplete (i : Nat) (pass : Bool) (s : State) : State :=
  let x := s.getIsland i
  if x.bistRun = 0 then s
  else
    let s := s.setIsland i { x with bistRun := 0, bistFail := !pass }
    let s := match x.bistRun with
      | 2 =>
        let s := if s.mbox.busy ∧ s.mbox.code = 0x50 then mbEnd (if pass then .ok else .eIntegrity) 0 s else s
        if s.fault.safe ∧ pass ∧ s.bistFail = 0 then { s with fault := { s.fault with safe := false } } else s
      | 3 => { s with fault := { s.fault with dftPass := pass } }
      | _ => returnDone s
    bistPump s

/-- BIST_RUN (R583). -/
def bistRun (s : State) : State :=
  let o := s.oper 0
  let i := o % 32
  mbRun 0x50 (decide (32 ≤ o)) lcAny s.running (fun s =>
    if i = 25 ∨ i = 26 ∨ !s.hasIsland i ∨ !(s.getIsland i).fenced then (some (.eState, 0), mbRefuse 0x50 .eState s)
    else if 2 ≤ s.bistRunning ∨ (s.getIsland i).bistRun ≠ 0 then (some (.eBusy, 0), s)
    else (none, s.updIsland i (fun x => { x with bistRun := 2 }))) s

/-- A pulse of DFT_BIST_START (R122): a third test waits. -/
def dftBistStart (i : Nat) (s : State) : State :=
  let lc := s.lcState
  let busy := (List.range 27).any (fun j => (s.getIsland j).bistRun = 3 || (s.getIsland j).bistWait = 3)
  if (lc = 0 ∨ lc = 1 ∨ lc = 5) ∧ !busy ∧ s.hasIsland i ∧ i < 27 ∧ (s.getIsland i).bistRun = 0 then
    bistPump (s.updIsland i (fun x => { x with bistWait := 3 }))
  else s

/-! ### Release (R570) -/

/-- A RELEASE that is refused. -/
def releaseRefuse (d : Nat) (s : State) : State :=
  auditLog 2 .eState 0x10 1 0 (faultBase + 8) 0
    { s with fault := { s.fault with relStatus := Status.eState.code, relDom := d } }

/-- A write of FAULT.RELEASE. -/
def releaseDomain (d : Nat) (s : State) : State :=
  let is := (s.domMembers d).filter (· < 25)
  let whole := decide (d = 32 ∨ d = 33)
  if !s.domNamed d ∨ s.domState d ≠ 3 then releaseRefuse d s
  else if is.any (fun i => !s.runs i) ∨
      is.any (fun i => (s.getIsland i).bistFail || (s.getIsland i).bistRun ≠ 0 || (s.getIsland i).bistWait ≠ 0) ∨
      (whole ∧ (s.fault.safe || s.strapFault || !s.fw.started)) then releaseRefuse d s
  else
    let s := { s with fault := { s.fault with relStatus := 0, relDom := d } }
    if whole then
      bistPump (is.foldl (fun s i => s.updIsland i (fun x => { x with bistWait := 4 })) s)
    else domOpen d s

/-! ### Commands -/

/-- DRAIN_LIMIT_EXPIRY (R53, R567). -/
def drainLimitExpiry (d : Nat) (s : State) : State := fencePump (drainLimit d s)

/-- DUMP_WRITTEN (R571). -/
def dumpWritten (d : Nat) (s : State) : State := fencedNow (s.leadOf d) s

end Sys2Proof.Machine
end

