-- ==== Sys2Proof/Machine/LifeCycle.lean ====
section
/-! DEFINITION. The life cycle: its codewords, LC_TRANSITION, ERASE_USER_SECRETS, and the writes of the
persistent registers (R104, R416 to R420, R434 to R446, R598, R599). -/

namespace Sys2Proof.Machine

/-! ### Codewords and states (R434 to R436) -/

/-- The pattern of a life-cycle word (R434). -/
def lcPattern : Nat → Nat
  | 0 => 0xA5A5A5A5A5A5A5A5 | 1 => 0x5A5A5A5A5A5A5A5A | 2 => 0x3C3C3C3C3C3C3C3C | 3 => 0xC3C3C3C3C3C3C3C3
  | 4 => 0x0FF00FF00FF00FF0 | 5 => 0xF00FF00FF00FF00F | 6 => 0x33CC33CC33CC33CC | 7 => 0xCC33CC33CC33CC33
  | 8 => 0x6969696969696969 | 9 => 0x9696969696969696 | 10 => 0x55AA55AA55AA55AA | 11 => 0xAA55AA55AA55AA55
  | _ => 0x0F0FF0F00F0FF0F0

/-- A word is set, corrupt, or partial (R434). -/
def lcSet (i w : Nat) : Bool := decide (w = lcPattern i)
def lcCorrupt (i w : Nat) : Bool := decide (w &&& lcPattern i ≠ w)
def lcPartial (i w : Nat) : Bool := !lcCorrupt i w && decide (w ≠ 0) && !lcSet i w

/-- The number of D words set, from the set words. -/
def lcK (on : Nat → Bool) : Nat := ((List.range 8).filter (fun i => on (3 + i))).length

/-- The state that a combination of set words decodes to, no word partial or corrupt (R435). -/
def lcDecode (on : Nat → Bool) : Nat :=
  let k := lcK on
  let row := (List.range k).all (fun i => on (3 + i))
  let base :=
    match on 0, on 1, on 2 with
    | false, false, false => if k = 0 then 0 else 7
    | true, false, false => if k = 0 then 1 else 7
    | true, true, false => if k = 0 then 2 else 7
    | true, true, true => if row then (if k % 2 = 0 then 3 else 4) else 7
    | _, _, _ => 7
  let rma := if on 11 then (if 2 ≤ base ∧ base ≤ 4 then 5 else 7) else base
  if on 12 then (if rma = 7 then 7 else 6) else rma

/-- A transition of R438: its token class (0 RAW_UNLOCK, 1 TEST_EXIT, 2 MISSION, 3 DEBUG, 4 RMA, 5 SCRAP) and
the life-cycle word that it programs; none where the table has no row. -/
def lcTrans (src dst k : Nat) : Option (Nat × Nat) :=
  match src, dst with
  | 0, 1 => some (0, 0)
  | 0, 6 => some (0, 12)
  | 1, 2 => some (1, 1)
  | 2, 3 => some (2, 2)
  | 3, 4 => some (3, 3 + k)
  | 4, 3 => some (3, 3 + k)
  | 2, 5 => some (4, 11)
  | 3, 5 => some (4, 11)
  | 4, 5 => some (4, 11)
  | 1, 6 => some (5, 12)
  | 2, 6 => some (5, 12)
  | 3, 6 => some (5, 12)
  | 4, 6 => some (5, 12)
  | 5, 6 => some (5, 12)
  | _, _ => none

/-- What the life-cycle words say: the state in force, and for a recoverable INVALID the interrupted
transition's word, target and token class (R435, R436). -/
structure LcRead where
  state : Nat
  intr  : Option (Nat × Nat × Nat) := none

def lcRead (otp : Nat → Nat) : LcRead :=
  let words := List.range 13
  let on := fun (i : Nat) => lcSet i (otp i)
  if words.any (fun i => lcCorrupt i (otp i)) then { state := 7 }
  else match words.filter (fun i => lcPartial i (otp i)) with
    | [] => { state := lcDecode on }
    | [w] =>
      let src := lcDecode on
      let hit := (List.range 7).findSome? (fun dst => match lcTrans src dst (lcK on) with
        | some (c, x) => if x = w ∧ ¬(src = 3 ∧ dst = 4 ∧ 6 < lcK on) then some (w, dst, c) else none
        | none => none)
      { state := 7, intr := if src = 7 then none else hit }
    | _ => { state := 7 }

/-- An OTP word as held. -/
def State.otpWord (s : State) (i : Nat) : Nat := Tab.get 0 s.lc.otp i

/-- n OTP words from an index as bytes, most significant byte first (R416). -/
def State.otpBytes (s : State) (i n : Nat) : Bytes := ((List.range n).map (fun j => beBytes 8 (s.otpWord (i + j)))).flatten

/-- The vendor key hash is not zero. -/
def State.vkhSet (s : State) : Bool := s.otpBytes 0x40 6 ≠ zeros 48

/-- The anti-rollback value c (R446). -/
def arbValue (w : Nat) : Nat := if w % 2 ^ 64 = 0 then 0 else Nat.log2 (w % 2 ^ 64) + 1

/-- D words set, as the words now decode. -/
def State.lcD (s : State) : Nat := lcK (fun i => lcSet i (s.otpWord i))

/-- LC_STATUS (R449). -/
def State.lcStatus (s : State) : Nat :=
  let l := s.lc
  l.state + fld 3 1 (b2n (l.state = 4)) + fld 4 1 (b2n l.pending) + fld 5 3 l.pendTarget + fld 8 1 (b2n l.recoverable) +
    fld 9 4 l.intrWord + fld 13 3 l.intrTarget + fld 16 2 l.rootState + fld 18 1 (Tab.get 0 s.audit.preg 1) +
    fld 19 1 (b2n l.fillBusy) + fld 20 3 (4 - (s.lcD + 1) / 2) + fld 23 7 (arbValue (s.otpWord 0x48)) +
    fld 30 5 l.tokenFails + fld 35 1 (b2n l.tokenLock) + fld 36 1 (b2n s.vkhSet)

/-! ### Persistent registers (R104, R105, R598, R599) -/

/-- Ask for a write of a persistent register (R104): the incremented wear counter goes to the store first.
E_WEAR where the counter has reached 100,000. -/
def pregPush (i value : Nat) (host : Bool) (s : State) : Status × State :=
  let due := (s.audit.nv.filter (fun r => match r.use with | .wear j _ _ => j = i | _ => false)).length
  let w := Tab.get 0 s.audit.wear i + due
  if 100000 ≤ w then (.eWear, s)
  else (.ok, nvPush { wr := true, addr := 0x100 + i, data := w + 1, use := .wear i value host } s)

/-- PREG_STS (R599). -/
def pregStatus (i : Nat) (st : Status) (s : State) : State :=
  { s with audit := { s.audit with pregIdx := i, pregSt := st.code } }

/-- PREG_WRITE (R598, R599): the owner writes registers 32 to 255, Prity those that the block owns. -/
def pregWrite (m : Master) (i value : Nat) (s : State) : State :=
  let a := auditBase + 0x1000 + 8 * i
  let ok := match m with
    | .pf => decide (32 ≤ i ∧ i < 256)
    | .prity => decide (i < 8)
    | _ => false
  regGuard a ok (fun s =>
    let r := pregPush i (value % 2 ^ 64) true s
    if r.1 = .ok then r.2 else pregStatus i r.1 r.2) s

/-- PREG_WRITE. -/
def execPregWrite (m : Master) (index value : Nat) (s : State) : Out := live (pregWrite m index value) s

/-! ### Erasing user secrets (R444, R445) -/

/-- Steps 1 to 3 of the erase; E_LC where USER_EPOCH has reached its wear limit. -/
def eraseBegin (s : State) : Status × State :=
  if 100000 ≤ Tab.get 0 s.audit.wear 0 then (.eLc, s)
  else
    let s := s.keys.berths.foldl (fun s p =>
      if p.2.usage = 2 ∨ p.2.usage = 3 ∨ p.2.usage = 5 then emptyBerth p.1 s else s) s
    pregPush 0 ((s.userEpoch + 1) % 2 ^ 64) false s

/-- Step 5 of the erase: the fill of the NV user region begins. -/
def fillBegin (s : State) : State :=
  nvPush { wr := true, addr := 0x2000, data := 0, use := .fill }
    { s with lc := { s.lc with fillBusy := true, fillNext := 0 } }

/-- A word of the fill is written. -/
def fillNext (s : State) : State :=
  let n := s.lc.fillNext + 1
  if 8192 ≤ n then { s with lc := { s.lc with fillBusy := false, fillNext := 0 } }
  else nvPush { wr := true, addr := 0x2000 + n, data := 0, use := .fill } { s with lc := { s.lc with fillNext := n } }

/-- Every mooring is FREE. -/
def State.moorsFree (s : State) : Bool := s.moor.all (fun p => decide (p.2.state = .free))

/-- ERASE_USER_SECRETS (R338, R444). -/
def eraseUserSecrets (s : State) : State :=
  mbRun 0x61 false [3] (s.running && s.moorsFree) (fun s =>
    let r := eraseBegin s
    if r.1 ≠ .ok then (some (r.1, 0), mbRefuse 0x61 r.1 r.2) else (none, r.2)) s

/-- ERASE_USER_SECRETS. -/
def execEraseUserSecrets (s : State) : Out := live eraseUserSecrets s

/-! ### LC_TRANSITION (R438 to R443) -/

/-- The end of an LC_TRANSITION: logged with its outcome, DATA zeroed (R439, R440, R592). -/
def lcOutcome (st : Status) (s : State) : State :=
  let s := auditLog 4 st s.mbMaster 1 0 (bits 0 3 (s.oper 0)) s.lcStatus s
  let s := bumpIf (st = .eState || st = .eLc || st = .eToken) (keyBase + 0x428) s
  { s with mbox := { s.mbox with data := [] } }

/-- Conditions of R438 whose failure is E_STATE: moorings, ERASED and NVFILL_BUSY. -/
def lcCondState (s : State) (src dst : Nat) : Bool :=
  match src, dst with
  | 3, 4 => decide (Tab.get 0 s.audit.preg 1 = 1) && !s.lc.fillBusy && s.moorsFree
  | 0, _ => true
  | 1, 2 => true
  | 2, 3 => true
  | 7, _ => true
  | _, _ => s.moorsFree

/-- Conditions of R438 whose failure is E_LC: the root, the vendor key hash, k. -/
def lcCondLc (s : State) (src dst : Nat) : Bool :=
  match src, dst with
  | 2, 3 => (s.lc.rootState = 1 || s.lc.rootState = 2) && s.vkhSet
  | 3, 4 => decide (s.lcD ≤ 6)
  | _, _ => true

/-- The transition that a command asks for: token class and word (R436, R438). -/
def State.lcWant (s : State) (dst : Nat) : Option (Nat × Nat) :=
  if s.lcState = 7 then
    match (lcRead s.otpWord).intr with
    | some (w, t, c) => if t = dst ∧ s.lc.recoverable = true then some (c, w) else none
    | none => none
  else lcTrans s.lcState dst s.lcD

/-- The SHA3-256 digest of a token class (R416). -/
def State.tokenDigest (s : State) (c : Nat) : Bytes :=
  if c = 0 then Config.rawUnlockDigest else s.otpBytes (0x28 + 4 * (c - 1)) 4

/-- The payload of RAW to TEST: OTP word and value (R438, R439). -/
def lcPayload (d : Bytes) : List (Nat × Nat) :=
  let word := fun (off : Nat) => beNat (slice off 8 d)
  (List.range 20).map (fun i => (0x28 + i, word (32 + 8 * i))) ++ (List.range 6).map (fun i => (0x40 + i, word (192 + 8 * i)))

/-- Program a transition's words: the payload with its read-back first, the life-cycle word last (R438). -/
def lcProgram (s : State) : State :=
  let dst := s.lc.target
  let w := (s.lcWant dst).getD (0, 0)
  let payload := if s.lcState = 0 ∧ dst = 1 then lcPayload (s.mbData 0 240) else []
  let last := (w.2, lcPattern w.2)
  let s := payload.foldl (fun s p => otpPush { prog := true, addr := p.1, data := p.2, use := .program } s) s
  let s := (List.range payload.length).zip payload |>.foldl (fun s p =>
    otpPush { prog := false, addr := p.2.1, data := 0, use := .back p.2.2 (p.1 + 1 = payload.length) } s) s
  if payload.isEmpty then
    let s := otpPush { prog := true, addr := last.1, data := last.2, use := .program } s
    otpPush { prog := false, addr := last.1, data := 0, use := .back last.2 true } s
  else { s with lc := { s.lc with prog := [last] } }

/-- The checks of R440, orders 1 to 5. -/
def lcChecks (s : State) : Status :=
  let dst := bits 0 3 (s.oper 0)
  let src := s.lcState
  let len := if src = 0 ∧ dst = 1 then 240 else 32
  let want := s.lcWant dst
  let dig := s.tokenDigest ((want.getD (0, 0)).1)
  firstFail .ok
    [(decide (8 ≤ s.oper 0 ∨ dst = 7 ∨ s.mbox.dataLen ≠ len), .eEncoding),
     (s.lc.tokenLock || s.lc.pending || s.moor.any (fun p => decide (p.2.state = .active)) || !lcCondState s src dst, .eState),
     (want.isNone || !lcCondLc s src dst, .eLc),
     (decide (dig = zeros 32) || sha3 (s.mbData 0 32) ≠ dig, .eToken),
     (decide (src = 0 ∧ dst = 1) &&
        (lcPayload (s.mbData 0 240)).any (fun p => decide (s.otpWord p.1 &&& p.2 ≠ s.otpWord p.1)), .eLc)]

/-- Count an E_TOKEN (R441): the sixteenth locks. -/
def tokenFail (s : State) : State :=
  let n := s.lc.tokenFails + 1
  let s := { s with lc := { s.lc with tokenFails := n } }
  if n = 16 then raisePrivOpen 34 25 0x2E 0 0 { s with lc := { s.lc with tokenLock := true } } else s

/-- A transition that performs the erase (R438). -/
def lcErases (src dst : Nat) : Bool := decide ((src = 4 ∧ dst = 3) ∨ (2 ≤ src ∧ src ≤ 4 ∧ dst = 5))

/-- LC_TRANSITION (R438 to R443). -/
def lcTransition (s : State) : State :=
  mbRun 0x60 false [0, 1, 2, 3, 4, 5, 6, 7] true (fun s =>
    let dst := bits 0 3 (s.oper 0)
    let st := lcChecks s
    if st ≠ .ok then (some (st, 0), lcOutcome st (if st = .eToken then tokenFail s else s))
    else
      let s := { s with lc := { s.lc with target := dst } }
      if lcErases s.lcState dst then
        let r := eraseBegin s
        if r.1 ≠ .ok then (some (r.1, 0), lcOutcome r.1 r.2)
        else (none, { r.2 with lc := { r.2.lc with erasing := true } })
      else (none, lcProgram s)) s

/-- LC_TRANSITION. -/
def execLcTransition (s : State) : Out := live lcTransition s

/-- The transition's words read back right (R442): it is PENDING, every berth and the key store are zeroised,
every data-path island is fenced. The manual names no CAUSE for the dump of such a fence: a free value. -/
def lcDone (s : State) : State :=
  let s := { s with lc := { s.lc with pending := true, pendTarget := s.lc.target, prog := [] } }
  let s := s.keys.berths.foldl (fun s p => emptyBerth p.1 s) s
  let s := { s with att := { s.att with store := {} } }
  let f := s.free
  let s := s.dataIslands.foldl (fun s d =>
    if s.domState d = 0 then fenceGroup d (f.1 % 256) [d] s else s) f.2
  let s := raisePrivOpen 33 25 0x28 0 s.lc.pendTarget s
  mbEnd .ok 0 (lcOutcome .ok s)

/-- A programmed word has been read back (R438, R440): order 6 fails, or the programming goes on. -/
def lcBack (ok last : Bool) (s : State) : State :=
  if !ok then
    let s := { s with audit := { s.audit with otp := [] }, lc := { s.lc with prog := [] } }
    mbEnd .eLc 0 (lcOutcome .eLc s)
  else if !last then s
  else match s.lc.prog with
    | (w, p) :: _ =>
      let s := { s with lc := { s.lc with prog := [] } }
      let s := otpPush { prog := true, addr := w, data := p, use := .program } s
      otpPush { prog := false, addr := w, data := 0, use := .back p true } s
    | [] => lcDone s

/-- An erase of the running mailbox command goes on after a persistent register is written (R444). -/
def eraseOn (i value : Nat) (s : State) : State :=
  if ¬(s.mbox.busy = true ∧ (s.mbox.code = 0x61 ∨ (s.mbox.code = 0x60 ∧ s.lc.erasing = true))) then s
  else if i = 0 then
    let r := pregPush 1 1 false s
    if r.1 = .ok then r.2
    else
      let s : State := { r.2 with lc := { r.2.lc with erasing := false } }
      let code : Nat := s.mbox.code
      mbEnd r.1 0 (if code = 0x60 then lcOutcome r.1 s else s)
  else if i = 1 ∧ value = 1 then
    let s := fillBegin s
    if s.mbox.code = 0x61 then mbEnd .ok 0 s
    else lcProgram { s with lc := { s.lc with erasing := false } }
  else s

/-- A write of the erase failed (R105): its command ends with E_INTEGRITY. -/
def eraseFail (s : State) : State :=
  if s.mbox.busy ∧ s.mbox.code = 0x61 then mbEnd .eIntegrity 0 s
  else if s.mbox.busy ∧ s.mbox.code = 0x60 ∧ s.lc.erasing = true then
    let s := { s with lc := { s.lc with erasing := false } }
    mbEnd .eIntegrity 0 (lcOutcome .eIntegrity s)
  else s

end Sys2Proof.Machine
end

