-- ==== Sys2Proof/Machine/Tenants.lean ====
section
/-! DEFINITION. Moorings: admission, removal and scrubbing (R484 to R495, R512, R623). -/

namespace Sys2Proof.Machine

open Sys2Proof

def MoorState.code : MoorState → Nat
  | .free => 0 | .admitting => 1 | .active => 2 | .removing => 3 | .quarantine => 4 | .scrubbing => 5

/-! ### The admission record (R486, R487, R489) -/

/-- The fields of an admission record: mooring, VF field, the settings with the POLICY byte as given. -/
def admRecord (d : Bytes) : Nat × Nat × Admission :=
  let f := fun (o n : Nat) => leNat (slice o n d)
  let regions := (List.range (min 64 (f 6 1))).map (fun i =>
    (f (128 + 16 * i) 1, f (130 + 16 * i) 6, f (136 + 16 * i) 8))
  (f 1 1, f 2 2,
   { policy := f 4 1, ctxLog2 := f 5 1, qFirst := f 8 2, qCount := f 10 2, slotFirst := f 12 2, slotCount := f 14 2
     eqFirst := f 16 2, eqCount := f 18 2, quota := f 20 4, keyL := f 24 2, keyP := f 26 2, sessMax := f 28 2
     lbase := f 32 8, lsize := f 40 8, scratch := f 48 4, pool := f 52 4, pbase := f 56 8, poolSess := f 64 2
     poolRline := f 72 8, tenantId := slice 80 32 d, tserial := f 112 8
     traceKib := f 120 4, dumpKib := f 124 4, regions := regions })

/-- A region of an admission record breaks its encoding: its index, its place in the local arena, the alignment
of R175 on an engine present. -/
def admRegionBad (s : State) (a : Admission) (r : Nat × Nat × Nat) : Bool :=
  decide (64 ≤ r.1 ∨ 2 ^ 43 ≤ r.2.1 ∨ 2 ^ 50 ≤ r.2.2 ∨ r.2.2 < a.lbase ∨ a.lbase + a.lsize < r.2.2 + 128 * r.2.1) ||
    s.engines.any (fun n => decide (r.2.2 % 2 ^ ((s.eng n).reg.granLog2 + (s.eng n).reg.waysLog2) ≠ 0))

/-- Check 1 of R487. -/
def admBad (s : State) (d : Bytes) (len : Nat) : Bool :=
  let g := admRecord d
  let a := g.2.2
  let f := fun (o n : Nat) => leNat (slice o n d)
  let gib := 2 ^ 30
  decide (f 0 1 ≠ 1 ∨ 64 < f 6 1 ∨ len ≠ 128 + 16 * f 6 1 ∨ f 7 1 ≠ 0 ∨ f 30 2 ≠ 0 ∨ f 66 6 ≠ 0 ∨ 4096 ≤ g.2.1) ||
  decide (bits 4 3 a.policy ≠ 0 ∨ a.ctxLog2 < 10 ∨ 20 < a.ctxLog2 ∨ 4096 ≤ a.qFirst ∨ 256 < a.qCount ∨
    4096 < a.qFirst + a.qCount ∨ 1024 ≤ a.slotFirst ∨ 1024 < a.slotFirst + a.slotCount ∨ 256 ≤ a.eqFirst ∨
    256 < a.eqFirst + a.eqCount ∨ 131071 < a.quota ∨ a.keyL = 0 ∨ 8192 ≤ a.keyL ∨ 8192 ≤ a.keyP ∨ 4096 < a.sessMax) ||
  decide (2 ^ 50 ≤ a.lbase ∨ a.lbase % gib ≠ 0 ∨ a.lsize = 0 ∨ a.lsize % gib ≠ 0 ∨ 2 ^ 50 < a.lbase + a.lsize ∨
    2 ^ 50 ≤ a.pbase ∨ a.pbase % gib ≠ 0 ∨ 2 ^ 50 < a.pbase + a.pool * gib ∨ a.lsize < a.scratch * gib ∨
    (a.pool ≠ 0 ∧ a.keyP = 0) ∨ a.keyL = a.keyP ∨ 4096 ≤ a.poolSess ∨ 2 ^ 43 ≤ a.poolRline ∨
    65536 < a.traceKib ∨ a.traceKib % 4 ≠ 0 ∨ 65536 < a.dumpKib ∨ a.dumpKib % 4 ≠ 0) ||
  decide (¬ (a.regions.map (·.1)).Nodup) || a.regions.any (admRegionBad s a) ||
  (List.range a.regions.length).any (fun i => decide (f (129 + 16 * i) 1 ≠ 0))

/-- The policy byte in force (R489). -/
def policyByte (p : Nat) : Nat := if bit1 7 p then p else 1

/-- The moorings not FREE, but for one. -/
def State.otherMoors (s : State) (t : Nat) : List Mooring :=
  (s.moor.filter (fun p => decide (p.1 ≠ t ∧ p.2.state ≠ .free))).map (·.2)

/-- Do two ranges (first, count) overlap? -/
def meets (a n b m : Nat) : Bool := decide (a < b + m ∧ b < a + n ∧ n ≠ 0 ∧ m ≠ 0)

/-- The TENANT_ID that a REVOKE or an ADVANCE names. -/
def Change.who (c : Change) : Bytes := slice 8 32 c.body
/-- A change that names a tenant. -/
def Change.names (c : Change) (id : Bytes) : Bool := decide ((c.kind = 5 ∨ c.kind = 6) ∧ c.who = id)

/-- Check 3 of R487. -/
def admState (s : State) (t vf : Nat) (a : Admission) : Bool :=
  let others := s.otherMoors t
  decide ((s.getMoor t).state ≠ .free) || others.any (fun m => decide (m.vf = some vf ∨ m.adm.tenantId = a.tenantId)) ||
    (s.fed.queue ++ s.fed.running.toList).any (fun c => c.names a.tenantId) ||
    s.fed.revokes.any (fun r => decide (r.who.take 32 = a.tenantId)) ||
    (bit1 1 (policyByte a.policy) && others.any (fun m => bit1 1 m.adm.policy)) || decide (s.fed.state ≠ .member)

/-- The lines of a home window on an engine for a pool arena: the window's base, a whole round of the
interleave, and the engine's lines from it on (R166). -/
def LicReg.homeLines (r : LicReg) (a : Admission) : Nat × Nat :=
  let round := 2 ^ (r.granLog2 + r.waysLog2)
  let base := a.pbase / round * round
  (base, if a.pool = 0 then 0 else r.share ((a.pbase + a.pool * 2 ^ 30 - base + 127) / 128))

/-- The lowest run of free home slots of an engine (R488): none where there is no room (R166). -/
def Engine.freeSlots (e : Engine) (n : Nat) : Option Nat :=
  let used := (e.phome.filter (fun p => p.2.valid)).map (·.2)
  let starts := e.reg.dataLines :: used.map (fun p => p.slot + p.lines)
  let good := starts.filter (fun x => decide (e.reg.dataLines ≤ x ∧ x + n ≤ e.reg.memLines) &&
    used.all (fun p => !meets x n p.slot p.lines))
  good.foldl (fun o x => some (match o with | none => x | some y => min x y)) none

/-- A free home window of an engine. -/
def Engine.freeWindow (e : Engine) : Option Nat := (List.range 64).find? (fun p => !(Tab.get {} e.phome p).valid)

/-- A free pool route (R409). -/
def State.freeRoute (s : State) : Option Nat := (List.range 64).find? (fun r => !(Tab.get {} s.fed.reg.proute r).valid)

/-- Free object entries that no mooring is promised (R310, R487). -/
def State.freeObjs (s : State) (t : Nat) : Nat :=
  let owned := (s.obj.filter (fun p => decide (p.2.state = .retired ∨ (p.2.state ≠ .free ∧ tenMoor p.2.ten = none)))).length
  131071 - owned - ((s.otherMoors t).map (fun m => m.adm.quota)).sum

/-- Bytes of the metadata area (R490). -/
def Admission.metaSize (a : Admission) : Nat := a.offDump + up4k (a.dumpKib * 1024)

/-- EMPTY berths. -/
def State.emptyBerths (s : State) : Nat :=
  65536 - (s.keys.berths.filter (fun p => decide (p.2.state ≠ .empty))).length

/-- Check 4 of R487. -/
def admRes (s : State) (t : Nat) (a : Admission) : Bool :=
  let others := (s.otherMoors t).map (·.adm)
  let keys := if a.keyP = 0 then 1 else 2
  others.any (fun o => meets a.qFirst a.qCount o.qFirst o.qCount || meets a.slotFirst a.slotCount o.slotFirst o.slotCount ||
    meets a.eqFirst a.eqCount o.eqFirst o.eqCount || meets a.lbase a.lsize o.lbase o.lsize ||
    meets a.pbase (a.pool * 2 ^ 30) o.pbase (o.pool * 2 ^ 30) ||
    a.regions.any (fun r => o.regions.any (fun q => decide (q.1 = r.1)))) ||
  (s.getKmap a.keyL).valid || (decide (a.keyP ≠ 0) && (s.getKmap a.keyP).valid) || decide (s.freeObjs t < a.quota) ||
  decide (s.emptyBerths < keys + 2 ∨ 8192 < s.memBerths + keys) || (drbg 32 s).isNone ||
  (decide (a.pool ≠ 0) && (s.freeRoute.isNone || s.engines.any (fun n =>
    let e := s.eng n
    let w := (e.reg.homeLines a).2
    decide (w ≠ 0) && (e.freeWindow.isNone || (e.freeSlots w).isNone)))) ||
  decide (a.lsize - a.scratch * 2 ^ 30 < a.metaSize)

/-! ### The steps of admission (R488) -/

/-- A policy-class register that Prity writes within a larger command (R21, R40): false where the read-back
fails twice. -/
def prityPut (addr old value : Nat) (f : State → State) (s : State) : Bool × State :=
  let r := readBackFails s
  if r.1 then (false, auditLog 2 .eIntegrity 0 0 0 addr value r.2)
  else (true, if old = value then f r.2 else auditLog 1 .ok 0 0 0 addr value (f r.2))

/-- Steps in a row, up to the first that fails. -/
def steps : List (State → Bool × State) → State → Bool × State
  | [], s => (true, s)
  | f :: t, s => let r := f s; if r.1 then steps t r.2 else r

/-- Prity's berth command within a larger one (R448): logged where it changes the berth. -/
def berthStep (i : Nat) (f : State → Status × State) (s : State) : Bool × State :=
  let before := s.getBerth i
  let r := f s
  let b := r.2.getBerth i
  (decide (r.1 = .ok), if b = before then r.2 else auditLog 3 r.1 0 0 0 i (b.attr b.state.code) r.2)

/-- GEN of a memory berth for a KeyID, and its map entry (R488, step 1). -/
def admKey (t keyid : Nat) (s : State) : Bool × State :=
  let i := s.freeBerth.getD 0
  let b : Berth := { masters := (s.engines.map (fun n => 2 ^ mLichen n)).sum + 2 ^ mTide, world := 2, tenant := t, lcmask := 0x18, usage := 0 }
  let k : KmapEnt := { berth := i, valid := true }
  steps [berthStep i (berthGen i b), prityPut (keyBase + 0x308) 0 k.word (kmapPut keyid k)] s

/-- DERIVE a key of label 7 from the domain secret (R488, step 2; R493). -/
def admDerive (t kind usage : Nat) (a : Admission) (set : Nat → Mooring → Mooring) (s : State) : Bool × State :=
  let i := s.freeBerth.getD 0
  let b : Berth := { masters := 2 ^ mKdf, world := 2, tenant := t, lcmask := 0x18, usage := usage }
  let ctx := [BitVec.ofNat 8 kind] ++ a.tenantId ++ beBytes 8 a.tserial
  let r := berthStep i (berthDerive i b false (s.fed.domSecret.getD 0) 7 ctx) s
  (r.1, if r.1 then r.2.updMoor t (set i) else r.2)

/-- The Tide intervals of the mooring's KeyIDs (R178, R488 step 4): home slots from `home`. -/
def tideRecord (a : Admission) (home : Nat → Nat) (s : State) : State :=
  s.engines.foldl (fun s n =>
    let r := (s.eng n).reg
    let idx := fun (x : Nat) => min r.dataLines (r.share ((x - r.base) / 128))
    let w := (r.homeLines a).2
    let put (k : Nat) (v : ArenaIv) (s : State) : State :=
      { s with tide := { s.tide with arena := Tab.set {} s.tide.arena (k * 8 + n) v } }
    let s := put a.keyL { localFirst := idx a.lbase, localEnd := idx (a.lbase + a.lsize) } s
    if a.keyP = 0 then s else put a.keyP { poolFirst := home n, poolEnd := home n + w } s) s

/-- Write a region's descriptor on an engine: EMPTY, GEN 0 (R488, step 5). -/
def frzPut (a : Admission) (r : Nat × Nat × Nat) (n : Nat) (s : State) : Bool × State :=
  let z := Tab.get {} (s.eng n).frz r.1
  let upd (g : Frz → Frz) (s : State) : State := s.updEng n (fun e =>
    { e with frz := Tab.set {} e.frz r.1 (g (Tab.get {} e.frz r.1)) })
  let w := frzAddr n r.1
  steps [
    prityPut w z.base r.2.2 (upd (fun z => { z with base := r.2.2 })),
    prityPut (w + 8) z.lines r.2.1 (upd (fun z => { z with lines := r.2.1 })),
    prityPut (w + 0x10) (fld 0 2 z.state + fld 2 13 z.keyid + fld 32 32 z.gen) (fld 2 13 a.keyL)
      (upd (fun z => { z with state := 0, keyid := a.keyL, gen := 0, fill := 0 }))] s

def Phome.word (p : Phome) : Nat := fld 0 47 p.slot + fld 63 1 (b2n p.valid)

/-- Write a home window (R176). -/
def phomePut (n p : Nat) (w : Phome) (s : State) : Bool × State :=
  let z := Tab.get {} (s.eng n).phome p
  let upd (g : Phome → Phome) (s : State) : State := s.updEng n (fun e =>
    { e with phome := Tab.set {} e.phome p (g (Tab.get {} e.phome p)) })
  let a := licBase n + 0x1800 + p * 0x20
  steps [
    prityPut a z.base w.base (upd (fun z => { z with base := w.base })),
    prityPut (a + 8) z.lines w.lines (upd (fun z => { z with lines := w.lines })),
    prityPut (a + 0x10) z.word w.word (upd (fun z => { z with slot := w.slot, valid := w.valid }))] s

/-- Write a pool route (R409). -/
def proutePut (r : Nat) (w : Proute) (s : State) : Bool × State :=
  let z := Tab.get {} s.fed.reg.proute r
  let upd (g : Proute → Proute) (s : State) : State :=
    let f := s.fed.reg
    { s with fed := { s.fed with reg := { f with proute := Tab.set {} f.proute r (g (Tab.get {} f.proute r)) } } }
  let a := fedBase + 0x4000 + r * 0x20
  steps [
    prityPut (a + 8) z.limit w.limit (upd (fun z => { z with limit := w.limit })),
    prityPut (a + 0x10) z.sess w.sess (upd (fun z => { z with sess := w.sess })),
    prityPut (a + 0x18) z.rline w.rline (upd (fun z => { z with rline := w.rline })),
    prityPut a (z.base + fld 63 1 (b2n z.valid)) (w.base + fld 63 1 (b2n w.valid))
      (upd (fun z => { z with base := w.base, valid := w.valid }))] s

/-- The end of a TENANT_ADMIT. -/
def admEnd (t : Nat) (st : Status) (s : State) : State :=
  mbEnd st 0 (s.updMoor t (fun m => { m with lastSt := st.code }))

/-- Steps 4 to 7 of R488, and entry to ACTIVE (R484, R445). -/
def admRest (t : Nat) (s : State) : State :=
  let m := s.getMoor t
  let a := m.adm
  let vf := bits 0 12 (admRecord (s.mbData 0 128)).2.1
  let homes := s.engines.map (fun n => (n, ((s.eng n).freeSlots ((s.eng n).reg.homeLines a).2).getD 0))
  let home := fun (n : Nat) => ((homes.find? (fun p => p.1 = n)).map (·.2)).getD 0
  let frz := a.regions.flatMap (fun r => s.engines.map (frzPut a r))
  let wins := s.engines.flatMap (fun n =>
    let h := (s.eng n).reg.homeLines a
    if h.2 = 0 then [] else
      [phomePut n ((s.eng n).freeWindow.getD 0) { base := h.1, lines := h.2, slot := home n, valid := true }])
  let route := if a.pool = 0 then [] else
    [proutePut (s.freeRoute.getD 0) { base := a.pbase, limit := a.pbase + a.pool * 2 ^ 30, valid := true
                                      sess := a.poolSess, rline := a.poolRline }]
  let r := steps (frz ++ wins ++ route) (tideRecord a home s)
  if !r.1 then admEnd t .eIntegrity r.2
  else
    let s := (List.range a.qCount).foldl (fun s k => s.updQueue (a.qFirst + k) (fun x => { x with ten := t })) r.2
    let s := (List.range a.eqCount).foldl (fun s k => s.updEq (a.eqFirst + k) (fun x => { x with ten := t })) s
    let blocks := fun (n : Nat) => (List.range n).map (fun i => (30, i * 2 ^ 30))
    let s := s.updMoor t (fun m => { m with
      vf := some vf, state := .active, bLocal := blocks a.scratch, bPool := blocks a.pool })
    let s := if Tab.get 0 s.audit.preg 1 = 0 then s else (pregPush 1 0 false s).2
    admEnd t .ok s

/-- The zero fill has written a line (R488, step 3): the next one, or the remaining steps. -/
def admFillNext (id t addr size : Nat) (s : State) : State :=
  let op := s.getOp id
  let n := op.res + 128
  if (s.getMoor t).state ≠ .admitting then s.dropOp id
  else if n < size then ioWrite id (addr + n) (zeros 128) (s.setOp id { op with res := n, io := none })
  else admRest t (s.dropOp id)

/-- A line of the zero fill failed. -/
def admFillFail (id t : Nat) (s : State) : State :=
  if (s.getMoor t).state ≠ .admitting then s.dropOp id else admEnd t .eIntegrity (s.dropOp id)

/-- TENANT_ADMIT (R487, R488). -/
def tenantAdmit (s : State) : State :=
  let len := s.mbox.dataLen
  let d := s.mbData 0 (128 + 16 * 64)
  let g := admRecord d
  let t := g.1
  let a := g.2.2
  mbRun 0x20 (admBad s d len) [3, 4] (s.normal && !admState s t g.2.1 a) (fun s =>
    if admRes s t a then (some (.eNoRes, 0), s.updMoor t (fun m => { m with lastSt := Status.eNoRes.code }))
    else
      let a := { a with policy := policyByte a.policy }
      let s := s.setMoor t { state := .admitting, adm := a }
      let r := steps ([admKey t a.keyL] ++ (if a.keyP = 0 then [] else [admKey t a.keyP]) ++
        [admDerive t 1 3 a (fun i m => { m with dkey := some i }),
         admDerive t 2 1 a (fun i m => { m with link := some i })]) s
      if !r.1 then (some (.eIntegrity, 0), r.2.updMoor t (fun m => { m with lastSt := Status.eIntegrity.code }))
      else
        let op : Op := { own := .block, ten := t, ctx := 0, code := 0xFF, body := .admitFill t a.metaBase a.metaSize
                         counted := false }
        let o := startOp op r.2
        (none, ioWrite o.1 a.metaBase (zeros 128) o.2)) s

/-! ### Removal (R484, R512, R623) -/

/-- A running TENANT_ADMIT of a mooring stops after the step in progress (R509). -/
def admStop (t : Nat) (s : State) : State :=
  if (s.getMoor t).state ≠ .admitting then s
  else
    let fill := s.ops.filter (fun p => match p.2.body with | .admitFill u _ _ => decide (u = t) | _ => false)
    let s := fill.foldl (fun s p => s.dropOp p.1) s
    if !fill.isEmpty ∧ s.mbox.busy ∧ s.mbox.code = 0x20 then admEnd t .eAborted s else s

/-- A TDI moves to ERROR (R472). -/
def tdiError (vf : Nat) (s : State) : State :=
  let x := Tab.get ({} : Tdi) s.att.tdi vf
  if x.state = .locked ∨ x.state = .run then
    { s with att := { s.att with tdi := Tab.set {} s.att.tdi vf { x with state := .error } } }
  else s

/-- The queues of a mooring. -/
def Admission.queues (a : Admission) : List Nat := (List.range a.qCount).map (a.qFirst + ·)

/-- Commands that have been fetched and not started end with E_ABORTED at their places (R512, step 1). -/
def intakePump (t : Nat) (s : State) : State :=
  (s.getMoor t).adm.queues.foldl (fun s q =>
    if (s.getQueue q).ten = t ∧ (s.getQueue q).en = true ∧ (s.getQueue q).fetched ≠ [] then
      (squashQueue q (fun _ => true) s).2
    else s) s

/-- Started work of a mooring ends with E_ABORTED (R512, step 3). -/
def abortOps (t : Nat) (s : State) : State :=
  let mine := s.ops.filter (fun p => !p.2.fin && decide (p.2.ten = t))
  mine.foldl (fun s p => match p.2.own, p.2.body with
    | .target _ _ _, _ => s.dropOp p.1
    | .block, _ => s
    | _, .sealLoad _ => sealFail p.1 .eAborted s
    | _, .allocZero a k _ _ _ => allocZeroFail p.1 a k .eAborted s
    | _, .launch _ _ => s
    | _, .objFree o => finishOp p.1 .eAborted 0 0 (s.updObj o (fun x => { x with waiter := none }))
    | _, _ => finishOp p.1 .eAborted 0 0 s) s

/-- REDUCE frames that wait or are staged for a mooring's slots are dropped, each counted (R196, R512). -/
def dropReduce (t : Nat) (s : State) : State :=
  let a := (s.getMoor t).adm
  let mine := fun (n : Nat) => decide (a.slotFirst ≤ n ∧ n < a.slotFirst + a.slotCount)
  let waits := (s.red.waits.filter (fun w => mine w.slot)).length
  let staged := ((s.red.slots.filter (fun p => p.2.armed && mine p.1)).map (fun p =>
    (p.2.chunks.map (fun c => (c.staged.filter (fun x => x.quay.isSome)).length)).sum)).sum
  let s := failSlots (fun x => decide (x.ten = t)) .eAborted s
  bumpBy (waits + staged) (redBase + 0x138)
    { s with red := { s.red with waits := s.red.waits.filter (fun w => !mine w.slot) } }

/-- The berths of a mooring. -/
def State.moorBerths (s : State) (t : Nat) : List Nat :=
  (s.keys.berths.filter (fun p => decide (p.2.world = 2 ∧ p.2.tenant = t))).map (·.1)

/-- A berth step of Prity's over every berth of a mooring, read back and logged (R40, R448). -/
def berthsStep (t : Nat) (src : BerthState) (f : Nat → State → State) (s : State) : State :=
  (s.moorBerths t).foldl (fun s i =>
    if (s.getBerth i).state = src then
      (berthStep i (fun s => let r := readBackFails s; if r.1 then (.eIntegrity, makeBad i r.2) else (.ok, f i r.2)) s).2
    else s) s

/-- The revocation point (R512, step 3). -/
def revokePoint (t : Nat) (s : State) : State :=
  let m := s.getMoor t
  if m.state ≠ .removing ∨ m.revoked then s
  else
    let s := s.setMoor t { m with revoked := true }
    let s := berthsStep t .valid revokeBerth s
    let s := s.sess.foldl (fun s p => if p.2.ten = t then revokeSess p.1 s else s) s
    let s := stopStrands (fun _ x => decide (x.ten = t ∧ x.state ≠ .idle)) .eAborted s
    cancelJobs t (abortOps t (dropReduce t s))

/-- The steps of R512 begin: the mooring takes no more work. `drain` gives the mode. -/
def removeBegin (t : Nat) (drain : Bool) (s : State) : State :=
  let m := s.getMoor t
  if m.state ≠ .admitting ∧ m.state ≠ .active then s
  else
    let s := admStop t s
    let s := s.updMoor t (fun m => { m with state := .removing })
    let s := match m.vf with | some v => tdiError v s | none => s
    let s := intakePump t s
    if drain then s else revokePoint t s

/-- DRAIN_WINDOW_END (R512, step 2). -/
def drainWindowEnd (t : Nat) (s : State) : State := revokePoint t s

/-- Merge entries of a mooring that still wait for write data, and what stands behind them on their lines, end
with E_KEY_REVOKED; nothing of their lines is written (R157, R512 step 4). -/
def drainMerges (t n : Nat) (s : State) : State :=
  let e := s.eng n
  let gone := e.ops.filter (fun o => decide (o.ten = t ∧ o.kind = .part) && !e.survives o &&
    (match o.org with | .up _ _ _ => true | _ => false))
  if gone.isEmpty then s
  else
    let s := gone.foldl (fun s o => endLine n o .eKeyRevoked (zeros 128) 0 s) s
    let s := (s.eng n).ops.foldl (fun s o => chainClose n o s) s
    advance n s

/-- Every started piece of a mooring's work has ended, so its object entries are freed (R623). -/
def moorObjs (t : Nat) (s : State) : State :=
  let busy := s.ops.any (fun p => decide (p.2.ten = t) && (match p.2.own with | .block => false | _ => true)) ||
    (List.range 16).any (fun q => (List.range 4).any (fun k =>
      decide ((s.getStrand q k).ten = t ∧ (s.getStrand q k).state ≠ .idle)))
  let live := s.obj.filter (fun p => decide (p.2.ten = t ∧ p.2.state = .live))
  if busy || live.isEmpty then s
  else live.foldl (fun s p =>
    let s := freeingObj p.1 none s
    if (s.getObj p.1).refs = 0 then retireObj p.1 s else s) s

/-- TENANT_REMOVE of a mooring ends. -/
def removeEnd (t : Nat) (st : Status) (s : State) : State :=
  let s := s.updMoor t (fun m => { m with lastSt := st.code })
  if s.mbox.busy ∧ s.mbox.code = 0x21 ∧ bits 0 8 (s.oper 0) = t then mbEnd st 0 s else s

/-- A mooring moves to QUARANTINE: its keys are zeroised (R428, R484). -/
def moorQuarantine (t : Nat) (st : Status) (s : State) : State :=
  if (s.getMoor t).state ≠ .removing then s
  else removeEnd t st (berthsStep t .revoking quarantineBerth (s.updMoor t (fun m => { m with state := .quarantine })))

/-- Queue the SCRUB of a mooring (R177), once one of the 16 places is free. -/
def scrubQueue (t : Nat) (s : State) : State :=
  match s.freeJob with
  | none => s
  | some j =>
    let s := s.updMoor t (fun m => { m with scrubDue := false })
    queueJob j { kind := 2, moor := t, mask := (s.engines.map (2 ^ ·)).sum } s

/-- A mooring moves to SCRUBBING (R484, R195): its berths become EMPTY, its KeyIDs are cleared, its regions
become EMPTY with generation 0. -/
def moorScrub (t : Nat) (s : State) : State :=
  let m := s.getMoor t
  if m.state ≠ .quarantine then s
  else
    let mine := s.moorBerths t
    let s := berthsStep t .quarantine releaseBerth (s.setMoor t { m with
      state := .scrubbing, scrubDue := true, dkey := none, link := none, models := [] })
    let s := s.keys.kmap.foldl (fun s p =>
      if p.2.valid ∧ (mine.contains p.2.berth ∨ (p.2.altMask ≠ 0 ∧ mine.contains p.2.alt)) then
        (prityPut (keyBase + 0x308) p.2.word 0 (kmapPut p.1 {}) s).2
      else s) s
    let s := m.adm.regions.foldl (fun s r => s.engines.foldl (fun s n =>
      let z := Tab.get {} (s.eng n).frz r.1
      let v := fld 2 13 z.keyid
      (prityPut (frzAddr n r.1 + 0x10) (v + fld 0 2 z.state + fld 32 32 z.gen) v (fun s => s.updEng n (fun e =>
        { e with frz := Tab.set {} e.frz r.1 { z with state := 0, gen := 0 } })) s).2) s) s
    scrubQueue t s

/-- A mooring becomes FREE (R484, R35, R196, R619): everything of it is returned and cleared. -/
def moorFree (t : Nat) (s : State) : State :=
  let a := (s.getMoor t).adm
  let s := a.queues.foldl (fun s q => if (s.getQueue q).ten = t then s.setQueue q {} else s) s
  let s := (List.range a.eqCount).foldl (fun s k =>
    if (s.getEq (a.eqFirst + k)).ten = t then s.setEq (a.eqFirst + k) {} else s) s
  let s := s.engines.foldl (fun s n => (s.eng n).phome.foldl (fun s p =>
    if p.2.valid ∧ p.2.base / 2 ^ 30 * 2 ^ 30 ≤ a.pbase ∧ a.pool ≠ 0 ∧
       p.2.slot = (s.arena a.keyP n).poolFirst then (phomePut n p.1 {} s).2 else s) s) s
  let s := s.fed.reg.proute.foldl (fun s p =>
    if p.2.valid ∧ a.pool ≠ 0 ∧ p.2.base = a.pbase then (proutePut p.1 {} s).2 else s) s
  let keep := fun (k : Nat) => !(decide (k / 8 = a.keyL) || (decide (a.keyP ≠ 0) && decide (k / 8 = a.keyP)))
  let own := fun (x : Nat) => decide (winBase t ≤ x ∧ x < winBase t + 0x4000)
  let unbind := fun (p : Nat × Session) =>
    (p.1, if p.2.area.isSome ∧ p.2.areaTen = t then { p.2 with area := none } else p.2)
  let s := { s with tide := { s.tide with arena := s.tide.arena.filter (fun p => keep p.1) } }
  let s := { s with ctx := s.ctx.filter (fun p => decide (p.1 / 2 ^ 20 ≠ t)), sess := s.sess.map unbind }
  let s := { s with cnt := s.cnt.filter (fun p => !own p.1), shadow := s.shadow.filter (fun p => !own p.1) }
  let s := { s with sound := { s.sound with groups := Tab.set [] s.sound.groups t [] } }
  let s := { s with ev := { s.ev with banks := Tab.set {} s.ev.banks (8 + t) {} } }
  s.setMoor t { lastSt := (s.getMoor t).lastSt }

/-- A finished SCRUB lets its mooring go, in normal service (R46, R484). -/
def scrubDone (s : State) : State :=
  if s.mode ≠ .normal then s
  else s.tide.jobs.foldl (fun s p =>
    if p.2.kind = 2 ∧ p.2.state ≠ 0 ∧ p.2.complete ∧
       !(s.obj.any (fun o => decide (o.2.ten = p.2.moor ∧ (o.2.state = .live ∨ o.2.state = .freeing)))) then
      moorFree p.2.moor ((trace 0x100 2 26 0x30 .ok 0 p.1 0 s).setJob p.1 {})
    else s) s

/-- What a removal does as soon as it can. -/
def moorPump (s : State) : State :=
  let s := s.moor.foldl (fun s p =>
    let m := s.getMoor p.1
    let s := if m.state = .removing then intakePump p.1 s else s
    let s := if m.state = .scrubbing ∧ m.scrubDue then scrubQueue p.1 s else s
    let s := if m.state = .removing ∧ m.revoked then moorObjs p.1 s else s
    let s := if m.state = .removing ∧ m.alone ∧ m.drained then moorQuarantine p.1 .eEpoch s else s
    if (s.getMoor p.1).state = .quarantine ∧ (s.getMoor p.1).alone ∧ s.mode = .keeper then moorScrub p.1 s else s) s
  scrubDone s

/-- LICHEN_DRAIN_END (R512, step 4): every request accepted before the revocation point has responded, or
DRAIN_LIMIT has passed. -/
def lichenDrainEnd (t : Nat) (s : State) : State :=
  let m := s.getMoor t
  if m.state ≠ .removing ∨ !m.revoked ∨ m.drained then s
  else moorPump ((s.engines.foldl (fun s n => drainMerges t n s) s).updMoor t (fun m => { m with drained := true }))

/-- The removals of this instance complete on it alone (R515). -/
def removeAlone (s : State) : State :=
  s.moor.foldl (fun s p =>
    if (s.getMoor p.1).state = .removing ∨ (s.getMoor p.1).state = .quarantine then
      s.updMoor p.1 (fun m => { m with alone := true })
    else s) s

end Sys2Proof.Machine
end

