-- ==== Sys2Proof/Machine/Attest.lean ====
section
/-! DEFINITION. Identity, die-to-die messages and attestation reports (R452 to R455, R461, R465 to R471). -/

namespace Sys2Proof.Machine

open Sys2Proof

/-! ### Identity (R452 to R455) -/

/-- DEBUG_EN (R437). -/
def State.debugEn (s : State) : Bool := decide (s.lcState = 4)

/-- Prity builds the identity at a start in PROVISION, MISSION and MISSION_DEBUG (R452); elsewhere there is
none. A UDS berth that an earlier start left is used again. -/
def buildIdentity (s : State) : State :=
  if !s.rootOk then { s with att := { s.att with store := {} } }
  else
    let ctx : Bytes := [if s.lcState = 4 then 2 else 1]
    let r : Option Nat × State := match s.att.store.uds with
      | some i => (some i, s)
      | none => match s.freeBerth with
        | none => (none, s)
        | some i =>
          let b : Berth := { masters := 2 ^ mKdf, world := 0, tenant := 0, lcmask := 0x1C, usage := 4 }
          let w := berthStep i (berthDerive i b true 0 0 ctx) s
          (if w.1 then some i else none, w.2)
    match r.1 with
    | none => r.2
    | some i =>
      let uds := (r.2.getBerth i).key
      let cdi := kmac uds (s.fw.fwid ++ [BitVec.ofNat 8 s.fw.svn]) 32 "ODLAHA CDI"
      let k : KeyStore :=
        { valid := true, uds := some i
          devE := kmac uds [] 56 "ODLAHA DEVID EC", devM := kmac uds [] 32 "ODLAHA DEVID ML"
          aliasE := kmac cdi [] 56 "ODLAHA ALIAS EC", aliasM := kmac cdi [] 32 "ODLAHA ALIAS ML" }
      let s := r.2
      { s with att := { s.att with store := k } }

/-- DEVID_HASH of public keys (R454). -/
def devidOf (ec ml : Bytes) : Bytes := sha384 (slice 0 97 ec ++ slice 0 2592 ml)

/-- DEVID_HASH of this instance; zero while it has no identity. -/
def State.devid (s : State) : Bytes :=
  let k := s.att.store
  if k.valid then devidOf (ecPub97 k.devE) (Config.mlPub k.devM) else zeros 48

/-- This instance's own certificate chain of a slot (R455). -/
def State.ownChain (s : State) (slot : Nat) : Bytes :=
  let k := s.att.store
  if !k.valid then []
  else Config.certChain slot (ecPub97 k.devE ++ slice 0 2592 (Config.mlPub k.devM) ++ ecPub97 k.aliasE ++
    slice 0 2592 (Config.mlPub k.aliasM) ++ [BitVec.ofNat 8 s.fw.svn] ++ s.fw.fwid ++
    [BitVec.ofNat 8 s.lcState, BitVec.ofNat 8 (b2n s.debugEn)])

/-- A follower that has joined its package: the pilot signs for it (R461). -/
def State.follower (s : State) : Bool := !s.straps.pilotSel && s.fed.pilotDie.isSome

/-- The chain that the instance presents (R461). -/
def State.chain (s : State) (slot : Nat) : Bytes :=
  if s.follower then (if slot = 0 then s.fed.pilotChains.1 else s.fed.pilotChains.2) else s.ownChain slot

/-- DEVID_HASH that a pair of chains carries, with the life-cycle fields of the Alias certificates (R497): none
where a chain has not the form of R455. -/
def chainsOf (c0 c1 : Bytes) : Option (Bytes × Bytes × Bytes × Nat × Nat) :=
  match Config.certParse 0 c0, Config.certParse 1 c1 with
  | some (d0, a0, lc, dbg), some (d1, a1, lc', dbg') =>
    if lc = lc' ∧ dbg = dbg' then some (devidOf d0 d1, a0, a1, lc, dbg) else none
  | _, _ => none

/-- SIGNER_ID (R466, R469). -/
def State.signerId (s : State) : Bytes :=
  if s.follower then ((chainsOf s.fed.pilotChains.1 s.fed.pilotChains.2).map (·.1)).getD (zeros 48) else s.devid

/-- The ECDSA signature of the Alias of R461 over a message: none while the DRBG does not serve. A follower's
comes from its pilot. -/
def signEc (msg : Bytes) (s : State) : Option (Bytes × State) :=
  if s.follower then
    let f := s.free
    some (slice 0 96 (Config.pilotSign 0 s.freeIdx), f.2)
  else (drbg 48 s).map (fun r => (slice 0 96 (Config.ecSign s.att.store.aliasE msg r.1), r.2))

/-- The ML-DSA-87 signature of the Alias of R461, hedged, under a context string. -/
def signMl (msg : Bytes) (ctx : String) (s : State) : Option (Bytes × State) :=
  if s.follower then
    let f := s.free
    some (slice 0 4627 (Config.pilotSign 1 s.freeIdx), f.2)
  else (drbg 32 s).map (fun r => (slice 0 4627 (Config.mlSign s.att.store.aliasM msg (ascii ctx) r.1), r.2))

/-! ### Die-to-die messages (R110, R500, R502) -/

/-- The key that tags die-to-die messages: the package federation key, or zero for join fragments (R110). -/
def State.d2dKey (s : State) (join : Bool) : Option Bytes :=
  if join then some (zeros 32) else s.fed.fedKey.map (fun i => (s.getBerth i).key)

def d2dTag (key body : Bytes) : Bytes := kmac key body 16 "ODLAHA D2D"

/-- Send a message to a die, padded with zeros so that it fills whole beats with its tag. -/
def d2dSend (join : Bool) (dest : Nat) (body : Bytes) (s : State) : State :=
  match s.d2dKey join with
  | none => s
  | some k =>
    let b := body ++ zeros ((48 - body.length % 32) % 32)
    emit (.d2d dest (b ++ d2dTag k b)) s

/-- A fragment in the layout of R500. -/
def fragBody (msg kind index count : Nat) (d : Bytes) : Bytes :=
  [BitVec.ofNat 8 msg, BitVec.ofNat 8 kind] ++ leBytes 2 index ++ leBytes 2 count ++ leBytes 2 d.length ++ slice 0 232 d

/-- Send bytes to a die as consecutive fragments (R500). -/
def d2dFragments (join : Bool) (dest msg kind : Nat) (d : Bytes) (s : State) : State :=
  let count := max 1 ((d.length + 231) / 232)
  (List.range count).foldl (fun s i => d2dSend join dest (fragBody msg kind i count ((d.drop (232 * i)).take 232)) s) s

/-- Take a fragment from a source (R500): the kind and bytes of a complete message, and whether a fragment out
of its order discarded what was gathered. -/
def gatherFrag (key : Nat) (d : Bytes) (s : State) : Option (Nat × Bytes) × Bool × State :=
  let f := fun (o n : Nat) => leNat (slice o n d)
  let g := Tab.get ({} : Gather) s.fed.gather key
  let set (g : Gather) (s : State) : State := { s with fed := { s.fed with gather := Tab.set {} s.fed.gather key g } }
  let kind := f 1 1
  let n := f 6 2
  let fits := decide (f 2 2 = g.next ∧ (g.next = 0 ∨ (g.count = f 4 2 ∧ g.kind = kind)) ∧ f 2 2 < f 4 2 ∧ n ≤ 232)
  if !fits then (none, true, set {} s)
  else
    let data := g.data ++ slice 8 n d
    if f 2 2 + 1 = f 4 2 then (some (kind, data), false, set {} s)
    else (none, false, set { kind := kind, count := f 4 2, next := f 2 2 + 1, data := data } s)

/-! ### Reports (R465 to R471) -/

/-- POLICY_MEAS: the SHA-384 of the committed mode image (R504). -/
def State.policyMeas (s : State) : Bytes := sha384 (slice 0 256 s.fed.mode)

/-- INJ_CTRL[12:0] and INJ_RATE of values (R246). -/
def Inj.ctrl (i : Inj) : Nat :=
  fld 0 1 (b2n i.dropEn) + fld 1 1 (b2n i.corrEn) + fld 2 1 (b2n i.reordEn) + fld 3 4 i.depth + fld 7 6 i.types
def Inj.rate (i : Inj) : Nat := fld 0 16 i.drop + fld 16 16 i.corr + fld 32 16 i.reord

/-- INJ of the die entry (R467). -/
def State.injBytes (s : State) : Bytes :=
  ((List.range 16).map (fun q =>
    let i := (s.getQuay q).inj
    leBytes 8 (i.rate + fld 48 13 i.ctrl))).flatten

/-- The die entry of this instance (R467). -/
def State.dieEntry (s : State) : Bytes :=
  let flags := fld 0 1 (b2n (decide (s.mode = .keeper))) + fld 1 1 (b2n (!s.time.lock)) + fld 2 1 (b2n s.strapFault) +
    fld 3 1 (b2n (decide (s.ent.state = .failed))) + fld 4 1 (b2n (decide (s.bistFail ≠ 0))) + fld 5 1 (b2n s.straps.tagSb)
  [BitVec.ofNat 8 (s.straps.dieId % 8), BitVec.ofNat 8 (s.lcState + fld 3 1 (b2n s.debugEn)),
   BitVec.ofNat 8 (arbValue (s.otpWord 0x48)), BitVec.ofNat 8 s.fw.svn, BitVec.ofNat 8 s.mask,
   BitVec.ofNat 8 flags, BitVec.ofNat 8 s.fed.epoch, 0] ++
  s.devid ++ slice 0 48 s.fw.fwid ++ s.policyMeas ++ s.injBytes ++ leBytes 8 s.now ++ zeros 32

/-- The entry of a die that has not answered (R470). -/
def missingEntry (d : Nat) : Bytes := [BitVec.ofNat 8 d, 0, 0, 0, 0, 0x40] ++ zeros 314

def TdiState.code : TdiState → Nat
  | .unlocked => 0 | .locked => 1 | .run => 2 | .error => 3

/-- A region entry of a tenant section (R468). -/
def State.regionEntry (s : State) (m : Mooring) (f : Nat) : Bytes :=
  let z := s.frz f
  let model := (m.models.find? (fun x => x.1 = f)).map (·.2)
  let sealed := decide (z.state = 2)
  [BitVec.ofNat 8 f, BitVec.ofNat 8 z.state, 0, 0] ++ leBytes 4 z.gen ++ leBytes 8 z.lines ++
  (match sealed, model with
   | true, some x => slice 0 32 x.1 ++ leBytes 8 x.2
   | _, _ => zeros 40) ++ zeros 8

/-- The tenant section of this instance for a tenant identity (R468). -/
def State.section (s : State) (tenant : Bytes) : Bytes :=
  match s.moor.find? (fun p => decide (p.2.state ≠ .free ∧ p.2.adm.tenantId = tenant)) with
  | none => zeros 128
  | some (t, m) =>
    let regions := (m.adm.regions.map (·.1)).mergeSort (fun a b => decide (a ≤ b))
    let tdi := match m.vf with | some v => (Tab.get ({} : Tdi) s.att.tdi v).state.code | none => 0
    let dkey := match m.dkey with | some i => dkeyHash (s.getBerth i).key | none => zeros 48
    [BitVec.ofNat 8 t, BitVec.ofNat 8 m.state.code] ++
    leBytes 2 (m.vf.getD 0 + fld 15 1 (b2n m.vf.isSome)) ++
    [BitVec.ofNat 8 tdi, BitVec.ofNat 8 m.adm.policy, BitVec.ofNat 8 regions.length, 0] ++
    slice 0 32 m.adm.tenantId ++ dkey ++ zeros 40 ++ (regions.map (s.regionEntry m)).flatten

/-- The report's header (R466). -/
def reportHeader (kind dies : Nat) (incomplete : Bool) (len : Nat) (nonce : Bytes) (moor : Nat) (s : State) : Bytes :=
  let assigned := decide (s.fed.state ≠ .alone)
  let signer := if s.follower then s.fed.pilotDie.getD 0 else s.straps.dieId
  [0x4F, 0x44, 0x52, 0x50, 1, BitVec.ofNat 8 kind, BitVec.ofNat 8 dies, BitVec.ofNat 8 (b2n incomplete)] ++
  leBytes 4 0x00020001 ++ leBytes 4 len ++ slice 0 32 nonce ++ leBytes 8 s.now ++
  leBytes 2 (s.fed.reg.pkg + fld 15 1 (b2n assigned)) ++ [BitVec.ofNat 8 signer, BitVec.ofNat 8 moor] ++ zeros 4 ++
  s.signerId ++ zeros 16

/-- A report: its body and the signature block (R466, R469); none while the DRBG does not serve. -/
def makeReport (kind : Nat) (entries sections : List Bytes) (incomplete : Bool) (nonce : Bytes) (moor : Nat) (s : State) :
    Option (Bytes × State) :=
  let rest := entries.flatten ++ sections.flatten
  let body := reportHeader kind entries.length incomplete (128 + rest.length) nonce moor s ++ rest
  match signEc body s with
  | none => none
  | some (e, s) => (signMl body "ODLAHA REPORT" s).map (fun r => (body ++ e ++ r.1, r.2))

/-- A report of KIND 0 (R465, R469). -/
def instanceReport (nonce : Bytes) (s : State) : Option (Bytes × State) :=
  makeReport 0 [s.dieEntry] [] false nonce 0 s

/-- The instance is part of a package that has formed (R470). -/
def State.federated (s : State) : Bool :=
  if s.straps.pilotSel then s.fed.pkgSecret.isSome else s.follower

/-- The report that a pilot, or an instance that is not federated, assembles from the entries it has (R470). -/
def assembleReport (j : ReportJob) (s : State) : Option (Bytes × State) :=
  let own := s.straps.dieId
  let dies := if s.federated then List.range s.straps.dieCount else [own]
  let parts := dies.map (fun d =>
    if d = own then (s.dieEntry, s.section j.tenant, false)
    else match j.got.find? (fun p => p.1 = d) with
      | some p => (slice 0 320 p.2, p.2.drop 320, false)
      | none => (missingEntry d, zeros 128, true))
  makeReport j.kind (parts.map (·.1)) (if j.kind = 2 then parts.map (·.2.1) else [])
    (!s.federated || parts.any (·.2.2)) j.nonce j.moor s

/-! ### SPDM answers (R456, R460) -/

/-- An SPDM 1.3 message: code, two parameters, body. -/
def spdmMsg (code p1 p2 : Nat) (body : Bytes) : Bytes :=
  [0x13, BitVec.ofNat 8 code, BitVec.ofNat 8 p1, BitVec.ofNat 8 p2] ++ body

/-- Answer a message on its channel. -/
def spdmAnswer (h : SpdmHdr) (m : Bytes) (s : State) : State := emit (.spdm h m) s

/-- ERROR with a code and data (DSP0274): 0x01 InvalidRequest, 0x03 Busy, 0x04 UnexpectedRequest, 0x05 Unspecified,
0x06 DecryptError, 0x07 UnsupportedRequest, 0x0A SessionLimitExceeded, 0x42 ResponseNotReady. -/
def spdmError (h : SpdmHdr) (code data : Nat) (ext : Bytes) (s : State) : State :=
  spdmAnswer h (spdmMsg 0x7F code data ext) s

/-- A VENDOR_DEFINED_RESPONSE with its payload (R460). -/
def vendorAnswer (h : SpdmHdr) (payload : Bytes) (s : State) : State :=
  spdmAnswer h (spdmMsg 0x7E 0 0 (leBytes 2 4 ++ [4] ++ leBytes 4 Config.enterprise ++ leBytes 2 payload.length ++ payload)) s

/-- The response STATUS alone. -/
def vendorStatus (h : SpdmHdr) (st : Status) (s : State) : State := vendorAnswer h [BitVec.ofNat 8 st.code] s

/-- Key of a channel's connection. -/
def chanKey : Channel → Nat
  | .sideband => 0
  | .doe .pf => 1
  | .doe (.vf n) => 2 + n

def State.conn (s : State) (c : Channel) : SpdmConn := Tab.get {} s.att.conns (chanKey c)
def setConn (c : Channel) (x : SpdmConn) (s : State) : State :=
  { s with att := { s.att with conns := Tab.set {} s.att.conns (chanKey c) x } }

/-- The session that a message came in. -/
def State.spdmSess (s : State) (h : SpdmHdr) : Option SpdmSess :=
  match h.sess with
  | none => none
  | some i => (s.conn h.ch).sess.find? (fun x => x.id = i)

/-- Change the session that a message came in. -/
def updSess (h : SpdmHdr) (f : SpdmSess → SpdmSess) (s : State) : State :=
  match h.sess with
  | none => s
  | some i =>
    let c := s.conn h.ch
    setConn h.ch { c with sess := c.sess.map (fun x => if x.id = i then f x else x) } s

/-- The objects held for a session, or for the messages outside any. -/
def State.heldObjs (s : State) (h : SpdmHdr) : List HeldObj :=
  match s.spdmSess h with
  | some x => x.held
  | none => if h.sess.isNone then (s.conn h.ch).held else []

/-- Hold an object in place of the one of its OBJ (R460). -/
def holdObj (h : SpdmHdr) (o : HeldObj) (s : State) : State :=
  let put := fun (l : List HeldObj) => o :: l.filter (fun x => x.obj ≠ o.obj)
  match h.sess with
  | none => let c := s.conn h.ch; setConn h.ch { c with held := put c.held } s
  | some _ => updSess h (fun x => { x with held := put x.held }) s

/-- Answer a GET_OBJECT from a held object (R460). -/
def objectAnswer (h : SpdmHdr) (d : Bytes) (offset length : Nat) (s : State) : State :=
  if d.length ≤ offset then vendorStatus h .eBounds s
  else
    let part := (d.drop offset).take length
    vendorAnswer h ([0] ++ leBytes 4 d.length ++ leBytes 2 part.length ++ part) s

/-- A report, or its failure, goes to whoever asked for it. -/
def reportDone (j : ReportJob) (st : Status) (d : Bytes) (s : State) : State :=
  let s := { s with att := { s.att with report := none } }
  match j.asker with
  | .mailbox =>
    if s.mbox.busy ∧ s.mbox.code = 0x10 then
      if st = .ok then mbEnd .ok d.length (mbPut d s) else mbEnd st 0 s
    else s
  | .object h offset length =>
    if st = .ok then
      objectAnswer h d offset length (holdObj h { obj := if j.kind = 2 then 2 else 1, nonce := j.nonce, data := d } s)
    else vendorStatus h st s
  | .die d' => d2dFragments false d' (Config.fedMsg 5) st.code d s

/-- Every entry is in, or its time has passed. -/
def reportFinish (j : ReportJob) (s : State) : State :=
  match assembleReport j s with
  | none => reportDone j .eNoRes [] s
  | some (d, s) => reportDone j .ok d s

/-- Begin a package or tenant report (R465, R470): a pilot asks its followers, a follower its pilot. One is
built at a time. -/
def reportBegin (j : ReportJob) (s : State) : State :=
  if s.att.report.isSome then reportDone j .eBusy [] s |> fun t => { t with att := { t.att with report := s.att.report } }
  else if s.follower then
    let p := s.fed.pilotDie.getD 0
    d2dSend false p ([BitVec.ofNat 8 (Config.fedMsg 4), BitVec.ofNat 8 j.kind, BitVec.ofNat 8 j.moor, 0] ++
        slice 0 32 j.nonce ++ slice 0 32 j.tenant)
      { s with att := { s.att with report := some { j with waits := [p] } } }
  else if s.federated then
    let others := (List.range s.straps.dieCount).filter (fun d => d ≠ s.straps.dieId)
    let s := { s with att := { s.att with report := some { j with waits := others } } }
    others.foldl (fun s d =>
      d2dSend false d ([BitVec.ofNat 8 (Config.fedMsg 2), BitVec.ofNat 8 j.kind, 0, 0] ++ slice 0 32 j.tenant) s) s
  else reportFinish j s

/-- A follower answers its pilot's request for its die entry (R470). -/
def entryAsked (src : Nat) (d : Bytes) (s : State) : State :=
  let kind := leNat (slice 1 1 d)
  d2dFragments false src (Config.fedMsg 3) kind (s.dieEntry ++ (if kind = 2 then s.section (slice 4 32 d) else [])) s

/-- A follower's die entry has come in whole. -/
def entryIn (die : Nat) (d : Bytes) (s : State) : State :=
  match s.att.report with
  | none => s
  | some j =>
    if !j.waits.contains die ∨ s.follower then s
    else
      let j := { j with got := Tab.put j.got die d, waits := j.waits.filter (· ≠ die) }
      let s := { s with att := { s.att with report := some j } }
      if j.waits.isEmpty then reportFinish j s else s

/-- A follower asks its pilot for a report. -/
def reportAsked (src : Nat) (d : Bytes) (s : State) : State :=
  if !s.straps.pilotSel then s
  else reportBegin { kind := leNat (slice 1 1 d), nonce := slice 4 32 d, moor := leNat (slice 2 1 d)
                     tenant := slice 36 32 d, asker := .die src } s

/-- The pilot's report has come in whole. -/
def reportIn (die st : Nat) (d : Bytes) (s : State) : State :=
  match s.att.report with
  | some j => if s.follower ∧ j.waits = [die] then reportDone j (Status.ofCode st) d s else s
  | none => s

/-- DIE_ENTRY_TIMEOUT (R470): the dies that have not answered are reported MISSING. -/
def dieEntryTimeout (s : State) : State :=
  match s.att.report with
  | some j => if s.follower then s else reportFinish { j with waits := [] } s
  | none => s

/-- QUOTE (R465) of a KIND: the row of an instance report takes every KIND but 1. -/
def quote (package : Bool) (s : State) : State :=
  let o := s.oper 0
  if decide (o % 4 = 1) ≠ package then s
  else
    let nonce := ((List.range 4).map (fun i => leBytes 8 (s.oper (1 + i)))).flatten
    mbRun 0x10 (decide (4 ≤ o ∨ 2 ≤ o % 4)) [2, 3, 4] (s.running && !s.lc.pending) (fun s =>
      if !s.drbgReady then (some (.eNoRes, 0), s)
      else if package then (none, reportBegin { kind := 1, nonce := nonce, asker := .mailbox } s)
      else match instanceReport nonce s with
        | none => (some (.eNoRes, 0), s)
        | some (d, s) => (some (.ok, d.length), mbPut d s)) s

def execQuoteInstance (s : State) : Out := live (quote false) s
def execQuotePackage (s : State) : Out := live (quote true) s
def execDieEntryTimeout (s : State) : Out := live dieEntryTimeout s

end Sys2Proof.Machine
end

