-- ==== Sys2Proof/Machine/Bwater.lean ====
section
/-! DEFINITION. Breakwater's commands: APPLY, the STARVE limit and the cap window (R552, R555, R559). -/

namespace Sys2Proof.Machine

/-- APPLY (R559): only the owner, and only while the instance is ALONE. -/
def bwApply (m : Master) (s : State) : State :=
  regGuard (bwBase + 0x10) (decide (m = .pf ∧ s.fed.state = .alone)) bwCommit s

/-- STARVE_EXPIRY (R552): a request that has waited STARVE µs is raised to priority 14, unless its class
stands as high already. `op` is the line operation whose request waits. -/
def starveExpiry (n op : Nat) (s : State) : State :=
  let waits := (s.eng n).due.any (fun r => r.id = op && r.isData)
  match (s.eng n).op? op with
  | none => s
  | some o =>
    if !waits ∨ s.bw.starved.contains (n, op) ∨ 14 ≤ s.classPrio n o.cls then s
    else bump (bwBase + 0x8000 + 0x40 * n + 8) { s with bw := { s.bw with starved := s.bw.starved ++ [(n, op)] } }

/-- CAP_WINDOW (R555): every class under a cap gets its credit for the next microsecond. -/
def capWindow (n : Nat) (s : State) : State :=
  (List.range 64).foldl (fun s c =>
    let p := (Tab.get ({} : BwClass) s.bw.cls c).maxPct
    if p = 0 then s else s.setBwReg n c { s.bwReg n c with credit := p * 24000 }) s

def execBwaterApply (m : Master) (s : State) : Out := live (bwApply m) s
def execStarveExpiry (n op : Nat) (s : State) : Out := live (starveExpiry n op) s

/-- The engine must be present. -/
def execCapWindow (n : Nat) (s : State) : Out := live (fun s => if s.hasEng n then capWindow n s else s) s

end Sys2Proof.Machine
end

