-- ==== Sys2Proof/Machine/Events.lean ====
section
/-! DEFINITION. The event unit's commands (R518 to R544): doorbells, event queues, banks, private banks and
the event and MSI write port. -/

namespace Sys2Proof.Machine

/-! ### Queues -/

/-- COAL_CNT in effect (R542). -/
def EvQueue.coal (q : EvQueue) : Nat := min 1024 (max 1 q.coalCnt)

/-- Slots of the ring (R527). -/
def EvQueue.slots (q : EvQueue) : Nat := 2 ^ q.size

/-- Unread records. -/
def EvQueue.unread (q : EvQueue) : Nat := (q.tail + q.slots - q.head) % q.slots

/-- The ring holds no further record (R527). -/
def EvQueue.full (q : EvQueue) : Bool := decide ((q.tail + 1) % q.slots = q.head)

/-- PEND against COAL_CNT: an armed queue that has enough becomes READY (R532). -/
def EvQueue.check (q : EvQueue) : EvQueue :=
  if q.arm = .armed ∧ q.coal ≤ q.pend then { q with arm := .ready } else q

/-- A HEAD write of a DISARMED queue arms it (R532). -/
def EvQueue.rearm (q : EvQueue) : EvQueue :=
  if q.arm ≠ .disarmed then q
  else if q.head = q.tail then { q with arm := .armed, pend := 0, timer := false }
  else { q with arm := .armed, pend := q.unread, timer := true }.check

/-- A record is written while the queue is armed (R532). -/
def EvQueue.note (q : EvQueue) : EvQueue :=
  if q.arm = .armed then
    { q with
      pend := min 0xFFFF (q.pend + 1)
      timer := true }.check
  else q

/-- The function of a queue, and whether its writes go out now (R94, R527). -/
def State.eqFn (s : State) (q : EvQueue) : Option Fn :=
  match tenMoor q.ten with
  | none => some .pf
  | some t =>
    match (s.getMoor t).vf with
    | none => none
    | some n => if (Tab.get {} s.att.tdi n).state = .run then some (.vf n) else none

/-- The T bit of a write (R93): a virtual function's. -/
def Fn.tBit : Fn → Bool
  | .pf => false
  | .vf _ => true

/-- The MSI-X write of a queue (R533). -/
def msiWrite (q : EvQueue) (s : State) : State :=
  match s.eqFn q with
  | none => bump (evBase + 0x6010) s
  | some f => bump (evBase + 0x6008) (emit (.evWr q.msiAddr false (leBytes 4 q.msiData) f (Fn.tBit f)) s)

/-- Write a record on the port at the slot its queue's TAIL names, or discard it (R94, R529, R531, R537). -/
def writeRecord (r : EvRec) (s : State) : State :=
  let q := s.getEq r.queue
  if !q.en then bump (evBase + 0x6028) s
  else match s.eqFn q with
    | none => bump (evBase + 0x6010) s
    | some f =>
      if q.full then
        bump (evBase + 0x6020) (s.setEq r.queue { q with
          ovf := min 0xFFFFFFFF (q.ovf + 1)
          overflow := true
          lost := min 0xFFFFFFFF (q.lost + 1)
          lostNs := if q.lost = 0 then s.now else q.lostNs })
      else
        let s := emit (.evWr (q.base + q.tail * 32) true r.data f (Fn.tBit f)) s
        let q := { q with tail := (q.tail + 1) % q.slots }
        let s := beat 26 (bump (evBase + 0x6000) (s.setEq r.queue (if r.priv then q else q.note)))
        if r.priv then msiWrite q s else s

/-- EVENT_RECORD_ISSUE (R530): the port takes the oldest record held. -/
def eventRecordIssue (s : State) : State :=
  match s.ev.store with
  | [] => s
  | r :: t => writeRecord r { s with ev := { s.ev with store := t } }

/-- The overflow record of a queue (R523). -/
def overflowRecord (j : Nat) (q : EvQueue) : Bytes :=
  [3, 0] ++ leBytes 2 j ++ leBytes 4 q.lost ++ leBytes 8 q.lostNs ++ zeros 16

/-- Put a record ahead of every other record for its queue (R529). -/
def putAhead (r : EvRec) : List EvRec → List EvRec
  | [] => [r]
  | x :: t => if x.queue = r.queue then r :: x :: t else x :: putAhead r t

/-- A HEAD write (R528, R529, R532). `addr` is the register written. -/
def headWrite (addr j head : Nat) (s : State) : State :=
  let q := s.getEq j
  if q.slots ≤ head then permFault addr s
  else
    let s := if q.overflow then
        { s with ev := { s.ev with store := putAhead { queue := j, data := overflowRecord j q } s.ev.store } } else s
    let q := { q with head := head }
    let q := if q.overflow then { q with overflow := false, lost := 0, lostNs := 0 } else q
    s.setEq j q.rearm

/-- A write of the word that holds SIZE_LOG2 and EN (R531). -/
def eqCtrlWrite (addr j value : Nat) (s : State) : State :=
  let q := s.getEq j
  let size := bits 0 5 value
  let en := bit1 31 value
  if (q.en ∧ en ∧ size ≠ q.size) ∨ (en ∧ !q.en ∧ (size < 4 ∨ 16 < size ∨ q.base % 32 ≠ 0)) then permFault addr s
  else
    let q' := { q with
      size := size, prio := bits 5 4 value, coalCnt := bits 9 11 value, coalTime := bits 20 11 value, en := en }
    let q' := if en ∧ !q.en then
        { q' with
          head := 0, tail := 0, arm := .armed, overflow := false, ovf := 0, pend := 0, timer := false, lost := 0
          lostNs := 0 }
      else if q.en ∧ !en then
        { q' with
          arm := if q.arm = .ready then .armed else q.arm
          pend := 0
          timer := false }
      else q'.check
    s.setEq j q'

/-- A queue that a master's write names (R526, R543): a global number for the owner, an index in its range for
a tenant; with the register's address. None where it lies outside the writer's world. -/
def State.eqOf (s : State) (m : Master) (k off toff : Nat) : Option Nat × Nat :=
  match m with
  | .pf => (if k < 256 ∧ (s.getEq k).ten = 0x100 then some k else none, evBase + 0x1000 + 0x40 * k + off)
  | .vf n t =>
    match s.vfMoor n t with
    | none => (none, winBase 0)
    | some t =>
      let a := (s.getMoor t).adm
      (if k < a.eqCount then some (a.eqFirst + k) else none, winBase t + toff)
  | .prity => (none, evBase + 0x1000 + 0x40 * k + off)

/-- EQ_HEAD_WRITE (R528, R532). -/
def eqHeadWrite (m : Master) (k head : Nat) (s : State) : State :=
  let x := s.eqOf m k 0x20 (0x2000 + 8 * k)
  regGuard x.2 x.1.isSome (fun s => headWrite x.2 (x.1.getD 0) (head % 0x10000) s) s

/-- EQ_ENABLE (R531): a write of the queue's control word. -/
def eqEnable (m : Master) (k value : Nat) (s : State) : State :=
  let x := s.eqOf m k 8 0x1810
  regGuard x.2 x.1.isSome (fun s => eqCtrlWrite x.2 (x.1.getD 0) value s) s

/-- COAL_TIME_EXPIRY (R532): the timer of an armed queue ends. -/
def coalTimeExpiry (j : Nat) (s : State) : State :=
  let q := s.getEq j
  if q.arm = .armed ∧ q.timer then s.setEq j { q with arm := .ready, timer := false } else s

/-! ### Doorbells (R519, R520) -/

/-- The record of a software source (R523). -/
def swRecord (src data ns : Nat) : Bytes :=
  [4, 0] ++ leBytes 2 src ++ leBytes 4 data ++ leBytes 8 ns ++ zeros 16

/-- A doorbell write of a software source, whose target entry is none where it is not the writer's. -/
def doorbell (src data : Nat) (t : Option EvTarget) (s : State) : State :=
  match t with
  | none => bump (evBase + 0x6030) s
  | some x =>
    if !x.en ∨ 256 ≤ s.ev.store.length then bump (evBase + 0x6030) s
    else putRecord { queue := x.eq, data := swRecord src data s.now } s

/-- SW_DB (R519, R541): the owner raises a software source. -/
def swDb (m : Master) (value : Nat) (s : State) : State :=
  let src := bits 0 12 value
  let t := if 320 ≤ src ∧ src < 512 then some (Tab.get ({} : EvTarget) s.ev.ownerSw (src - 320)) else none
  regGuard (evBase + 0x38) (m = .pf) (doorbell src (bits 32 32 value) t) s

/-- EV_DB (R519, R543): a tenant raises a software source. -/
def evDb (m : Master) (value : Nat) (s : State) : State :=
  match s.tenantOf m with
  | none => regGuard (winBase 0 + 0x1858) false id s
  | some t =>
    let src := bits 0 12 value
    let lo := 512 + 14 * t
    let x := if lo ≤ src ∧ src < lo + 14 then
        some (Tab.get ({} : EvTarget) (s.getMoor t).win.sw (src - lo)) else none
    regGuard (winBase t + 0x1858) true (doorbell src (bits 32 32 value) x) s

/-! ### Banks (R534 to R536) -/

/-- The best READY queue of a bank: the highest PRIO, the lowest number among equals (R534). -/
def bestReady (bank : Nat) : Tab EvQueue → Option (Nat × EvQueue)
  | [] => none
  | (j, q) :: t =>
    match bestReady bank t with
    | none => if q.arm = .ready ∧ bankOf q.ten = bank then some (j, q) else none
    | some b => if q.arm = .ready ∧ bankOf q.ten = bank ∧ b.2.prio ≤ q.prio then some (j, q) else some b

/-- BANK_DELIVERY (R534, R536): a bank delivers the READY queue that its stack lets through. -/
def bankDelivery (bank : Nat) (s : State) : State :=
  let b := s.getBank bank
  if bank < 4 ∨ b.fault ∨ s.ev.gdis then s
  else match bestReady bank s.ev.queues with
    | none => s
    | some (j, q) =>
      if !b.stack.isEmpty ∧ q.prio ≤ b.stack.headD 0 then s
      else
        let s := s.setEq j { q with arm := .disarmed, pend := 0, timer := false }
        msiWrite q (s.setBank bank { b with stack := q.prio :: b.stack })

/-- An EOI write to a bank (R535). -/
def eoiWrite (bank p : Nat) (s : State) : State :=
  let b := s.getBank bank
  if b.stack.head? = some p then s.setBank bank { b with stack := b.stack.drop 1 }
  else
    let top := b.stack.headD 0
    let d := fld 0 9 bank + fld 9 4 p + fld 13 4 top + fld 17 1 (b2n b.stack.isEmpty)
    let s := s.setBank bank { b with fault := true }
    raisePrivOpen 36 26 0x34 0 d (bump (evBase + 0x6038) s)

/-- A write of 1 to a bank's RESET (R535). -/
def bankResetWrite (bank : Nat) (s : State) : State :=
  let s := s.setBank bank {}
  if bank < 4 then s
  else s.ev.queues.foldl (fun s p => if bankOf p.2.ten = bank then s.setEq p.1 p.2.rearm else s) s

/-- The bank a master's EOI or RESET goes to, and the register's address. -/
def State.bankFor (s : State) (m : Master) (core off ooff toff : Nat) : Option Nat × Nat :=
  match m with
  | .prity => (if core < 4 then some core else none, evBase + 0x100 + 0x20 * core + off)
  | .pf => (some 4, evBase + ooff)
  | .vf n t => match s.vfMoor n t with
    | none => (none, winBase 0 + toff)
    | some t => (some (8 + t), winBase t + toff)

/-- EOI (R535). -/
def eoi (m : Master) (core prio : Nat) (s : State) : State :=
  let x := s.bankFor m core 8 0x28 0x1848
  regGuard x.2 x.1.isSome (fun s => eoiWrite (x.1.getD 0) (prio % 16) s) s

/-- BANK_RESET (R535). -/
def bankReset (m : Master) (core : Nat) (s : State) : State :=
  let x := s.bankFor m core 8 0x30 0x1850
  regGuard x.2 x.1.isSome (fun s => bankResetWrite (x.1.getD 0) s) s

/-! ### Private banks (R539, R540) -/

/-- Priority of a per-processor source (R541). -/
def State.hmPrio (s : State) (src : Nat) : Nat :=
  if src < 16 then bits (4 * src) 4 s.ev.prio0 else bits (4 * (src - 16)) 4 s.ev.prio1

/-- RAISE (R539): Prity raises a source of its own on a core. -/
def raiseWrite (core src : Nat) (s : State) : State :=
  if 4 ≤ core then s
  else if src < 12 ∨ 32 ≤ src then permFault (evBase + 0x118) s
  else setHmPend core src s

/-- TAKE (R540): a core takes a pending source whose priority exceeds TOP. -/
def takeWrite (core src : Nat) (s : State) : State :=
  let p := Tab.get 0 s.ev.hmPend core
  let b := s.getBank core
  let pr := s.hmPrio src
  if 4 ≤ core then s
  else if src < 32 ∧ bit1 src p ∧ (b.stack.isEmpty ∨ b.stack.headD 0 < pr) then
    let s := { s with ev := { s.ev with hmPend := Tab.set 0 s.ev.hmPend core (p - 2 ^ src) } }
    s.setBank core { b with stack := pr :: b.stack }
  else permFault (evBase + 0x108) s

/-- Does a private bank assert its core's interrupt (R540)? -/
def State.hmIrq (s : State) (core : Nat) : Bool :=
  let b := s.getBank core
  !b.fault && (List.range 32).any (fun src =>
    bit1 src (Tab.get 0 s.ev.hmPend core) && (b.stack.isEmpty || decide (b.stack.headD 0 < s.hmPrio src)))

/-! ### The commands -/

def execEventRecordIssue (s : State) : Out := live eventRecordIssue s
def execEqHeadWrite (m : Master) (k head : Nat) (s : State) : Out := live (eqHeadWrite m k head) s
def execEqEnable (m : Master) (k value : Nat) (s : State) : Out := live (eqEnable m k value) s
def execCoalTimeExpiry (j : Nat) (s : State) : Out := live (coalTimeExpiry j) s
def execSwDb (m : Master) (value : Nat) (s : State) : Out := live (swDb m value) s
def execEvDb (m : Master) (value : Nat) (s : State) : Out := live (evDb m value) s
def execBankDelivery (bank : Nat) (s : State) : Out := live (bankDelivery bank) s
def execEoi (m : Master) (core prio : Nat) (s : State) : Out := live (eoi m core prio) s
def execBankReset (m : Master) (core : Nat) (s : State) : Out := live (bankReset m core) s
def execRaise (core src : Nat) (s : State) : Out := live (raiseWrite core src) s
def execTake (core src : Nat) (s : State) : Out := live (takeWrite core src) s

/-- EV_ERR (R95): the endpoint could not deliver a write; it is counted. -/
def execEvErr (_f : Fn) (s : State) : Out := live (bump (evBase + 0x6018)) s

end Sys2Proof.Machine
end

