-- ==== Sys2Proof/Machine/Fed.lean ====
section
/-! DEFINITION. The federation unit: formation and joins (R496 to R501), messages (R502, R503), epochs and
domain changes (R504 to R511), the domain's part in a removal (R512 to R515). -/

namespace Sys2Proof.Machine

open Sys2Proof

/-- This instance is the anchor pilot. -/
def State.isAnchor (s : State) : Bool := s.straps.pilotSel && s.fed.reg.anchor

def updFed (f : Fed → Fed) (s : State) : State := { s with fed := f s.fed }

/-! ### Sending (R501 to R503) -/

/-- A federation message of this instance (R502). -/
def State.fedBytes (s : State) (kind : Nat) (st chg : Nat) (body : Bytes) : Bytes :=
  [BitVec.ofNat 8 kind, BitVec.ofNat 8 s.fed.epoch] ++ leBytes 2 s.fed.reg.pkg ++
  [BitVec.ofNat 8 (s.straps.dieId % 8 + fld 7 1 (b2n s.fed.prepared.isSome)), BitVec.ofNat 8 st] ++ leBytes 2 chg ++
  slice 0 48 body ++ leBytes 8 s.now

/-- The session that leads to a package, at the anchor, or to the anchor (R501). -/
def State.fedSess (s : State) (pkg : Nat) : Nat := if s.isAnchor then s.fed.reg.fsess + pkg else s.fed.reg.fsess

/-- Packages with an open federation session, at the anchor (R501). -/
def State.fedPkgs (s : State) : List Nat :=
  if !s.isAnchor then []
  else (s.fed.members.map (·.1)).filter (fun p => decide (p ≠ s.fed.reg.pkg) &&
    (match (s.getSess (s.fedSess p)).state with | .opened => true | .migrating => true | _ => false))

/-- Hand a message to the quay of a federation session; a FAULTED member sends nothing (R511). -/
def fedSend (i : Nat) (d : Bytes) (s : State) : State :=
  let x := s.getSess i
  if s.fed.state = .faulted ∨ (x.state ≠ .opened ∧ x.state ≠ .migrating) then s
  else s.updQuay x.quay (fun y => { y with
  fedTx := y.fedTx ++
    [{ sess := i, typ := 0, data := d, ten := ownerTen, ctx := 0, org := .fed }] })

/-- Send toward the anchor: a follower to its pilot, a pilot over its session. -/
def sendUp (d : Bytes) (s : State) : State :=
  if s.isAnchor then s
  else if s.straps.pilotSel then fedSend s.fed.reg.fsess d s
  else match s.fed.pilotDie with
    | some p => d2dSend false p d s
    | none => s

/-- Send to this pilot's followers. -/
def sendDies (d : Bytes) (s : State) : State :=
  if s.straps.pilotSel then s.fed.dies.foldl (fun s x => d2dSend false x d s) s else s

/-- Send from the anchor to the whole domain. -/
def sendAll (d : Bytes) (s : State) : State :=
  sendDies d (s.fedPkgs.foldl (fun s p => fedSend (s.fedSess p) d s) s)

/-! ### The domain fault (R510) -/

/-- A FAULT goes out on a session at once, ahead of the fence of its quay. -/
def fedFault (i : Nat) (d : Bytes) (s : State) : State :=
  let x := s.getSess i
  if x.state = .opened ∧ s.quayTx x.quay = true then (startData x.quay i 0 d false [] [.fed] s).2 else s

/-- The running DOMAIN_CHANGE ends. -/
def changeEnd (st : Status) (s : State) : State :=
  if s.mbox.busy ∧ s.mbox.code = 0x28 then mbEnd st 0 s else s

/-- A domain fault with the status that started it (R510): FAULT goes upward and downward, the instance enters
keeper mode, and removals complete on this instance alone (R515). -/
def domainFault (cause : Nat) (s : State) : State :=
  if s.fed.state = .faulted ∨ s.fed.state = .alone then s
  else
    let d := s.fedBytes 0x0A cause 0 s.policyMeas
    let up := if s.straps.pilotSel ∧ !s.isAnchor then [s.fed.reg.fsess] else s.fedPkgs.map s.fedSess
    let s := up.foldl (fun s i => fedFault i d s) s
    let s := sendDies d s
    let s := if s.straps.pilotSel then s else sendUp d s
    let s := updFed (fun f => { f with
      state := .faulted, cause := cause, prepared := none, running := none, chgState := 0, queue := [], revokes := [] }) s
    let s := changeEnd .eEpoch s
    let s := raisePriv 32 cause 25 0x24 0 0 s
    keeperEnter 32 1 (removeAlone s)

/-- A domain fault whose status the manual does not state. -/
def domainFaultOpen (s : State) : State :=
  let f := s.free
  domainFault (f.1 % 256) f.2

/-! ### The mode image (R504) -/

def imgCipher : Nat := 8
/-- The image at formation (R504). -/
def firstImage (members domainId : Bytes) : Bytes :=
  [1, 0, 0, 0] ++ zeros 4 ++ leBytes 8 40 ++ zeros 8 ++ zeros 8 ++ slice 0 48 members ++ zeros 48 ++
  slice 0 32 domainId ++ zeros 96

/-- MEMBERS_HASH: over the DEVID_HASH of every pilot, in package-number order. -/
def State.membersHash (s : State) : Bytes := sha384 (s.fed.members.map (·.2)).flatten

/-- Add one to a 4-byte field of the image. -/
def imgBump (o : Nat) (img : Bytes) : Bytes := patch o (leBytes 4 (leNat (slice o 4 img) + 1)) img

/-- The staged injection values take effect on every quay (R240, R241). -/
def injCommit (s : State) : State :=
  (List.range 16).foldl (fun s q => s.updQuay q (fun x =>
    { x with inj := x.injStaged, injActive := true, lfsr := if x.injSeed = 0 then 1 else x.injSeed })) s

/-- The argument word of a change. -/
def Change.word (c : Change) : Nat := leNat (slice 8 8 c.body)

/-- The image after a change (R504, R505). -/
def State.nextImage (s : State) (c : Change) : Bytes :=
  let img := slice 0 256 s.fed.mode
  let img := match c.kind with
    | 1 => patch imgCipher (leBytes 8 c.word) img
    | 2 => patch 16 (leBytes 8 c.word) img
    | 3 => imgBump 24 img
    | 4 => imgBump 28 img
    | 5 => patch 80 (sha384 (slice 80 48 img ++ c.who ++ (slice 40 8 c.body).reverse)) img
    | 7 => if s.isAnchor then patch 32 s.membersHash img
           else if s.fed.image.length = 6 then slice 0 256 s.fed.image.flatten else img
    | _ => img
  patch 1 [BitVec.ofNat 8 (s.fed.epoch + 1)] (if c.kind = 7 ∧ s.fed.image.length = 6 ∧ !s.isAnchor then img else imgBump 4 img)

/-! ### A member's epoch (R508, R509) -/

/-- The status with which a change does not apply here (R509); the manual states none, so it is a free value. -/
def State.applies (s : State) (c : Change) : Bool := !(decide (c.kind = 2) && bit1 0 c.word && !s.debugEn)

/-- Prepare a change that applies (R508): a REVOKE removes its tenant here, an ADVANCE zeroises its keys. -/
def prepareLocal (c : Change) (s : State) : State :=
  let hit := (s.moor.filter (fun p => decide (p.2.adm.tenantId = c.who ∧ p.2.state ≠ .free))).map (·.1)
  let s := updFed (fun f => { f with prepared := some c, image := [] }) s
  if c.kind = 5 then hit.foldl (fun s t => removeBegin t (bit1 0 (leNat (slice 1 1 c.body))) s) s
  else if c.kind = 6 then hit.foldl (fun s t => moorQuarantine t .ok s) s
  else s

/-- REPLAY_EN of the committed mode image (R504). -/
def State.replayEn (s : State) : Bool := bit1 1 (leNat (slice 16 8 s.fed.mode))

/-- A commit that clears REPLAY_EN clears EN in every mooring (R578). -/
def replayGate (s : State) : State :=
  if s.replayEn then s
  else s.moor.foldl (fun s (p : Nat × Mooring) => s.updWin p.1 (fun w => { w with replay := false })) s

/-- Commit the staged change (R505, R508): it is put in force and the image follows. -/
def commitLocal (catchup : Bool) (s : State) : State :=
  match s.fed.prepared with
  | none => s
  | some c =>
    let img := s.nextImage c
    let s := bump (fedBase + 0x408) (bumpIf catchup (fedBase + 0x418) s)
    let s := updFed (fun f => { f with prepared := none, epoch := (f.epoch + 1) % 256, mode := img, image := [] }) s
    let s := replayGate s
    let s := if c.kind = 3 then bwCommit s else if c.kind = 4 then injCommit s else s
    let s := if c.kind = 5 then updFed (fun f => { f with revokes := f.revokes ++ [{ num := c.num, who := slice 8 40 c.body }] }) s
      else s
    s.moor.foldl (fun s p =>
      let m := s.getMoor p.1
      if m.state = .quarantine ∧ ((c.kind = 6 ∧ m.adm.tenantId = c.who) ∨ m.alone = true) then moorScrub p.1 s else s) s

/-! ### The anchor (R506, R507) -/

/-- The anchor's change has been committed everywhere (R507). -/
def caughtUp (s : State) : State :=
  let e := s.fed.epoch + 1
  if s.fed.chgState = 2 ∧ s.fed.dies.all (fun d => decide (Tab.get 0 s.fed.hbDie d = e)) ∧
     s.fedPkgs.all (fun p => decide (Tab.get 0 s.fed.hbPkg p = e)) then
    let mine := match s.fed.running with | some c => c.mine && decide (c.kind ≤ 4) | none => false
    let s := updFed (fun f => { f with chgState := 0, running := none }) s
    if mine then changeEnd .ok s else s
  else s

/-- The 256-byte image in six messages (R502). -/
def imageParts (s : State) : List Bytes :=
  let img := slice 0 256 s.fed.mode
  (List.range 6).map (fun i => s.fedBytes 0x0B 0 i ((img.drop (48 * i)).take 48))

/-- Abort the running change (R507): an aborted REVOKE or ADVANCE raises a domain fault. -/
def abortChange (st : Nat) (s : State) : State :=
  match s.fed.running with
  | none => s
  | some c =>
    if s.fed.chgState ≠ 1 then s
    else
      let s := sendAll (s.fedBytes 8 0 c.num s.policyMeas) s
      let s := bump (fedBase + 0x410) (updFed (fun f => { f with prepared := none, running := none, chgState := 0 }) s)
      if c.kind = 5 ∨ c.kind = 6 then domainFault st s
      else if c.mine then changeEnd .eEpoch s else s

/-- Every acknowledgement of the running change is in: the anchor commits (R507). -/
def anchorCheck (s : State) : State :=
  match s.fed.running with
  | none => s
  | some c =>
    if s.fed.chgState = 1 ∧ s.fed.ackSelf ∧ s.fed.dies.all (fun d => s.fed.acksDie.contains d) ∧
       s.fedPkgs.all (fun p => s.fed.acksPkg.contains p) then
      let s := commitLocal false s
      let s := updFed (fun f => { f with chgState := 2, hbPkg := [], hbDie := [] }) s
      let s := sendAll (s.fedBytes 7 0 c.num s.policyMeas) s
      let s := if c.kind = 7 then (imageParts s).foldl (fun s d => sendAll d s) s else s
      caughtUp s
    else s

/-- Queue a change at the anchor (R506): false where the queue is full. A REVOKE already queued or running is
merged; an ADVANCE goes ahead of every other waiting change. -/
def queueChange (c : Change) (s : State) : Bool × State :=
  let same := fun (x : Change) => decide (x.kind = 5 ∧ slice 8 40 x.body = slice 8 40 c.body)
  if c.kind = 5 ∧ (s.fed.queue ++ s.fed.running.toList).any same then (true, s)
  else if 64 ≤ s.fed.queue.length then (false, s)
  else (true, updFed (fun f => { f with queue := if c.kind = 6 then c :: f.queue else f.queue ++ [c] }) s)

/-- CHANGE_START (R507): the change at the head of the queue begins. -/
def changeStart (s : State) : State :=
  match s.fed.queue with
  | [] => s
  | c :: rest =>
    if !s.isAnchor ∨ s.fed.state ≠ .member ∨ s.fed.chgState ≠ 0 then s
    else
      let c := { c with num := (s.fed.num + 1) % 65536 }
      let s := updFed (fun f => { f with
        queue := rest, running := some c, num := c.num, chgState := 1, acksPkg := [], acksDie := [], ackSelf := false }) s
      let s := sendAll (s.fedBytes 4 0 c.num c.body) s
      if s.applies c then anchorCheck (updFed (fun f => { f with ackSelf := true }) (prepareLocal c s))
      else
        let f := s.free
        abortChange (f.1 % 256) f.2

/-- PREPARE_TIMEOUT (R507). -/
def prepareTimeout (s : State) : State := if s.isAnchor then abortChange Status.eEpoch.code s else s

/-- CATCHUP_TIMEOUT (R507). -/
def catchupTimeout (s : State) : State :=
  if s.isAnchor ∧ s.fed.chgState = 2 then domainFault Status.eEpoch.code s else s

/-- DOMAIN_CHANGE (R505, R506): the CIPHER row takes every KIND that names no change of the command too. -/
def domainChange (kind : Nat) (s : State) : State :=
  let k := s.oper 0 % 16
  if k ≠ kind ∧ ¬ (kind = 1 ∧ (k = 0 ∨ 5 ≤ k)) then s
  else
    let w := s.oper 1
    let enc := decide (16 ≤ s.oper 0 ∨ k = 0 ∨ 5 ≤ k) ||
      (decide (k = 1) && decide (128 ≤ w ∨ w % 64 < 20 ∨ 40 < w % 64)) || (decide (k = 2) && decide (4 ≤ w))
    mbRun 0x28 enc lcAny (s.normal && s.isAnchor && decide (s.fed.state = .member ∧ s.fed.chgState = 0) && s.fed.queue.isEmpty)
      (fun s =>
        let body := [BitVec.ofNat 8 k] ++ zeros 7 ++ (if k ≤ 2 then leBytes 8 w else zeros 8) ++ zeros 32
        (none, (queueChange { kind := k, body := body, mine := true } s).2)) s

/-! ### Removal across the domain (R512 to R515) -/

/-- TENANT_REMOVE (R512). -/
def tenantRemove (s : State) : State :=
  let o := s.oper 0
  let t := o % 256
  let drain := bit1 8 o
  let us := bits 16 16 o
  let m := s.getMoor t
  let enc := decide (bits 10 6 o ≠ 0 ∨ 2 ^ 32 ≤ o) || (if drain then decide (us = 0 ∨ 8000 < us) else decide (us ≠ 0))
  let ok := s.running && decide (m.state = .admitting ∨ m.state = .active) && (!bit1 1 m.adm.policy || bit1 9 o)
  mbRun 0x21 enc lcAny ok (fun s =>
    let body := [5, BitVec.ofNat 8 (b2n drain + 2 * b2n (bit1 9 o))] ++ leBytes 2 us ++ zeros 4 ++ slice 0 32 m.adm.tenantId ++
      leBytes 8 m.adm.tserial
    let s := removeBegin t drain s
    if !s.normal ∨ s.fed.state ≠ .member then (none, s.updMoor t (fun m => { m with alone := true }))
    else if s.isAnchor then
      let r := queueChange { kind := 5, body := body, mine := true } s
      (none, if r.1 then r.2 else r.2.updMoor t (fun m => { m with alone := true }))
    else (none, sendUp (s.fedBytes 3 0 0 body) s)) s

/-- DRAINED goes up as each part of the domain has drained; the anchor then queues the ADVANCE (R503, R514). -/
def revokePump (s : State) : State :=
  s.fed.revokes.foldl (fun s r0 =>
    match s.fed.revokes.find? (fun r => r.num = r0.num) with
    | none => s
    | some r =>
      let self := r.self || s.moor.all (fun p => !(decide (p.2.adm.tenantId = r.who.take 32 ∧ p.2.state = .removing) && !p.2.drained))
      let s := updFed (fun f => { f with revokes := f.revokes.map (fun x => if x.num = r.num then { x with self := self } else x) }) s
      let drop := updFed (fun f => { f with revokes := f.revokes.filter (fun x => x.num ≠ r.num) })
      if !self ∨ !(s.fed.dies.all (fun d => r.dies.contains d)) then s
      else if s.isAnchor then
        if s.fedPkgs.all (fun p => r.pkgs.contains p) then
          (queueChange { kind := 6, body := [6] ++ zeros 7 ++ r.who } (drop s)).2
        else s
      else sendUp (s.fedBytes 9 0 r.num s.policyMeas) (drop s)) s

/-! ### Received messages (R502, R503) -/

def FedMsg.f (m : FedMsg) (o n : Nat) : Nat := leNat (slice o n m.data)
def FedMsg.kind (m : FedMsg) : Nat := m.f 0 1
def FedMsg.epoch (m : FedMsg) : Nat := m.f 1 1
def FedMsg.chg (m : FedMsg) : Nat := m.f 6 2
def FedMsg.body (m : FedMsg) : Bytes := slice 8 48 m.data

/-- A message from the anchor's side: over a pilot's session, or from a follower's pilot. -/
def State.fromAbove (s : State) (m : FedMsg) : Bool :=
  if s.straps.pilotSel then !s.isAnchor && decide (m.sess = some s.fed.reg.fsess)
  else decide (m.sess = none ∧ s.fed.pilotDie = some m.die)

/-- The follower that a message comes from. -/
def State.fromDie (s : State) (m : FedMsg) : Option Nat :=
  if s.straps.pilotSel ∧ m.sess = none ∧ s.fed.dies.contains m.die then some m.die else none

/-- The package that a message comes from, at the anchor. -/
def State.fromPkg (s : State) (m : FedMsg) : Option Nat :=
  match m.sess with
  | none => none
  | some i => s.fedPkgs.find? (fun p => s.fedSess p = i)

/-- A pilot answers for its package once every follower has acknowledged (R503). -/
def pilotAck (s : State) : State :=
  if s.isAnchor then anchorCheck s
  else match s.fed.prepared with
    | some c => if s.straps.pilotSel ∧ s.fed.ackSelf ∧ s.fed.dies.all (fun d => s.fed.acksDie.contains d) then
        sendUp (s.fedBytes 5 0 c.num s.policyMeas) s else s
    | none => s

/-- The lowest of the epochs shown, modulo 256 relative to an epoch (R503). -/
def lowestEpoch (own : Nat) (l : List Nat) : Nat :=
  l.foldl (fun a e => if (own + 256 - a) % 256 < (own + 256 - e) % 256 ∧ (own + 256 - e) % 256 < 128 then e else a) own

/-- A pilot's HB_ACK, once every follower has shown its epoch (R503). -/
def pilotHb (s : State) : State :=
  if s.isAnchor then caughtUp s
  else if s.straps.pilotSel ∧ s.fed.dies.all (fun d => decide (Tab.get 0 s.fed.hbDie d ≠ 0)) then
    let e := lowestEpoch s.fed.epoch (s.fed.dies.map (fun d => Tab.get 0 s.fed.hbDie d - 1))
    sendUp (patch 1 [BitVec.ofNat 8 e] (s.fedBytes 2 0 0 s.policyMeas)) s
  else s

/-- HEARTBEAT (R508, R510). -/
def hbIn (m : FedMsg) (s : State) : State :=
  if !s.fromAbove m ∨ s.fed.state ≠ .member then s
  else
    let s := sendDies m.data s
    let s := updFed (fun f => { f with hbSeen := true, hbNow := true, hbDie := [] }) s
    let e := s.fed.epoch
    let s := if s.fed.prepared.isSome ∧ m.epoch = (e + 1) % 256 then commitLocal true s else s
    let bad := decide (m.epoch = s.fed.epoch ∧ m.body ≠ s.policyMeas) ||
      decide (m.epoch ≠ s.fed.epoch ∧ m.epoch ≠ (s.fed.epoch + 1) % 256)
    if bad then domainFaultOpen s
    else if s.straps.pilotSel then pilotHb s
    else sendUp (s.fedBytes 2 0 0 s.policyMeas) s

/-- HB_ACK (R503, R507). -/
def hbAckIn (m : FedMsg) (s : State) : State :=
  match s.fromDie m, s.fromPkg m with
  | some d, _ => pilotHb (updFed (fun f => { f with hbDie := Tab.put f.hbDie d (m.epoch + 1) }) s)
  | none, some p => caughtUp (updFed (fun f => { f with hbPkg := Tab.put f.hbPkg p (m.epoch + 1) }) s)
  | none, none => s

/-- REQUEST (R506): a pilot passes it on; the anchor queues it, or answers PREP_NAK. -/
def requestIn (m : FedMsg) (s : State) : State :=
  if (s.fromDie m).isNone ∧ (s.fromPkg m).isNone then s
  else if !s.isAnchor then sendUp m.data s
  else if (m.body.headD 0).toNat ≠ 5 ∨ s.fed.state ≠ .member then bumpIf (s.fed.state = .member) (fedBase + 0x428) s
  else
    let r := queueChange { kind := 5, body := m.body } s
    if r.1 then r.2
    else
      let d := patch 2 (slice 2 3 m.data) (s.fedBytes 6 Status.eNoRes.code 0 s.policyMeas)
      match s.fromPkg m with
      | some p => fedSend (s.fedSess p) d r.2
      | none => d2dSend false m.die d r.2

/-- PREPARE (R508). -/
def prepareIn (m : FedMsg) (s : State) : State :=
  if !s.fromAbove m ∨ s.fed.state ≠ .member then s
  else
    let s := sendDies m.data s
    let c : Change := { kind := (m.body.headD 0).toNat, body := m.body, num := m.chg }
    if m.epoch ≠ s.fed.epoch ∨ s.fed.prepared.isSome then s
    else
      let s := updFed (fun f => { f with acksDie := [], ackSelf := false }) s
      if s.applies c then
        let s := prepareLocal c s
        if s.straps.pilotSel then pilotAck (updFed (fun f => { f with ackSelf := true }) s)
        else sendUp (s.fedBytes 5 0 c.num s.policyMeas) s
      else
        let f := s.free
        sendUp (f.2.fedBytes 6 (f.1 % 256) c.num f.2.policyMeas) f.2

/-- PREP_ACK (R503, R507). -/
def prepAckIn (m : FedMsg) (s : State) : State :=
  match s.fromDie m, s.fromPkg m with
  | some d, _ =>
    let num := if s.isAnchor then s.fed.running.map (·.num) else s.fed.prepared.map (·.num)
    if num = some m.chg then pilotAck (updFed (fun f => { f with acksDie := d :: f.acksDie.filter (· ≠ d) }) s) else s
  | none, some p =>
    if s.fed.running.map (·.num) = some m.chg then
      anchorCheck (updFed (fun f => { f with acksPkg := p :: f.acksPkg.filter (· ≠ p) }) s) else s
  | none, none => s

/-- PREP_NAK (R503, R506, R507): a change does not apply somewhere below, or the anchor could not queue a REQUEST
of this package. -/
def prepNakIn (m : FedMsg) (s : State) : State :=
  if s.fromAbove m then
    if s.straps.pilotSel ∧ m.f 4 1 % 8 ≠ s.straps.dieId then d2dSend false (m.f 4 1 % 8) m.data s
    else
      let t := s.oper 0 % 256
      if s.mbox.busy ∧ s.mbox.code = 0x21 then moorPump (s.updMoor t (fun m => { m with alone := true })) else s
  else match s.fromDie m, s.fromPkg m with
    | none, none => s
    | _, _ =>
      if !s.isAnchor then sendUp m.data s
      else if s.fed.running.map (·.num) = some m.chg then abortChange (m.f 5 1) s else s

/-- COMMIT (R508). -/
def commitIn (m : FedMsg) (s : State) : State :=
  if !s.fromAbove m ∨ s.fed.state ≠ .member then s
  else
    let s := sendDies m.data s
    if s.fed.prepared.map (·.num) = some m.chg then revokePump (commitLocal false s) else s

/-- ABORT (R508): the stage is discarded. -/
def abortIn (m : FedMsg) (s : State) : State :=
  if !s.fromAbove m ∨ s.fed.state ≠ .member then s
  else
    let s := sendDies m.data s
    if s.fed.prepared.map (·.num) = some m.chg then updFed (fun f => { f with prepared := none }) s else s

/-- DRAINED (R514). -/
def drainedIn (m : FedMsg) (s : State) : State :=
  let note (g : Revoke → Revoke) (s : State) : State :=
    revokePump (updFed (fun f => { f with revokes := f.revokes.map (fun r => if r.num = m.chg then g r else r) }) s)
  match s.fromDie m, s.fromPkg m with
  | some d, _ => note (fun r => { r with dies := d :: r.dies.filter (· ≠ d) }) s
  | none, some p => note (fun r => { r with pkgs := p :: r.pkgs.filter (· ≠ p) }) s
  | none, none => s

/-- FAULT (R510). -/
def faultIn (m : FedMsg) (s : State) : State :=
  if s.fromAbove m ∨ (s.fromDie m).isSome ∨ (s.fromPkg m).isSome then domainFault (m.f 5 1) s else s

/-- IMAGE (R502): a part out of order discards those gathered. -/
def imageIn (m : FedMsg) (s : State) : State :=
  if !s.fromAbove m then s
  else
    let s := sendDies m.data s
    let parts := if m.chg = s.fed.image.length then s.fed.image ++ [m.body] else if m.chg = 0 then [m.body] else []
    let img := slice 0 256 parts.flatten
    let e := leNat (slice 1 1 img)
    if parts.length < 6 then updFed (fun f => { f with image := parts }) s
    else if s.fed.mode.isEmpty then updFed (fun f => { f with image := [], mode := img, epoch := e }) s
    else if e = s.fed.epoch then replayGate (updFed (fun f => { f with image := [], mode := img }) s)
    else if s.fed.prepared.isSome ∧ e = (s.fed.epoch + 1) % 256 then updFed (fun f => { f with image := parts }) s
    else updFed (fun f => { f with image := [] }) s

/-- Take the message at the head of the FED unit's inbox, where it is of a row's MSG. -/
def takeFed (kind : Nat) (f : FedMsg → State → State) (s : State) : State :=
  match s.fed.inbox with
  | [] => s
  | m :: rest => if m.kind = kind then f m (updFed (fun x => { x with inbox := rest }) s) else s

/-- A federation message comes to the FED unit; one of reserved MSG, or not of 64 bytes, is dropped (R502). -/
def fedArrive (sess : Option Nat) (die : Nat) (d : Bytes) (s : State) : State :=
  let k := (d.headD 0).toNat
  if d.length ≠ 64 ∨ k = 0 ∨ 0x0B < k then bump (fedBase + 0x428) s
  else raiseHm 9 (updFed (fun f => { f with inbox := f.inbox ++ [{ sess := sess, die := die, data := d }] }) s)

/-- A DATA payload on a federation session (R501). -/
def fedFrame (i : Nat) (d : Bytes) (s : State) : State := fedArrive (some i) 0 d s

/-- HEARTBEAT_TIMER (R510, R517): the anchor sends; elsewhere a period without a HEARTBEAT is counted. -/
def heartbeatTimer (s : State) : State :=
  if s.fed.state ≠ .member then s
  else if s.isAnchor then
    let s := updFed (fun f => { f with hbDie := [] }) s
    caughtUp (sendAll (s.fedBytes 1 0 0 s.policyMeas) s)
  else if s.fed.hbSeen then
    updFed (fun f => { f with hbNow := false }) (bumpIf (!s.fed.hbNow) (fedBase + 0x400) s)
  else s

/-- HEARTBEAT_LOSS (R510): 1 ms without a HEARTBEAT, counted from the first one. -/
def heartbeatLoss (s : State) : State :=
  if s.fed.state = .member ∧ !s.isAnchor ∧ s.fed.hbSeen then domainFaultOpen s else s

/-- A federation session that has become BROKEN raises a domain fault (R501); a session that has opened lets the
JOIN of its package be queued. -/
def fedPump (s : State) : State :=
  if s.fed.state ≠ .member then s
  else match s.sess.find? (fun p => p.2.fed && decide (p.2.state = .broken)) with
    | some p => domainFault p.2.cause s
    | none =>
      let ready := s.fed.joinPend.filter (fun p => s.fedPkgs.contains p)
      ready.foldl (fun s p =>
        let r := queueChange { kind := 7, body := [7] ++ zeros 47 } s
        if r.1 then updFed (fun f => { f with joinPend := f.joinPend.filter (· ≠ p) }) r.2 else s) s

/-! ### Formation (R496) -/

/-- A vendor-world berth of the federation's: domain secret and package secret of usage MAC for the KDF alone. -/
def fedBerth (key : Bytes) (masters world usage : Nat) (s : State) : Option Nat × State :=
  match s.freeBerth with
  | none => (none, s)
  | some i =>
    let r := berthStep i (fillBerth i key masters world 0 0x18 usage) s
    (if r.1 then some i else none, r.2)

/-- The instance holds the package secret: the keys of label 8 follow (R499). -/
def takePkgSecret (sec : Bytes) (s : State) : State :=
  let a := fedBerth sec (2 ^ mKdf) 0 4 s
  let b := fedBerth (kdf sec 8 [1]) 0xF 0 4 a.2
  let c := fedBerth (kdf sec 8 [2]) 0xF 0 4 b.2
  updFed (fun f => { f with pkgSecret := a.1, fedKey := b.1, wrapKey := c.1 }) c.2

/-- Prity writes the fabric addresses of the quays (R203, R245). -/
def quayAddrs (s : State) : State :=
  (List.range 16).foldl (fun s q =>
    let a := fld 7 11 s.fed.reg.pkg + fld 4 3 s.straps.dieId + q
    if s.hasIsland (8 + q) then
      (prityPut (quayBase q + 0x10) (s.getQuay q).addr a (fun s => s.updQuay q (fun x => { x with addr := a })) s).2
    else s) s

/-- The instance holds the domain secret: its quays get their addresses, it derives its owner link key and is a
member (R493, R496). -/
def takeDomSecret (sec : Bytes) (s : State) : State :=
  let s := quayAddrs s
  let a := fedBerth sec (2 ^ mKdf) 0 4 s
  let b := fedBerth (kdf sec 7 ([3] ++ zeros 40)) (2 ^ mKdf) 1 1 a.2
  updFed (fun f => { f with domSecret := a.1, ownerLink := b.1, state := .member }) b.2

/-- The pilot gives a follower the mode image and the domain secret (R496, R499). The manual gives the message no
layout: IV, ciphertext, tag from byte 4. -/
def giveSecret (die : Nat) (s : State) : State :=
  match s.fed.domSecret, s.fed.wrapKey, drbg 12 s with
  | some d, some w, some (iv, s) =>
    let c := gcmSeal (s.getBerth w).key iv [] (s.getBerth d).key
    let s := (imageParts s).foldl (fun s m => d2dSend false die m s) s
    d2dSend false die ([BitVec.ofNat 8 (Config.fedMsg 1), 0, 0, 0] ++ iv ++ c.1 ++ c.2) s
  | _, _, _ => s

/-- A follower receives the domain secret. -/
def secretIn (die : Nat) (d : Bytes) (s : State) : State :=
  if s.fed.pilotDie ≠ some die ∨ s.fed.state ≠ .package then s
  else match s.fed.wrapKey with
    | none => s
    | some w => match gcmOpen (s.getBerth w).key (slice 4 12 d) [] (slice 16 32 d) (slice 48 16 d) with
      | none => s
      | some sec => takeDomSecret sec s

/-! ### Joins (R496 to R500) -/

def takeN (n : Nat) (b : Bytes) : Option (Bytes × Bytes) := if n ≤ b.length then some (b.take n, b.drop n) else none
/-- A chain with its 4-byte length in front. -/
def takeChain (b : Bytes) : Option (Bytes × Bytes) := (takeN 4 b).bind (fun r => takeN (leNat r.1) r.2)
def putChain (c : Bytes) : Bytes := leBytes 4 c.length ++ c

/-- The fields of a join message. -/
structure JoinMsg where
  nonce : Bytes
  pkg : Nat := 0
  die : Nat := 0
  c0 : Bytes
  c1 : Bytes
  epk : Bytes
  kem : Bytes
  iv : Bytes := []
  wrap : Bytes := []
  tag : Bytes := []
  image : Bytes := []
  /-- the bytes that the signatures cover, within the message -/
  signed : Bytes
  sigE : Bytes
  sigM : Bytes
  deriving DecidableEq, Repr

/-- Split fixed-width fields off a byte string. -/
def takeAll : List Nat → Bytes → Option (List Bytes × Bytes)
  | [], b => some ([], b)
  | n :: t, b => (takeN n b).bind (fun r => (takeAll t r.2).map (fun x => (r.1 :: x.1, x.2)))

/-- Read a join message: `head` bytes before the chains, the widths of the fields after them. -/
def readJoin (req domain : Bool) (b : Bytes) : Option JoinMsg := do
  let h ← takeN (if req then 36 else 33) b
  let c0 ← takeChain h.2
  let c1 ← takeChain c0.2
  let r ← takeAll ([97, 1568] ++ (if req then [0, 0, 0] else [12, 32, 16]) ++ [if domain && !req then 256 else 0, 96, 4627]) c1.2
  if r.2 ≠ [] then none
  else
    let f := fun (i : Nat) => r.1.getD i []
    some { nonce := h.1.drop (if req then 4 else 1)
           pkg := if req then leNat (slice 1 2 h.1) else 0, die := if req then leNat (slice 3 1 h.1) else 0
           c0 := c0.1, c1 := c1.1, epk := f 0, kem := f 1, iv := f 2, wrap := f 3, tag := f 4, image := f 5
           signed := b.take (b.length - 96 - 4627), sigE := f 6, sigM := f 7 }

/-- The checks of R497 on a peer's message: its DEVID_HASH where they pass. -/
def joinChecks (m : JoinMsg) (more : Bytes) (s : State) : Option Bytes :=
  match chainsOf m.c0 m.c1 with
  | none => none
  | some (dev, a0, a1, lc, _) =>
    if Config.ecVerify a0 (m.signed ++ more) m.sigE && Config.mlVerify a1 (m.signed ++ more) (ascii "ODLAHA JOIN") m.sigM &&
       decide ((lc = 3 ∨ lc = 4) ∧ lc = s.lcState) then some dev else none

/-- A join is refused (R497, R500). -/
def joinRefuse (kind : Nat) (s : State) : State :=
  bump (fedBase + 0x430) (auditLog 2 .eAuth 0x13 0 0 kind 0 s)

/-- Sign a join message with this instance's own Alias. -/
def joinSign (b more : Bytes) (s : State) : Option (Bytes × State) :=
  let k := s.att.store
  match drbg 48 s with
  | none => none
  | some (r, s) => (drbg 32 s).map (fun q =>
      (b ++ slice 0 96 (Config.ecSign k.aliasE (b ++ more) r) ++
        slice 0 4627 (Config.mlSign k.aliasM (b ++ more) (ascii "ODLAHA JOIN") q.1), q.2))

/-- Parts of a join message for the relay window (R498). -/
def relayParts : Nat → Bytes → List Bytes
  | 0, _ => []
  | n + 1, b => if b.length ≤ 16384 then [b] else b.take 16384 :: relayParts n (b.drop 16384)

/-- Place the next part in RELAY_OUT, once the last one has been taken (R498). -/
def relayPump (s : State) : State :=
  match s.fed.reg.outReady, s.fed.outParts with
  | false, p :: rest => updFed (fun f => { f with
      outParts := rest, reg := { f.reg with relayOut := p, outReady := true, outLast := rest.isEmpty } }) s
  | _, _ => s

/-- Send a join message: to a die in fragments, or through the relay. -/
def joinSend (to' : Nat) (b : Bytes) (s : State) : State :=
  if to' < 8 then d2dFragments true to' 0x12 (b.headD 0).toNat b s
  else relayPump (updFed (fun f => { f with outParts := f.outParts ++ relayParts 4 b }) s)

/-- Begin a join as its requester: none while the DRBG does not serve. -/
def joinBegin (domain : Bool) (s : State) : Option State :=
  match drbg 32 s with
  | none => none
  | some (nonce, s) => match drbg 48 s with
    | none => none
    | some (dh, s) => match drbg 64 s with
      | none => none
      | some (kem, s) =>
        let b := [0x10] ++ leBytes 2 s.fed.reg.pkg ++ [BitVec.ofNat 8 s.straps.dieId] ++ nonce ++
          putChain (s.ownChain 0) ++ putChain (s.ownChain 1) ++ ecPub97 dh ++ slice 0 1568 (Config.kemPub kem)
        match joinSign b [] s with
        | none => none
        | some (msg, s) =>
          let j : Join := { domain := domain, request := msg, nonce := nonce, dhSeed := dh, kemSeed := kem }
          let s := updFed (fun f => { f with join := some j, state := if domain then .domJoining else .pkgJoining }) s
          if domain then some (joinSend 8 msg s)
          else some (((List.range s.straps.dieCount).filter (fun d => d ≠ s.straps.dieId)).foldl
            (fun s d => joinSend d msg s) s)

/-- The key that wraps a secret in a JOIN_RSP (R496). -/
def joinKek (ssM ssE req epk ct : Bytes) : Bytes := kmac (ssM ++ ssE) (sha384 req ++ epk ++ ct) 32 "ODLAHA JOIN"

/-- The answer to a join request that passed its checks: the wrapped secret (R496). -/
def joinRespond (domain : Bool) (req : Bytes) (m : JoinMsg) (secret : Bytes) (s : State) : Option (Bytes × State) :=
  match drbg 48 s with
  | none => none
  | some (dh, s) => match drbg 32 s with
    | none => none
    | some (kr, s) => match drbg 12 s, Config.ecShared dh m.epk with
      | some (iv, s), some ssE =>
        let k := Config.kemEncap m.kem kr
        let ct := slice 0 1568 k.1
        let epk := ecPub97 dh
        let c := gcmSeal (joinKek k.2 ssE req epk ct) iv [] secret
        let b := [0x11] ++ m.nonce ++ putChain (s.ownChain 0) ++ putChain (s.ownChain 1) ++ epk ++ ct ++ iv ++ c.1 ++ c.2 ++
          (if domain then slice 0 256 s.fed.mode else [])
        joinSign b (sha384 req) s
      | _, _ => none

/-- JOIN_REQ (R497): the pilot answers its followers with the package secret, the anchor other pilots with the
domain secret. An instance that is no pilot takes no request. -/
def joinReqIn (src : Nat) (b : Bytes) (s : State) : State :=
  let domain := decide (src = 8)
  let secret := if domain then (if s.isAnchor then s.fed.domSecret else none) else s.fed.pkgSecret
  if !s.straps.pilotSel then s
  else match secret, readJoin true domain b with
    | some i, some m => match joinChecks m [] s with
      | none => joinRefuse 0x10 s
      | some dev => match joinRespond domain b m (s.getBerth i).key s with
        | none => joinRefuse 0x10 s
        | some (rsp, s) =>
          let s := joinSend src rsp s
          if domain then updFed (fun f => { f with
            members := Tab.put f.members m.pkg dev, joinPend := f.joinPend.filter (· ≠ m.pkg) ++ [m.pkg] }) s
          else giveSecret src (updFed (fun f => { f with dies := (f.dies.filter (· ≠ src) ++ [src]).mergeSort (fun a b => decide (a ≤ b)) }) s)
    | _, _ => joinRefuse 0x10 s

/-- JOIN_RSP (R497). -/
def joinRspIn (src : Nat) (b : Bytes) (s : State) : State :=
  let domain := decide (src = 8)
  match s.fed.join with
  | none => joinRefuse 0x11 s
  | some j => match readJoin false domain b with
    | none => joinRefuse 0x11 s
    | some m =>
      let kem := Config.kemDecap j.kemSeed m.kem
      match joinChecks m (sha384 j.request) s, Config.ecShared j.dhSeed m.epk with
      | some _, some ssE =>
        if j.domain ≠ domain ∨ m.nonce ≠ j.nonce then joinRefuse 0x11 s
        else match gcmOpen (joinKek kem ssE j.request m.epk m.kem) m.iv [] m.wrap m.tag with
          | none => joinRefuse 0x11 s
          | some sec =>
            let s := updFed (fun f => { f with join := none }) s
            if domain then
              let s := updFed (fun f => { f with mode := m.image, epoch := leNat (slice 1 1 m.image) }) s
              let s := takeDomSecret sec s
              s.fed.dies.foldl (fun s d => giveSecret d s) s
            else updFed (fun f => { f with state := .package, pilotDie := some src, pilotChains := (m.c0, m.c1) })
              (takePkgSecret sec s)
      | _, _ => joinRefuse 0x11 s

/-- Take the complete join message that waits first, where it is of a row's kind. -/
def takeJoin (kind : Nat) (f : Nat → Bytes → State → State) (s : State) : State :=
  match s.fed.joined with
  | [] => s
  | (src, k, b) :: rest => if k = kind then f src b (updFed (fun x => { x with joined := rest }) s) else s

/-- A join message is complete: it waits for its check, or is refused where it is longer than R500 allows or of
no kind of R496. -/
def joinArrive (src kind : Nat) (b : Bytes) (s : State) : State :=
  if 32768 < b.length ∨ (kind ≠ 0x10 ∧ kind ≠ 0x11) ∨ (b.headD 0).toNat ≠ kind then joinRefuse kind s
  else updFed (fun f => { f with joined := f.joined ++ [(src, kind, b)] }) s

/-- The anchor, or a pilot, takes the part in RELAY_IN (R498), once no relayed message waits for its check. -/
def relayTake (s : State) : State :=
  let r := s.fed.reg
  if !r.inFull ∨ s.fed.joined.any (fun j => j.1 = 8) then s
  else
    let part := (List.range (min 16384 r.inLen)).map (fun i => Tab.get 0 r.relayIn i)
    let g := Tab.get ({} : Gather) s.fed.gather 8
    let d := g.data ++ part
    let s := updFed (fun f => { f with reg := { f.reg with inFull := false } }) s
    if r.inLast ∨ 32768 < d.length then
      joinArrive 8 (d.headD 0).toNat d (updFed (fun f => { f with gather := Tab.set {} f.gather 8 {} }) s)
    else updFed (fun f => { f with gather := Tab.set {} f.gather 8 { data := d } }) s

/-! ### The registers that formation and the relay use (R498, R516) -/

/-- A write of FED.CTRL (R516): the owner's while ALONE; FORM starts formation (R496). -/
def fedCtrlWrite (m : Master) (value : Nat) (s : State) : State :=
  let r := s.fed.reg
  regGuard fedBase (decide (m = .pf ∧ s.fed.state = .alone)) (fun s =>
    let old := r.pkg + fld 11 1 (b2n r.anchor) + fld 12 12 r.fsess
    let new := value % 2 ^ 24
    policyWrite m fedBase new (old ≠ new) (fun s =>
      let s := updFed (fun f => { f with reg := { f.reg with
        pkg := bits 0 11 value, anchor := bit1 11 value, fsess := bits 12 12 value } }) s
      if !bit1 24 value ∨ s.strapFault ∨ !s.drbgReady then s
      else if !s.straps.pilotSel then (joinBegin false s).getD s
      else match drbg 32 s with
        | none => s
        | some (sec, s) =>
          let s := takePkgSecret sec s
          if !s.isAnchor then (joinBegin true s).getD s
          else match drbg 32 s with
            | none => s
            | some (dom, s) => match drbg 32 s with
              | none => s
              | some (id, s) =>
                let s := updFed (fun f => { f with domainId := id, members := Tab.put [] f.reg.pkg s.devid }) s
                takeDomSecret dom (updFed (fun f => { f with mode := firstImage s.membersHash id, epoch := 0 }) s)) s) s

/-- A write of RELAY_CTRL (R498, R516). -/
def relayCtrlWrite (m : Master) (value : Nat) (s : State) : State :=
  regGuard (fedBase + 0x200) (decide (m = .pf)) (fun s =>
    let full := s.fed.reg.inFull
    let s := if bit1 1 value ∧ full then permFault (fedBase + 0x200) s else s
    let s := updFed (fun f => { f with reg := { f.reg with
      inLast := bit1 3 value, inLen := bits 32 16 value
      inFull := full || bit1 1 value, outReady := f.reg.outReady && !bit1 4 value } }) s
    let s := if bit1 1 value then raiseHm 11 s else s
    relayPump (relayTake s)) s

/-- RELAY_OUT_TAKEN (R498): a write of OUT_TAKEN that keeps the other fields. -/
def relayOutTaken (m : Master) (s : State) : State :=
  let r := s.fed.reg
  relayCtrlWrite m (fld 3 1 (b2n r.inLast) + fld 4 1 1 + fld 32 16 r.inLen) s

/-- D2D_MESSAGE (R110): the tag is checked, and the message goes to what it is for. -/
def d2dMessage (src : Nat) (msg : Bytes) (s : State) : State :=
  let n := msg.length - 16
  let k := (msg.headD 0).toNat
  let good := match s.d2dKey (decide (k = 0x12)) with
    | none => false
    | some key => decide (17 ≤ msg.length ∧ msg.length ≤ 256 ∧ msg.drop n = d2dTag key (msg.take n))
  if !good then bump (fedBase + 0x420) s
  else
    let s := raiseHm 8 s
    let d := msg.take n
    let frag (cls : Nat) (f : Nat → Bytes → State → State) (s : State) : State :=
      let g := gatherFrag (src + 16 * cls) d s
      match g.1 with | some x => f x.1 x.2 g.2.2 | none => g.2.2
    if k = 0x12 then
      let g := gatherFrag src d s
      if g.2.1 then joinRefuse 0x12 g.2.2
      else match g.1 with | some x => joinArrive src x.1 x.2 g.2.2 | none => g.2.2
    else if 1 ≤ k ∧ k ≤ 0x0B then fedArrive none src (d.take 64) s
    else if k = Config.fedMsg 0 then (if s.fed.pilotDie = some src then fenceDomain 33 2 s else s)
    else if k = Config.fedMsg 1 then secretIn src d s
    else if k = Config.fedMsg 2 then (if s.fed.pilotDie = some src then entryAsked src d s else s)
    else if k = Config.fedMsg 3 then frag 1 (fun _ x s => entryIn src x s) s
    else if k = Config.fedMsg 4 then reportAsked src d s
    else if k = Config.fedMsg 5 then frag 2 (fun st x s => reportIn src st x s) s
    else bump (fedBase + 0x428) s

/-- FENCE_DOMAIN (R567, R569): a write of FAULT.FENCE. Only the pilot takes domain 33, and sends it on. -/
def fenceWrite (m : Master) (d : Nat) (s : State) : State :=
  regGuard faultBase (decide (m = .pf)) (fun s =>
    if d = 33 ∧ !s.straps.pilotSel then bump (faultBase + 0x328) s
    else
      let ok := s.domNamed d && decide (s.domState d = 0)
      let s := fenceDomain d 0 s
      if d = 33 ∧ ok then s.fed.dies.foldl (fun s x => d2dSend false x [BitVec.ofNat 8 (Config.fedMsg 0)] s) s else s) s

end Sys2Proof.Machine
end

