-- ==== Sys2Proof/Machine/Spdm.lean ====
section
/-! DEFINITION. The SPDM responder, its vendor requests, TDISP and IDE key management (R91, R96 to R98, R456 to
R464, R472 to R474). Message layouts are those of DSP0274, DSP0277, TDISP 1.0 and IDE_KM. -/

namespace Sys2Proof.Machine

open Sys2Proof

/-! ### Serving a message -/

/-- The block answers on a channel: Prity runs, and in keeper mode only the sideband is in service (R44). -/
def State.spdmServes (s : State) (h : SpdmHdr) : Bool :=
  s.fw.up && (match h.ch with
    | .sideband => s.running
    | .doe .pf => s.normal
    | .doe (.vf n) => s.normal && s.moor.any (fun p => decide (p.2.vf = some n)))

/-- Bytes of a request that its row does not carry: a free value. -/
def openBytes (n : Nat) (s : State) : Bytes × State :=
  let f := s.free
  (leBytes n f.1, f.2)

/-- Take a message: an SPDM request outside any session, or in a session that exists. `stage` is the least stage
of the connection, `inSess` tells whether it must come in a session (some true), outside (some false) or either. A
message that a rule of SPDM does not allow there is answered UnexpectedRequest. -/
def spdmTake (h : SpdmHdr) (stage : Nat) (inSess : Option Bool) (sessStage : Nat) (f : State → State) (s : State) : State :=
  if !s.spdmServes h then s
  else
    let s := match h.ch with
      | .sideband => raiseHm 6 s
      | .doe fn => { raiseHm 7 s with att := { s.att with doeHeld := s.att.doeHeld.filter (· ≠ chanKey (.doe fn)) } }
    match h.sess, s.spdmSess h with
    | some _, none => s
    | some _, some x =>
      let s := updSess h (fun x => { x with seqReq := x.seqReq + 1, seqRsp := x.seqRsp + 1 }) s
      if inSess = some false ∨ x.stage ≠ sessStage then spdmError h 4 0 [] s else f s
    | none, _ => if inSess = some true ∨ (s.conn h.ch).stage < stage then spdmError h 4 0 [] s else f s

/-! ### Connection (R456) -/

/-- Note a request and its response in the connection's transcript. -/
def noteVca (h : SpdmHdr) (stage : Nat) (req rsp : Bytes) (s : State) : State :=
  let c := s.conn h.ch
  setConn h.ch { c with stage := stage, vca := c.vca ++ req ++ rsp } s

/-- GET_VERSION: the connection begins anew. -/
def getVersion (h : SpdmHdr) (s : State) : State :=
  spdmTake h 0 (some false) 0 (fun s =>
    let rsp : Bytes := [0x10, 4, 0, 0, 0, 2] ++ leBytes 2 0x1200 ++ leBytes 2 0x1300
    let c := s.conn h.ch
    let s := setConn h.ch { c with vca := [], m1 := [], l1 := [] } s
    spdmAnswer h rsp (noteVca h 1 [0x10, 0x84, 0, 0] rsp s)) s

/-- GET_CAPABILITIES. CTExponent is not in the manual: a free value. -/
def getCapabilities (h : SpdmHdr) (s : State) : State :=
  spdmTake h 1 (some false) 0 (fun s =>
    let f := s.free
    let rsp := spdmMsg 0x61 0 0 ([0, BitVec.ofNat 8 f.1, 0, 0] ++ leBytes 4 0x73F6 ++ leBytes 4 4096 ++ leBytes 4 4096)
    let r := openBytes 16 f.2
    spdmAnswer h rsp (noteVca h 2 ([0x13, 0xE1, 0, 0] ++ r.1) rsp r.2)) s

/-- NEGOTIATE_ALGORITHMS. -/
def negotiateAlgorithms (h : SpdmHdr) (s : State) : State :=
  spdmTake h 2 (some false) 0 (fun s =>
    let alg := fun (t v : Nat) => [BitVec.ofNat 8 t, 0x20] ++ leBytes 2 v
    let body := [1, 0] ++ leBytes 4 4 ++ leBytes 4 0x80 ++ leBytes 4 2 ++ zeros 12 ++ [0, 0, 0, 0] ++
      alg 2 0x10 ++ alg 3 2 ++ alg 4 0x80 ++ alg 5 1
    let rsp := spdmMsg 0x63 4 0 (leBytes 2 (body.length + 6) ++ body)
    let r := openBytes 48 s
    spdmAnswer h rsp (noteVca h 3 ([0x13, 0xE3, 4, 0] ++ r.1) rsp r.2)) s

/-! ### Certificates and signatures (R455, R459, R461) -/

/-- GET_DIGESTS: both slots. -/
def getDigests (h : SpdmHdr) (s : State) : State :=
  spdmTake h 3 none 1 (fun s =>
    let rsp := spdmMsg 1 0 3 (sha384 (s.chain 0) ++ sha384 (s.chain 1))
    let c := s.conn h.ch
    spdmAnswer h rsp (setConn h.ch { c with m1 := c.m1 ++ [0x13, 0x81, 0, 0] ++ rsp } s)) s

/-- GET_CERTIFICATE: a portion of the chain of slot 0 or 1. -/
def getCertificate (h : SpdmHdr) (slot offset length : Nat) (s : State) : State :=
  spdmTake h 3 none 1 (fun s =>
    let d := s.chain slot
    if 2 ≤ slot ∨ d.length ≤ offset ∨ 65536 ≤ offset ∨ 65536 ≤ length then spdmError h 1 0 [] s
    else
      let part := (d.drop offset).take (min length 3840)
      let rsp := spdmMsg 2 slot 0 (leBytes 2 part.length ++ leBytes 2 (d.length - offset - part.length) ++ part)
      let c := s.conn h.ch
      spdmAnswer h rsp (setConn h.ch { c with
      m1 := c.m1 ++
        [0x13, 0x82, BitVec.ofNat 8 slot, 0] ++ leBytes 2 offset ++ leBytes 2 length ++ rsp } s)) s

/-- CHALLENGE: signed by the Alias of R461; only slot 0 signs. -/
def challenge (h : SpdmHdr) (slot : Nat) (nonce : Bytes) (s : State) : State :=
  spdmTake h 3 (some false) 0 (fun s =>
    if slot ≠ 0 ∨ nonce.length ≠ 32 then spdmError h 1 0 [] s
    else match drbg 32 s with
      | none => spdmError h 5 0 [] s
      | some (mine, s) =>
        let c := s.conn h.ch
        let req := [0x13, 0x83, 0, 0] ++ nonce
        let head := spdmMsg 3 0 1 (sha384 (s.chain 0) ++ mine ++ leBytes 2 0)
        if !(s.follower || s.att.store.valid) then spdmError h 5 0 [] s
        else match signEc (sha384 (c.vca ++ c.m1 ++ req ++ head)) s with
          | none => spdmError h 5 0 [] s
          | some (sig, s) => spdmAnswer h (head ++ sig) (setConn h.ch { s.conn h.ch with m1 := [] } s)) s

/-- The values of the measurements (R459): index, DMTFSpecMeasurementValueType, value. -/
def State.measures (s : State) : List (Nat × Nat × Bytes) :=
  [(1, 0, slice 0 48 Config.romHash), (2, 1, slice 0 48 s.fw.fwid), (3, 0x82, s.dieEntry.take 8), (4, 3, s.policyMeas),
   (5, 0x83, s.injBytes)]

def measureBlock (m : Nat × Nat × Bytes) : Bytes :=
  [BitVec.ofNat 8 m.1, 1] ++ leBytes 2 (m.2.2.length + 3) ++ [BitVec.ofNat 8 m.2.1] ++ leBytes 2 m.2.2.length ++ m.2.2

/-- GET_MEASUREMENTS: index 0 gives their number, 0xFF all of them (R459). -/
def getMeasurements (h : SpdmHdr) (index : Nat) (nonce : Bytes) (s : State) : State :=
  spdmTake h 3 none 1 (fun s =>
    if (6 ≤ index ∧ index ≠ 0xFF) ∨ nonce.length ≠ 32 then spdmError h 1 0 [] s
    else match drbg 32 s with
      | none => spdmError h 5 0 [] s
      | some (mine, s) =>
        let some' := if index = 0 then [] else s.measures.filter (fun m => index = 0xFF || m.1 = index)
        let blocks := (some'.map measureBlock).flatten
        let c := s.conn h.ch
        let req := [0x13, 0xE0, 1, BitVec.ofNat 8 index] ++ nonce ++ [0]
        let head := spdmMsg 0x60 (if index = 0 then 5 else 0) 0
          ([BitVec.ofNat 8 some'.length] ++ leBytes 3 blocks.length ++ blocks ++ mine ++ leBytes 2 0)
        if !(s.follower || s.att.store.valid) then spdmError h 5 0 [] s
        else match signEc (sha384 (c.vca ++ c.l1 ++ req ++ head)) s with
          | none => spdmError h 5 0 [] s
          | some (sig, s) => spdmAnswer h (head ++ sig) (setConn h.ch { s.conn h.ch with l1 := [] } s)) s

/-! ### Sessions (R457, R456) -/

/-- OWNER_KEY_HASH (R458): registers 2 to 7, the most significant byte first. -/
def State.ownerHash (s : State) : Bytes := ((List.range 6).map (fun i => beBytes 8 (Tab.get 0 s.audit.preg (2 + i)))).flatten

/-- World of a session that opens on a channel (R457). -/
def State.sessWorld (s : State) (c : Channel) (leaf : Option Bytes) : World :=
  match c with
  | .doe .pf => .owner
  | .doe (.vf n) => match s.moor.find? (fun p => decide (p.2.vf = some n)) with
    | some p => .tenant p.1
    | none => .none
  | .sideband => match leaf with
    | some l => if l = s.ownerHash ∧ s.ownerHash ≠ zeros 48 then .owner else .none
    | none => .none

/-- KEY_EXCHANGE: ECDHE P-384, then the handshake secrets of DSP0274 (R457). -/
def keyExchange (h : SpdmHdr) (r : KexReq) (s : State) : State :=
  spdmTake h 3 (some false) 0 (fun s =>
    let c := s.conn h.ch
    if 4 ≤ c.sess.length then spdmError h 0x0A 0 [] s
    else if !(s.follower || s.att.store.valid) then spdmError h 5 0 [] s
    else match drbg 48 s with
      | none => spdmError h 5 0 [] s
      | some (seed, s) => match drbg 32 s, Config.ecShared seed ([4] ++ r.exchange) with
        | some (rand, s), some dhe =>
          let id := c.nextId
          let mut' := match h.ch, r.leafHash with | .sideband, some _ => 1 | _, _ => 0
          let o := openBytes 8 s
          let req := [0x13, 0xE4, 0, 0] ++ o.1 ++ r.exchange
          let head := spdmMsg 0x64 0 0 (leBytes 2 id ++ [mut', 0] ++ rand ++ slice 0 96 (Config.ecPub seed) ++ leBytes 2 0)
          let t := c.vca ++ sha384 (s.chain 0) ++ req ++ head
          match signEc (sha384 t) o.2 with
          | none => spdmError h 5 0 [] s
          | some (sig, s) =>
            let th := sha384 (t ++ sig)
            let hs := hmac384 (zeros 48) dhe
            let hsRsp := spdmExpand hs "rsp hs data" th 48
            let verify := hmac384 (spdmExpand hsRsp "finished" [] 48) th
            let x : SpdmSess :=
              { id := id, world := s.sessWorld h.ch r.leafHash, transcript := t ++ sig ++ verify, th := th
                master := hmac384 (spdmExpand hs "derived" [] 48) (zeros 48)
                hsReq := spdmExpand hs "req hs data" th 48, hsRsp := hsRsp }
            let c := s.conn h.ch
            spdmAnswer h (head ++ sig ++ verify) (setConn h.ch { c with sess := c.sess ++ [x], nextId := id + 1 } s)
        | _, _ => spdmError h 1 0 [] s) s

/-- End a session: its keys and objects go (R462). -/
def dropSess (h : SpdmHdr) (s : State) : State :=
  let c := s.conn h.ch
  setConn h.ch { c with sess := c.sess.filter (fun x => h.sess ≠ some x.id) } s

/-- FINISH: the application secrets follow, or the session ends with DecryptError. -/
def finish (h : SpdmHdr) (verify : Bytes) (s : State) : State :=
  spdmTake h 3 (some true) 0 (fun s => match s.spdmSess h with
    | none => s
    | some x =>
      let req : Bytes := [0x13, 0xE5, 0, 0]
      let want := hmac384 (spdmExpand x.hsReq "finished" [] 48) (sha384 (x.transcript ++ req))
      if verify ≠ want then spdmError h 6 0 [] (dropSess h s)
      else
        let rsp := spdmMsg 0x65 0 0 []
        let th := sha384 (x.transcript ++ req ++ verify ++ rsp)
        spdmAnswer h rsp (updSess h (fun x => { x with
          stage := 1, th := th, hsReq := [], hsRsp := [], seqReq := 0, seqRsp := 0
          secReq := spdmExpand x.master "req app data" th 48, secRsp := spdmExpand x.master "rsp app data" th 48 }) s)) s

def spdmHeartbeat (h : SpdmHdr) (s : State) : State :=
  spdmTake h 3 (some true) 1 (fun s => spdmAnswer h (spdmMsg 0x68 0 0 []) s) s

/-- KEY_UPDATE of the requester's direction, or of both (R463). -/
def keyUpdate (h : SpdmHdr) (both : Bool) (s : State) : State :=
  spdmTake h 3 (some true) 1 (fun s =>
    spdmAnswer h (spdmMsg 0x69 (if both then 2 else 1) 0 []) (updSess h (fun x => { x with
      secReq := spdmExpand x.secReq "traffic upd" [] 48, seqReq := 0
      secRsp := if both then spdmExpand x.secRsp "traffic upd" [] 48 else x.secRsp
      seqRsp := if both then 0 else x.seqRsp }) s)) s

def endSession (h : SpdmHdr) (s : State) : State :=
  spdmTake h 3 (some true) 1 (fun s => dropSess h (spdmAnswer h (spdmMsg 0x6C 0 0 []) s)) s

/-- Any other request (R456). -/
def unsupportedRequest (h : SpdmHdr) (code : Nat) (s : State) : State :=
  if !s.spdmServes h then s else spdmError h 7 code [] s

/-! ### Vendor requests (R458, R460 to R463) -/

/-- Build the object that a GET_OBJECT asks for, and answer (R460, R462, R465). -/
def buildObject (h : SpdmHdr) (r : ObjReq) (s : State) : State :=
  let hold (d : Bytes) (s : State) : State :=
    objectAnswer h d r.offset r.length (holdObj h { obj := r.obj, nonce := r.nonce, data := d } s)
  let moor : Option (Nat × Mooring) := match h.ch with
    | .doe (.vf n) => s.moor.find? (fun (p : Nat × Mooring) => decide (p.2.vf = some n))
    | _ => none
  if r.obj = 3 then
    match s.spdmSess h, drbg 64 s with
    | some x, some (seed, s) =>
      let ek := slice 0 1568 (Config.kemPub seed)
      match signMl (x.th ++ ek) "ODLAHA PQEK" s with
      | none => vendorStatus h .eNoRes s
      | some (sig, s) =>
        hold (ek ++ sig) (updSess h (fun x => { x with pq := max 1 x.pq, pqSeed := if x.pq = 2 then x.pqSeed else seed
                                                       pqEk := if x.pq = 2 then x.pqEk else ek }) s)
    | _, _ => vendorStatus h .eNoRes s
  else if r.obj = 4 then
    match moor.bind (fun (p : Nat × Mooring) => p.2.dkey) with
    | none => vendorStatus h .eState s
    | some i => hold (dkeyObj (s.getBerth i).key) s
  else if s.lcState < 2 ∨ 4 < s.lcState then vendorStatus h .eLc s
  else if s.lc.pending then vendorStatus h .eState s
  else
    let j : ReportJob := { kind := if r.obj = 1 then 1 else 2, nonce := r.nonce, moor := if r.obj = 1 then 0 else (moor.map (fun (p : Nat × Mooring) => p.1)).getD 0
                           tenant := if r.obj = 1 then [] else (moor.map (fun (p : Nat × Mooring) => p.2.adm.tenantId)).getD []
                           asker := .object h r.offset r.length }
    reportBegin j s

/-- GET_OBJECT (R460). -/
def getObject (h : SpdmHdr) (r : ObjReq) (s : State) : State :=
  spdmTake h 3 none 1 (fun s =>
    let onVf := match h.ch with | .doe (.vf _) => true | _ => false
    let here := match r.obj with
      | 1 => true
      | 2 => onVf && h.sess.isSome
      | 3 => h.sess.isSome
      | _ => onVf
    if r.obj = 0 ∨ 4 < r.obj ∨ r.length = 0 ∨ 3840 < r.length ∨ r.nonce.length ≠ 32 ∨ (3 ≤ r.obj ∧ r.nonce ≠ zeros 32) then
      vendorStatus h .eEncoding s
    else if !here then vendorStatus h .ePermission s
    else match (s.heldObjs h).find? (fun o => decide (o.obj = r.obj ∧ o.nonce = r.nonce)) with
      | some o => objectAnswer h o.data r.offset r.length s
      | none => if r.offset ≠ 0 then vendorStatus h .eState s else buildObject h r s) s

/-- PQ_BIND (R463): the response travels under the old keys. -/
def pqBind (h : SpdmHdr) (ct : Bytes) (s : State) : State :=
  spdmTake h 3 none 1 (fun s => match s.spdmSess h with
    | none => vendorStatus h .ePermission s
    | some x =>
      if ct.length ≠ 1568 then vendorStatus h .eEncoding s
      else if x.pq ≠ 1 then vendorStatus h .eState s
      else
        let ss := Config.kemDecap x.pqSeed ct
        let ctx := ss ++ sha384 (x.pqEk ++ ct)
        updSess h (fun x => { x with
          pq := 2, pqSeed := [], seqReq := 0, seqRsp := 0
          secReq := kmac x.secReq ctx 48 "ODLAHA PQBIND", secRsp := kmac x.secRsp ctx 48 "ODLAHA PQBIND" })
          (vendorStatus h .ok s)) s

/-- SET_OWNER_KEY (R458): registers 2 to 7 are written, the answer follows the last. -/
def setOwnerKey (h : SpdmHdr) (hash : Bytes) (s : State) : State :=
  spdmTake h 3 none 1 (fun s =>
    let x := s.spdmSess h
    let bound := match x with | some x => decide (x.pq = 2) | none => false
    let owner := match x with | some x => decide (x.world = .owner) | none => false
    let open' := match h.ch with | .sideband => true | .doe .pf => true | _ => false
    if hash.length ≠ 48 then vendorStatus h .eEncoding s
    else if !(bound && (owner || (open' && decide (s.ownerHash = zeros 48)))) then
      let side := match h.ch with | .sideband => 0x11 | _ => 0x10
      vendorStatus h .ePermission (auditLog 2 .ePermission side (if owner then 1 else 0) 0 3 0 s)
    else if s.att.ownerSet.isSome then vendorStatus h .eBusy s
    else if (List.range 6).any (fun i => decide ((pregPush (2 + i) 0 false s).1 ≠ .ok)) then vendorStatus h .eWear s
    else
      let s := (List.range 6).foldl (fun s i => (pregPush (2 + i) (beNat (slice (8 * i) 8 hash)) false s).2) s
      { s with att := { s.att with ownerSet := some h } }) s

/-- The mailbox answer that RESPOND_IF_READY collects (R460). -/
def mboxPayload (s : State) : Bytes :=
  [BitVec.ofNat 8 s.mbox.result, 0] ++ leBytes 2 s.mbox.dataLen ++
  ((List.range 8).map (fun i => leBytes 8 (Tab.get 0 s.mbox.res i))).flatten ++ s.mbData 0 (min 3584 s.mbox.dataLen)

/-- RESPOND_IF_READY (R460). -/
def respondIfReady (h : SpdmHdr) (s : State) : State :=
  spdmTake h 3 (some true) 1 (fun s => match s.spdmSess h with
    | none => s
    | some x =>
      if !x.mbox then spdmError h 4 0 [] s
      else if s.mbox.busy ∧ s.mbox.sess = h.sess then spdmError h 0x42 0 [15, 0xFE, 0, 10] s
      else vendorAnswer h (mboxPayload s) (updSess h (fun x => { x with mbox := false }) s)) s

/-- MBOX (R334, R460): `start` runs the command of a code. -/
def vendorMbox (start : Nat → State → State) (h : SpdmHdr) (r : MboxReq) (s : State) : State :=
  spdmTake h 3 none 1 (fun s =>
    let x := s.spdmSess h
    let owner := match h.ch, x with | .sideband, some x => decide (x.world = .owner) | _, _ => false
    let bound := match x with | some x => decide (x.pq = 2) | none => false
    if !owner then vendorStatus h .ePermission s
    else if !bound then vendorStatus h .eState s
    else if 256 ≤ r.cmd ∨ 8 < r.opers.length ∨ 3584 < r.data.length then vendorStatus h .eEncoding s
    else if s.mbox.busy ∨ s.auditFull then vendorStatus h .eBusy s
    else
      let keep := s.mbox
      let s := mbPut r.data s
      let s := { s with mbox := { s.mbox with
        sess := h.sess, eq := keep.eq
        oper := (List.range 8).foldl (fun t i => Tab.set 0 t i (r.opers.getD i 0 % 2 ^ 64)) [] } }
      spdmError h 0x42 0 [15, 0xFE, 0, 10] (updSess h (fun x => { x with mbox := true }) (start r.cmd s))) s

/-! ### TDISP (R472) -/

/-- A message of a PCI-SIG protocol in a VENDOR_DEFINED_RESPONSE: 0 for IDE_KM, 1 for TDISP. -/
def pciAnswer (h : SpdmHdr) (proto : Nat) (d : Bytes) (s : State) : State :=
  spdmAnswer h (spdmMsg 0x7E 0 0 (leBytes 2 3 ++ [2] ++ leBytes 2 1 ++ leBytes 2 (d.length + 1) ++ [BitVec.ofNat 8 proto] ++ d)) s

def tdispMsg (typ vf : Nat) (d : Bytes) : Bytes := [0x10, BitVec.ofNat 8 typ, 0, 0] ++ leBytes 4 vf ++ zeros 8 ++ d
def tdispAnswer (h : SpdmHdr) (typ vf : Nat) (d : Bytes) (s : State) : State := pciAnswer h 1 (tdispMsg typ vf d) s
/-- TDISP_ERROR: 0x0004 INVALID_INTERFACE_STATE, 0x0007 UNSUPPORTED_REQUEST, 0x0101 INVALID_INTERFACE, 0x0103
INSUFFICIENT_ENTROPY. -/
def tdispError (h : SpdmHdr) (vf code : Nat) (s : State) : State := tdispAnswer h 0x7F vf (leBytes 4 code ++ zeros 4) s

/-- A TDISP message: in a secured session on the physical-function DOE, for a virtual function. -/
def tdispTake (h : SpdmHdr) (vf : Nat) (f : State → State) (s : State) : State :=
  spdmTake h 3 (some true) 1 (fun s => match h.ch with
    | .doe .pf => if 4096 ≤ vf then tdispError h vf 0x0101 s else f s
    | _ => spdmError h 4 0 [] s) s

def State.tdi (s : State) (vf : Nat) : Tdi := Tab.get {} s.att.tdi vf
def setTdi (vf : Nat) (x : Tdi) (s : State) : State := { s with att := { s.att with tdi := Tab.set {} s.att.tdi vf x } }

def getTdispVersion (h : SpdmHdr) (vf : Nat) (s : State) : State := tdispTake h vf (tdispAnswer h 1 vf [1, 0x10]) s

/-- GET_TDISP_CAPABILITIES: the requests answered (R472). -/
def getTdispCapabilities (h : SpdmHdr) (vf : Nat) (s : State) : State :=
  tdispTake h vf (tdispAnswer h 2 vf (zeros 4 ++ leBytes 16 0xFE ++ leBytes 2 1 ++ zeros 3 ++ [52, 1, 0])) s

/-- LOCK_INTERFACE_REQUEST (R472). -/
def lockInterface (h : SpdmHdr) (vf stream : Nat) (noFw : Bool) (s : State) : State :=
  tdispTake h vf (fun s =>
    let active := s.moor.any (fun p => decide (p.2.vf = some vf ∧ p.2.state = .active))
    if (s.tdi vf).state ≠ .unlocked ∨ !active ∨ s.straps.ideStreams ≤ stream ∨ Tab.get 0 s.att.ideUse stream = 0 then
      tdispError h vf 4 s
    else match drbg 32 s with
      | none => tdispError h vf 0x0103 s
      | some (nonce, s) =>
        tdispAnswer h 3 vf nonce (setTdi vf { state := .locked, nonce := nonce, stream := stream, noFw := noFw } s)) s

/-- The interface report (R472): one MMIO range of 16 KiB, and SIGNER_ID with the mooring number. -/
def State.ifReport (s : State) (vf : Nat) : Bytes :=
  let t := ((s.moor.find? (fun p => decide (p.2.vf = some vf))).map (·.1)).getD 0
  zeros 12 ++ leBytes 4 1 ++ zeros 8 ++ leBytes 4 4 ++ zeros 4 ++ leBytes 4 49 ++ s.signerId ++ [BitVec.ofNat 8 t]

def getInterfaceReport (h : SpdmHdr) (vf : Nat) (s : State) : State :=
  tdispTake h vf (fun s =>
    let d := s.ifReport vf
    match (s.tdi vf).state with
    | .locked | .run => tdispAnswer h 4 vf (leBytes 2 d.length ++ leBytes 2 0 ++ d) s
    | _ => tdispError h vf 4 s) s

def getInterfaceState (h : SpdmHdr) (vf : Nat) (s : State) : State :=
  tdispTake h vf (fun s => tdispAnswer h 5 vf [BitVec.ofNat 8 (s.tdi vf).state.code] s) s

/-- START_INTERFACE_REQUEST (R472). -/
def startInterface (h : SpdmHdr) (vf : Nat) (nonce : Bytes) (s : State) : State :=
  tdispTake h vf (fun s =>
    let x := s.tdi vf
    if x.state = .locked ∧ x.nonce = nonce then tdispAnswer h 6 vf [] (setTdi vf { x with state := .run } s)
    else tdispError h vf 4 s) s

/-- STOP_INTERFACE_REQUEST (R472). -/
def stopInterface (h : SpdmHdr) (vf : Nat) (s : State) : State :=
  tdispTake h vf (fun s =>
    if (s.tdi vf).state = .unlocked then tdispError h vf 4 s
    else tdispAnswer h 7 vf [] (setTdi vf {} s)) s

def tdispUnsupported (h : SpdmHdr) (vf : Nat) (s : State) : State := tdispTake h vf (tdispError h vf 7) s

/-- A TDI whose mooring leaves ACTIVE, or whose instance is fenced, is in ERROR (R472). -/
def tdiPump (s : State) : State :=
  let bad := s.att.tdi.filter (fun p => decide (p.2.state = .locked ∨ p.2.state = .run) &&
    (!s.normal || s.domState 32 ≠ 0 || !s.moor.any (fun m => decide (m.2.vf = some p.1 ∧ m.2.state = .active))))
  bad.foldl (fun s p => tdiError p.1 s) s

/-! ### IDE key management (R96 to R98, R474) -/

/-- An IDE_KM message: only in an owner-world session, on either channel. -/
def ideTake (h : SpdmHdr) (f : State → State) (s : State) : State :=
  spdmTake h 3 (some true) 1 (fun s => match s.spdmSess h with
    | some x => if x.world = .owner then f s else spdmError h 4 0 [] s
    | none => s) s

/-- KP_ACK and K_GOSTOP_ACK. -/
def kpAck (h : SpdmHdr) (k : IdeKm) (st : Nat) (s : State) : State :=
  pciAnswer h 0 [3, 0, 0, BitVec.ofNat 8 k.stream, BitVec.ofNat 8 st,
    BitVec.ofNat 8 (fld 0 1 k.kset + fld 1 1 k.dir + fld 4 4 k.sub), BitVec.ofNat 8 k.port] s
def goStopAck (h : SpdmHdr) (k : IdeKm) (s : State) : State :=
  pciAnswer h 0 [6, 0, 0, BitVec.ofNat 8 k.stream, 0,
    BitVec.ofNat 8 (fld 0 1 k.kset + fld 1 1 k.dir + fld 4 4 k.sub), BitVec.ofNat 8 k.port] s

/-- QUERY: what R97 supports on the port named. -/
def ideKmQuery (h : SpdmHdr) (port : Nat) (s : State) : State :=
  ideTake h (fun s =>
    if port ≠ 0 then spdmError h 1 0 [] s
    else pciAnswer h 0 [1, 0, 0, 0, 0, 0, 0, BitVec.ofNat 8 (s.straps.ideStreams - 1)] s) s

/-- Put a key command to the IDE engine, behind those that came before (R474). -/
def idePut (op : Nat) (h : SpdmHdr) (k : IdeKm) (s : State) : State :=
  let s' := { s with att := { s.att with ideQ := s.att.ideQ ++ [{ op := op, km := k, hdr := h }] } }
  if s.att.ideQ.isEmpty then emit (.idek op k) s' else s'

/-- The message names a stream and port of the IDE engine (R474). -/
def ideFits (k : IdeKm) (s : State) : Bool := decide (k.stream < s.straps.ideStreams ∧ k.port = 0)

/-- KEY_PROG (R474). -/
def keyProg (h : SpdmHdr) (k : IdeKm) (s : State) : State :=
  ideTake h (fun s => if ideFits k s then idePut 0 h k s else kpAck h k 2 s) s
def kSet (op : Nat) (h : SpdmHdr) (k : IdeKm) (s : State) : State :=
  ideTake h (fun s => if ideFits k s then idePut op h { k with key := 0, ifv := 0 } s else spdmError h 1 0 [] s) s

/-- IDEK_ACK (R98, R474): the acknowledgement is sent, and the next command goes to the engine. -/
def idekAck (status : Nat) (s : State) : State :=
  match s.att.ideQ with
  | [] => s
  | c :: rest =>
    let s := raiseHm 10 { s with att := { s.att with ideQ := rest } }
    let ok := decide (status = 0)
    let s := if c.op = 0 then
        kpAck c.hdr c.km (if status = 0 then 0 else if status = Status.eEncoding.code then 3 else 4) s
      else goStopAck c.hdr c.km s
    let inUse := decide (Tab.get 0 s.att.ideUse c.km.stream = c.km.kset + 1)
    let s := if c.op = 1 ∧ ok then { s with att := { s.att with ideUse := Tab.set 0 s.att.ideUse c.km.stream (c.km.kset + 1) } }
      else if c.op = 2 ∧ inUse then
        let s := { s with att := { s.att with ideUse := Tab.set 0 s.att.ideUse c.km.stream 0 } }
        s.att.tdi.foldl (fun s p => if p.2.stream = c.km.stream then tdiError p.1 s else s) s
      else s
    match rest with
    | n :: _ => emit (.idek n.op n.km) s
    | [] => s

/-! ### The DOE mailbox (R91) and the sideband's address (R100) -/

/-- DOE_OBJECT (R91): an object that is too long, for an unbound function, or second to one that waits is
discarded with an error pulse. Discovery is answered here; other objects wait for the message they carry. -/
def doeObject (f : Fn) (dw : List Nat) (s : State) : State :=
  let k := chanKey (.doe f)
  let bound := match f with | .pf => true | .vf n => s.moor.any (fun p => decide (p.2.vf = some n))
  let typ := dw.headD 0
  if 4096 < dw.length ∨ !bound ∨ s.att.doeHeld.contains k then emit (.doeErr f) s
  else if typ % 2 ^ 24 = 1 then
    let i := dw.getD 2 0 % 256
    let rsp := leBytes 4 1 ++ leBytes 4 3 ++ leBytes 2 1 ++ [BitVec.ofNat 8 (min i 2), BitVec.ofNat 8 (if i < 2 then i + 1 else 0)]
    emit (.doeRsp f rsp) (raiseHm 7 s)
  else raiseHm 7 { s with att := { s.att with doeHeld := s.att.doeHeld ++ [k] } }

/-- DYNAMIC_ADDRESS_ASSIGNMENT (R100): ENTDAA gives an address; SETDASA takes SB_SADDR. -/
def dynamicAddress (entdaa : Option Nat) (s : State) : State :=
  { s with att := { s.att with sbAddr := some (match entdaa with | some a => a % 128 | none => s.straps.sbSaddr % 128) } }

/-! ### Commands -/

def execGetVersion (h : SpdmHdr) (s : State) : Out := live (getVersion h) s
def execGetCapabilities (h : SpdmHdr) (s : State) : Out := live (getCapabilities h) s
def execNegotiateAlgorithms (h : SpdmHdr) (s : State) : Out := live (negotiateAlgorithms h) s
def execGetDigests (h : SpdmHdr) (s : State) : Out := live (getDigests h) s
def execGetCertificate (h : SpdmHdr) (slot offset length : Nat) (s : State) : Out := live (getCertificate h slot offset length) s
def execChallenge (h : SpdmHdr) (slot : Nat) (nonce : Bytes) (s : State) : Out := live (challenge h slot nonce) s
def execGetMeasurements (h : SpdmHdr) (index : Nat) (nonce : Bytes) (s : State) : Out := live (getMeasurements h index nonce) s
def execKeyExchange (h : SpdmHdr) (r : KexReq) (s : State) : Out := live (keyExchange h r) s
def execFinish (h : SpdmHdr) (verify : Bytes) (s : State) : Out := live (finish h verify) s
def execSpdmHeartbeat (h : SpdmHdr) (s : State) : Out := live (spdmHeartbeat h) s
def execKeyUpdate (h : SpdmHdr) (both : Bool) (s : State) : Out := live (keyUpdate h both) s
def execEndSession (h : SpdmHdr) (s : State) : Out := live (endSession h) s
def execRespondIfReady (h : SpdmHdr) (s : State) : Out := live (respondIfReady h) s
def execUnsupportedRequest (h : SpdmHdr) (code : Nat) (s : State) : Out := live (unsupportedRequest h code) s
def execGetObject (h : SpdmHdr) (r : ObjReq) (s : State) : Out := live (getObject h r) s
def execPqBind (h : SpdmHdr) (ct : Bytes) (s : State) : Out := live (pqBind h ct) s
def execSetOwnerKey (h : SpdmHdr) (hash : Bytes) (s : State) : Out := live (setOwnerKey h hash) s
def execGetTdispVersion (h : SpdmHdr) (vf : Nat) (s : State) : Out := live (getTdispVersion h vf) s
def execGetTdispCapabilities (h : SpdmHdr) (vf : Nat) (s : State) : Out := live (getTdispCapabilities h vf) s
def execLockInterfaceRequest (h : SpdmHdr) (vf stream : Nat) (noFw : Bool) (s : State) : Out := live (lockInterface h vf stream noFw) s
def execGetDeviceInterfaceReport (h : SpdmHdr) (vf : Nat) (s : State) : Out := live (getInterfaceReport h vf) s
def execGetDeviceInterfaceState (h : SpdmHdr) (vf : Nat) (s : State) : Out := live (getInterfaceState h vf) s
def execStartInterfaceRequest (h : SpdmHdr) (vf : Nat) (nonce : Bytes) (s : State) : Out := live (startInterface h vf nonce) s
def execStopInterfaceRequest (h : SpdmHdr) (vf : Nat) (s : State) : Out := live (stopInterface h vf) s
def execTdispUnsupported (h : SpdmHdr) (vf : Nat) (s : State) : Out := live (tdispUnsupported h vf) s
def execIdeKmQuery (h : SpdmHdr) (port : Nat) (s : State) : Out := live (ideKmQuery h port) s
def execKeyProg (h : SpdmHdr) (k : IdeKm) (s : State) : Out := live (keyProg h k) s
def execKSetGo (h : SpdmHdr) (k : IdeKm) (s : State) : Out := live (kSet 1 h k) s
def execKSetStop (h : SpdmHdr) (k : IdeKm) (s : State) : Out := live (kSet 2 h k) s
def execIdekAck (status : Nat) (s : State) : Out := live (idekAck status) s
def execDoeObject (f : Fn) (dw : List Nat) (s : State) : Out := live (doeObject f dw) s
def execDynamicAddressAssignment (entdaa : Option Nat) (s : State) : Out := live (dynamicAddress entdaa) s

end Sys2Proof.Machine
end

