-- ==== Sys2Proof/Machine/Fw.lean ====
section
/-! DEFINITION. Firmware update (R600 to R604), the restart of Prity (R42), and the ends of requests on the
NV and OTP ports (R104, R105, R107, R594). -/

namespace Sys2Proof.Machine

/-! ### Images (R600, R601) -/

/-- A firmware bank: 0 is A, 1 is B. -/
def State.fwBank (s : State) (b : Nat) : FwBank := Tab.get {} s.fw.banks b

/-- Put a firmware bank. -/
def State.setFwBank (s : State) (b : Nat) (x : FwBank) : State :=
  { s with fw := { s.fw with banks := Tab.set {} s.fw.banks b x } }

/-- The standby bank: A while no image runs (R600). -/
def State.standby (s : State) : Nat := if s.fw.run = 0 then 0 else 1 - s.fw.bank

/-- SVN of an image. -/
def imageSvn (d : Bytes) : Nat := (d.getD 5 0).toNat

/-- The format of an image of L bytes (R601): MAGIC, FORMAT, the zero fields and CODE_LEN. -/
def imageFormat (d : Bytes) : Bool :=
  decide (slice 0 4 d = [0x4F, 0x44, 0x46, 0x57] ∧ d.getD 4 0 = 1 ∧ slice 6 2 d = zeros 2 ∧ slice 12 4 d = zeros 4 ∧
    slice 2705 15 d = zeros 15 ∧ slice 7443 749 d = zeros 749 ∧ 8192 + leNat (slice 8 4 d) = d.length)

/-- What the boot ROM asks of an image but for R446 (R447): its keys hash to the vendor key hash, and both
signatures verify over bytes 0 to 2,719 and the code. -/
def State.imageSigned (s : State) (d : Bytes) : Bool :=
  let ec := slice 16 97 d
  let ml := slice 113 2592 d
  let msg := d.take 2720 ++ d.drop 8192
  decide (sha384 (ec ++ ml) = s.otpBytes 0x40 6) && Config.ecVerify ec msg (slice 2720 96 d) &&
    Config.mlVerify ml msg (ascii "ODLAHA FW") (slice 2816 4627 d)

/-- The anti-rollback value c in force (R446). -/
def State.arb (s : State) : Nat := arbValue (s.otpWord 0x48)

/-! ### Restarts of Prity (R42, R454, R603) -/

/-- Every SPDM session ends (R454); what was built for one is dropped. -/
def endSessions (s : State) : State :=
  { s with att := { s.att with
      conns := s.att.conns.map (fun p => (p.1, { p.2 with sess := [] })), report := none, ownerSet := none } }

/-- Prity starts from a bank: the identity of that image is built (R452). -/
def prityBoot (b : Nat) (s : State) : State :=
  let x := s.fwBank b
  buildIdentity { s with fw := { s.fw with bank := b, up := true, svn := x.svn, fwid := sha384 x.data } }

/-- The record and the event of a restart (R42, R524, R592). -/
def restartNote (s : State) : State :=
  raisePrivOpen 32 25 0x22 0 0 (auditLog 5 .ok 0x13 0 0 0xFF s.fw.svn s)

/-- The OTP request under way, where it is a program: the macro finishes it (R107). -/
def otpCut (l : List OtpReq) : List OtpReq :=
  (l.take 1).filter (fun r => r.prog)

/-- The running mailbox command ends with E_ABORTED (R42). Prity's own steps of it end with it: programming of
OTP words, the steps of an admission (R484). Work handed to the engines goes on. -/
def mbAbort (s : State) : State :=
  if !s.mbox.busy then s
  else
    let code := s.mbox.code
    let s := mbEnd .eAborted 0 s
    if code = 0x60 then
      let s := { s with lc := { s.lc with prog := [], erasing := false }, audit := { s.audit with otp := otpCut s.audit.otp } }
      { s with mbox := { s.mbox with data := [] } }
    else if code = 0x18 then { s with audit := { s.audit with otp := otpCut s.audit.otp } }
    else if code = 0x20 then
      { s with ops := s.ops.filter (fun p => match p.2.body with | .admitFill .. => false | _ => true) }
    else s

/-- PRITY_RESTART (R39, R42): Prity starts again from the running image; an ACTIVATE under way goes on (R603).
`ecc` is true where a double-bit error of Prity's memories is the reason, which is a fatal event (R39). -/
def prityRestart (ecc : Bool) (s : State) : State :=
  if !s.fw.up && !s.fw.activating then s
  else
    let s := if ecc then raisePrivOpen 32 25 0x20 0 0 s else s
    let s := if s.fw.activating then s else mbAbort s
    let s := restartNote (endSessions s)
    if s.fw.activating then s else prityBoot s.fw.bank s

/-! ### FW_UPDATE (R602, R603) -/

/-- A stage that is refused; R337 logs the refusals that it names. -/
def fwNo (st : Status) (s : State) : MbAns :=
  (some (st, 0), if st = .eState ∨ st = .eEncoding then mbRefuse 0x18 st s else s)

/-- A stage that ends OK, logged with the running image's SVN (R592). -/
def fwOk (stage : Nat) (s : State) : MbAns :=
  (some (.ok, 0), auditLog 5 .ok s.mbMaster 1 0 stage s.fw.svn s)

/-- Run a stage of FW_UPDATE: the command when OPER0 names another stage is another row. -/
def fwStage (stage : Nat) (f : State → MbAns) (s : State) : State :=
  let o := s.oper 0
  if min 6 (o % 8) ≠ stage then s
  else mbRun 0x18 (decide (7 ≤ o)) [1, 2, 3, 4, 5] true f s

/-- BEGIN. -/
def fwBegin (s : State) : State :=
  fwStage 0 (fun s =>
    let l := s.oper 1
    if l % 8 ≠ 0 ∨ l < 8193 ∨ 1048576 < l then fwNo .eEncoding s
    else if s.fw.run = 1 then fwNo .eState s
    else fwOk 0 (s.setFwBank s.standby { state := .loading, len := l })) s

/-- DATA. -/
def fwData (s : State) : State :=
  fwStage 1 (fun s =>
    let x := s.fwBank s.standby
    let n := s.mbox.dataLen
    if x.state ≠ .loading then fwNo .eState s
    else if s.oper 1 ≠ x.data.length ∨ x.len < s.oper 1 + n then fwNo .eEncoding s
    else fwOk 1 (s.setFwBank s.standby { x with data := x.data ++ s.mbData 0 n })) s

/-- VERIFY (R446, R447, R601). -/
def fwVerify (s : State) : State :=
  fwStage 2 (fun s =>
    let x := s.fwBank s.standby
    let svn := imageSvn x.data
    let st := firstFail .ok
      [(decide (x.state ≠ .loading ∨ x.data.length < x.len), .eState), (!s.imageSigned x.data, .eAuth),
       (decide (64 < svn), .eCtrExhausted), (decide (svn < s.arb), .eAuth), (!imageFormat x.data, .eEncoding)]
    if st ≠ .ok then fwNo st s
    else fwOk 2 (s.setFwBank s.standby { x with state := .verified, svn := svn })) s

/-- A TDI locked with NO_FW_UPDATE is CONFIG_LOCKED or RUN (R472). -/
def State.fwHeld (s : State) : Bool :=
  s.att.tdi.any (fun p => p.2.noFw && decide (p.2.state = .locked ∨ p.2.state = .run))

/-- ACTIVATE (R603): Prity stops, the banks swap, and the command waits until the new image reports ready. The
SVN of the image is checked again, as at every stage (R446). After a failed MBIST Prity does not start (R584). -/
def fwActivate (s : State) : State :=
  fwStage 3 (fun s =>
    let b := s.standby
    let x := s.fwBank b
    if x.state ≠ .verified ∨ s.fwHeld ∨ s.fw.romOnly then fwNo .eState s
    else if x.svn < s.arb then fwNo .eAuth s
    else
      let s := if s.fw.run ≠ 0 then endSessions s else s
      (none, { s with fw := { s.fw with
        activating := true, up := false, prevRun := s.fw.run, run := 1, bank := b, svn := x.svn } })) s

/-- IMAGE_READY (R603): the new image reports ready, and runs as TRIAL. -/
def imageReady (s : State) : State :=
  if !s.fw.activating then s
  else
    let s := prityBoot s.fw.bank { s with fw := { s.fw with activating := false } }
    let s := if s.fw.prevRun ≠ 0 then restartNote s else s
    mbEnd .ok 0 (fwOk 3 s).2

/-- ACTIVATE_TIMEOUT (R603): 40 ms have passed; the boot ROM restarts the previous image, or serves the mailbox
where there is none. -/
def activateTimeout (s : State) : State :=
  if !s.fw.activating then s
  else
    let s := { s with fw := { s.fw with activating := false, run := s.fw.prevRun } }
    let s :=
      if s.fw.run = 0 then { s with fw := { s.fw with bank := 0, svn := 0, fwid := [] } }
      else restartNote (prityBoot (1 - s.fw.bank) s)
    mbEnd .eIntegrity 0 s

/-- The running image becomes COMMITTED. -/
def fwCommitted (s : State) : State := { s with fw := { s.fw with run := 2 } }

/-- COMMIT (R446): bits c to SVN - 1 of OTP word 0x48 are set in one program, and read back. -/
def fwCommit (s : State) : State :=
  fwStage 4 (fun s =>
    let c := s.arb
    if s.fw.run ≠ 1 then fwNo .eState s
    else if s.fw.svn ≤ c then fwOk 4 (fwCommitted s)
    else
      let w := 2 ^ s.fw.svn - 2 ^ c
      let s := otpPush { prog := true, addr := 0x48, data := w, use := .arb } s
      (none, otpPush { prog := false, addr := 0x48, data := 0, use := .arbBack (s.otpWord 0x48 ||| w) } s)) s

/-- Word 0x48 has been read back. -/
def fwCommitBack (ok : Bool) (s : State) : State :=
  if ¬(s.mbox.busy = true ∧ s.mbox.code = 0x18) then s
  else if ok then mbEnd .ok 0 (fwOk 4 (fwCommitted s)).2
  else mbEnd .eIntegrity 0 s

/-- REVERT: Prity restarts from the standby bank, and the TRIAL image becomes standby. -/
def fwRevert (s : State) : State :=
  fwStage 5 (fun s =>
    let b := s.standby
    let x := s.fwBank b
    if s.fw.run ≠ 1 ∨ x.state ≠ .verified ∨ x.svn < s.arb then fwNo .eState s
    else
      let s := prityBoot b (endSessions { s with fw := { s.fw with run := s.fw.prevRun, prevRun := 1 } })
      fwOk 5 (restartNote s)) s

/-- ABORT; STAGE 7 names no stage. -/
def fwAbort (s : State) : State :=
  fwStage 6 (fun s =>
    if (s.fwBank s.standby).state = .empty then fwNo .eState s
    else fwOk 6 (s.setFwBank s.standby {})) s

def execFwBegin (s : State) : Out := live fwBegin s
def execFwData (s : State) : Out := live fwData s
def execFwVerify (s : State) : Out := live fwVerify s
def execFwActivate (s : State) : Out := live fwActivate s
def execFwCommit (s : State) : Out := live fwCommit s
def execFwRevert (s : State) : Out := live fwRevert s
def execFwAbort (s : State) : Out := live fwAbort s
def execImageReady (s : State) : Out := live imageReady s
def execActivateTimeout (s : State) : Out := live activateTimeout s

/-- PRITY_RESTART. -/
def execPrityRestart (ecc : Bool) (s : State) : Out := live (prityRestart ecc) s

/-- FW_UPDATE by its STAGE. -/
def fwUpdate (s : State) : State :=
  match s.oper 0 % 8 with
  | 0 => fwBegin s
  | 1 => fwData s
  | 2 => fwVerify s
  | 3 => fwActivate s
  | 4 => fwCommit s
  | 5 => fwRevert s
  | _ => fwAbort s

/-! ### The NV port (R104, R105, R594) -/

/-- A write that ends without error. -/
def nvOk (r : NvReq) (s : State) : State :=
  match r.use with
  | .wear i v host =>
    nvPush { wr := true, addr := i, data := v, use := .preg i v host }
      { s with audit := { s.audit with wear := Tab.set 0 s.audit.wear i (min 100000 r.data) } }
  | .preg i v host =>
    let old := Tab.get 0 s.audit.preg i
    let s := { s with audit := { s.audit with preg := Tab.set 0 s.audit.preg i v } }
    let s := if old ≠ v then
        let prity := decide (i < 32)
        auditLog 1 .ok (if host then (if prity then 0 else 0x10) else 0x13) (if host && !prity then 1 else 0) 0
          (auditBase + 0x1000 + 8 * i) v s
      else s
    if host then pregStatus i .ok s
    else match s.att.ownerSet with
      | some h => if i = 7 then vendorStatus h .ok { s with att := { s.att with ownerSet := none } } else eraseOn i v s
      | none => eraseOn i v s
  | .fill => fillNext s
  | .audit data w =>
    if w = 0 then { s with audit := { s.audit with buf := s.audit.buf.filter (· ≠ data) } } else s
  | .checkpoint => s

/-- A write that ends with NV_RSP_ERR (R105): it is logged, and what asked for it fails. -/
def nvErr (r : NvReq) (s : State) : State :=
  let s := auditLog 6 .eIntegrity 0x13 0 0 r.addr 0 s
  let reg := fun (i : Nat) (host : Bool) (s : State) =>
    if host then pregStatus i .eIntegrity s
    else match s.att.ownerSet with
      | some h =>
        if 2 ≤ i ∧ i < 8 then
          vendorStatus h .eIntegrity { s with
            att := { s.att with ownerSet := none }
            audit := { s.audit with nv := s.audit.nv.filter (fun r => match r.use with
              | .wear j _ false => decide (j < 2 ∨ 8 ≤ j)
              | _ => true) } }
        else eraseFail s
      | none => eraseFail s
  match r.use with
  | .wear i _ host => reg i host s
  | .preg i _ host => reg i host s
  | .fill => fillNext s
  | .audit data w =>
    if w = 0 then { s with audit := { s.audit with buf := s.audit.buf.filter (· ≠ data) } } else s
  | .checkpoint => s

/-- NV_RESPONSE: the request under way ends, and the next one goes out. Reads are made by no part of the running
block, so the data of a response are not used. -/
def nvResponse (_data : Nat) (err : Bool) (s : State) : State :=
  match s.audit.nv with
  | [] => s
  | r :: rest =>
    let s := { s with audit := { s.audit with nv := rest } }
    let s := match rest with
      | [] => s
      | x :: _ => emit (.nvReq x.wr x.addr x.data) s
    raiseHm 5 (if err then nvErr r s else nvOk r s)

/-- NV_RESPONSE. -/
def execNvResponse (data : Nat) (err : Bool) (s : State) : Out := live (nvResponse data err) s

/-! ### The OTP port (R107) -/

/-- OTP_RESPONSE: the request under way ends. -/
def otpResponse (data : Nat) (s : State) : State :=
  match s.audit.otp with
  | [] => s
  | r :: rest =>
    let s := { s with audit := { s.audit with otp := rest } }
    let s := match rest with
      | [] => s
      | x :: _ => emit (.otpReq x.prog x.addr x.data) s
    let put := fun (v : Nat) (s : State) => { s with lc := { s.lc with otp := Tab.set 0 s.lc.otp r.addr (v % 2 ^ 64) } }
    raiseHm 4 (match r.use with
      | .program => put (s.otpWord r.addr ||| r.data) s
      | .back want last => lcBack (decide (data = want)) last (put data s)
      | .arb => put (s.otpWord r.addr ||| r.data) s
      | .arbBack want => fwCommitBack (decide (data = want)) (put data s))

end Sys2Proof.Machine
end

