-- ==== Sys2Proof/Machine/Start.lean ====
section
/-! DEFINITION. Start-up and islands (R43, R114 to R121, R417 to R420, R584, R596, R598): the release of the
power-on reset, the end of Prity's start-up, power, isolation and clocks of islands, scan. -/

namespace Sys2Proof.Machine

/-! ### What the stores hold at a start -/

/-- The words of the OTP as read at a start (R417). -/
def otpTab (l : List Nat) : Tab Nat :=
  ((List.range 128).zip l).foldl (fun t p => Tab.set 0 t p.1 (p.2 % 2 ^ 64)) []

/-- The words of the NV store (R102). -/
def nvTab (l : List (Nat × Nat)) : Tab Nat :=
  l.foldl (fun t p => if p.1 < 2 ^ 18 then Tab.set 0 t p.1 (p.2 % 2 ^ 64) else t) []

/-- Persistent registers or wear counters: 256 words from an index (R102, R598). -/
def nvRegs (nv : Tab Nat) (first : Nat) : Tab Nat :=
  (List.range 256).foldl (fun t i => Tab.set 0 t i (Tab.get 0 nv (first + i))) []

/-- A strap set that fails R115. -/
def strapsBad (p : Straps) : Bool :=
  decide (p.dieCount < 2 ∨ 8 < p.dieCount ∨ p.dieCount ≤ p.dieId ∨ 8 < p.ideStreams)

/-! ### The root secret (R418 to R420) -/

/-- First word of a root slot. -/
def rootWord (slot : Nat) : Nat := 0x10 + 9 * slot

/-- A root slot is valid; it is blank. -/
def rootValid (otp : Nat → Nat) (slot : Nat) : Bool :=
  let a := rootWord slot
  decide (otp (a + 8) = 0x9669966996699669) &&
    (List.range 4).all (fun i => decide (otp (a + i) ^^^ otp (a + 4 + i) = 2 ^ 64 - 1))
def rootBlank (otp : Nat → Nat) (slot : Nat) : Bool :=
  (List.range 9).all (fun i => decide (otp (rootWord slot + i) = 0))

/-- Put a programmed OTP word, and the request that programs it. -/
def otpProgram (i v : Nat) (s : State) : State :=
  let s := emit (.otpReq true i v) s
  { s with lc := { s.lc with otp := Tab.set 0 s.lc.otp i (s.otpWord i ||| v) } }

/-- Program a root slot with a fresh secret, and its marker once the read-back matches (R419): true where the slot
is valid. None where the DRBG does not serve. -/
def rootTry (slot : Nat) (good : Bool) (s : State) : Option (Bool × State) :=
  match if s.drbgReady then reseed s else none with
  | none => none
  | some s => match drbg 32 s with
    | none => none
    | some (sec, s) =>
      let a := rootWord slot
      let w := fun (i : Nat) => beNat (slice (8 * i) 8 sec)
      let s := (List.range 4).foldl (fun s i => otpProgram (a + i) (w i) s) s
      let s := (List.range 4).foldl (fun s i => otpProgram (a + 4 + i) (2 ^ 64 - 1 - w i) s) s
      let s := (List.range 8).foldl (fun s i => emit (.otpReq false (a + i) 0) s) s
      if good then some (true, otpProgram (a + 8) 0x9669966996699669 s) else some (false, s)

/-- Generate the root secret at a start in PROVISION with no valid slot (R419): one attempt in the first blank
slot, and one more in slot 1. -/
def rootGenerate (good : List Bool) (s : State) : State :=
  let blank := fun (i : Nat) (s : State) => rootBlank s.otpWord i
  let go := fun (slot : Nat) (ok : Bool) (s : State) => (rootTry slot ok s).getD (false, s)
  if blank 0 s then
    let r := go 0 (good.getD 0 true) s
    if r.1 ∨ !blank 1 r.2 then r.2 else (go 1 (good.getD 1 true) r.2).2
  else if blank 1 s then (go 1 (good.getD 0 true) s).2
  else s

/-- The states in which the root is read (R417). -/
def rootRead (lc : Nat) : Bool := decide (2 ≤ lc ∧ lc ≤ 4)

/-- ROOT_STATE and the secret in use (R418, R420). -/
def rootUse (s : State) : State :=
  let put := fun (st slot : Nat) => { s with lc := { s.lc with rootState := st, root := s.otpBytes (rootWord slot) 4 } }
  if !rootRead s.lcState then s
  else if rootValid s.otpWord 0 then put 1 0
  else if rootValid s.otpWord 1 then put 2 1
  else { s with lc := { s.lc with rootState := 3 } }

/-! ### The audit ring (R593, R594, R596) -/

/-- A checkpoint slot's SEQ and CHAIN, where it is valid: its SEQ belongs to the slot. -/
def checkpointAt (nv : Tab Nat) (c : Nat) : Option (Nat × Bytes) :=
  let w := fun (i : Nat) => Tab.get 0 nv (0x200 + 4 * c + i)
  if w 0 ≠ 0 ∧ w 0 % 1024 = 0 ∧ w 0 / 1024 % 128 = c then some (w 0, leBytes 8 (w 1) ++ leBytes 8 (w 2) ++ leBytes 8 (w 3))
  else none

/-- The newest valid checkpoint; none counts as SEQ 0, which chains from 24 zero bytes. -/
def newestCheckpoint (nv : Tab Nat) : Nat × Bytes :=
  ((List.range 128).filterMap (checkpointAt nv)).foldl (fun a x => if a.1 < x.1 then x else a) (0, zeros 24)

/-- Follow the consecutive records after a SEQ, and check their chain: the head's SEQ and CHAIN, and the SEQ at
which the chain first failed. -/
def auditScan (key : Bytes) (nv : Tab Nat) : Nat → Nat → Bytes → Option Nat → Nat × Bytes × Option Nat
  | 0, seq, chain, bad => (seq, chain, bad)
  | n + 1, seq, chain, bad =>
    let slot := 0x20000 + seq % 16384 * 8
    if Tab.get 0 nv slot ≠ seq + 1 then (seq, chain, bad)
    else
      let r := ((List.range 8).map (fun i => leBytes 8 (Tab.get 0 nv (slot + i)))).flatten
      let ok := decide (kmac key (chain ++ r.take 40) 24 "ODLAHA ACHAIN" = r.drop 40)
      auditScan key nv n (seq + 1) (r.drop 40) (if ok then bad else bad.or (some (seq + 1)))

/-- The audit ring at a start: its key, its head, and a record of a break in its chain. -/
def auditStart (nv : Tab Nat) (s : State) : State :=
  let key := if s.rootOk then kdf s.lc.root 4 [] else zeros 32
  let c := newestCheckpoint nv
  let r := auditScan key nv 16384 c.1 c.2 none
  let s := { s with audit := { s.audit with
    key := key, unkeyed := !s.rootOk, headSeq := r.1, chain := r.2.1, chainErr := r.2.2.isSome } }
  match r.2.2 with
  | none => s
  | some bad => auditLog 7 .eIntegrity 0x13 0 0 0 bad s

/-! ### Start-up -/

/-- The data-path islands' domains are FENCED: their release is the owner's (R570). -/
def fenceHeld (p : Nat → Bool) (s : State) : State :=
  s.dataIslands.foldl (fun s i => if p i then s.setDom i { state := .fenced } else s) s

/-- RELEASE_OF_PORST_N_HM (R114 to R117): the straps are sampled, the OTP and NV words read, the gate opened; MBIST
runs, the entropy source starts, a root secret is generated where R419 asks for one, and the boot ROM serves.
Whatever ran before the reset is gone; the timebase is outside the block. -/
def releaseOfPorst (p : StartInput) (s : State) : State :=
  let nv := nvTab p.nv
  let otp := otpTab p.otp
  let lc := lcRead (Tab.get 0 otp)
  let intr := lc.intr.getD (0, 0, 0)
  let on : Island := { powered := true, clocked := true, fenced := false }
  let s : State :=
    { State.reset with
      pending := s.pending, sent := s.sent, time := s.time, freeIdx := s.freeIdx, mask := s.mask
      power := .on, straps := p.straps, strapFault := strapsBad p.straps
      keys := { gate := true, rbFail := s.keys.rbFail }
      lc := { otp := otp, state := lc.state, recoverable := lc.intr.isSome, intrWord := intr.1, intrTarget := intr.2.1 }
      audit := { preg := nvRegs nv 0, wear := nvRegs nv 0x100 } }
  let s := s.setIsland 25 { on with bistFail := bit1 0 p.mbistFail }
  let s := s.setIsland 26 { on with bistFail := bit1 1 p.mbistFail }
  let s := p.samples.foldl (fun s b => entropySample b s) s
  let s := if s.lcState = 2 ∧ !rootValid s.otpWord 0 ∧ !rootValid s.otpWord 1 then rootGenerate p.rootReadback s else s
  let s := auditStart nv (rootUse s)
  let s : State := if s.lcState = 7 then raisePrivOpen 33 25 0x29 0 (b2n s.lc.recoverable) s else s
  if s.bistFail ≠ 0 then enterSafe (fenceHeld (fun _ => true) { s with fw := { s.fw with romOnly := true } }) else s

/-- RELEASE_OF_PORST_N_HM. -/
def execReleaseOfPorstNHm (p : StartInput) (s : State) : Out := .next (releaseOfPorst p s)

/-- DATA_PATH_ISLAND_RELEASE (R117, step 3): FENCED stays 1. -/
def dataPathIslandRelease (i : Nat) (s : State) : State :=
  if 25 ≤ i ∨ !s.hasIsland i then s else s.updIsland i (fun x => { x with powered := true, clocked := true })

/-- DATA_PATH_ISLAND_RELEASE. -/
def execDataPathIslandRelease (island : Nat) (s : State) : Out := live (dataPathIslandRelease island) s

/-- Prity makes the scrub key from the DRBG, in the lowest EMPTY berth, vendor world, for Tide alone (R192). The manual
gives its LCMASK no value (DESIGN CHOICE 37); where the DRBG does not serve there is none. -/
def makeScrubKey (s : State) : State :=
  match s.freeBerth, drbg 32 s with
  | some i, some (k, s) =>
    let r := berthStep i (fillBerth i k (2 ^ mTide) 0 0 0x7F 0) s
    if r.1 then { r.2 with tide := { r.2.tide with scrubBerth := i } } else r.2
  | _, _ => s

/-- PRITY_STARTUP_DONE (R117, step 4; R192, R582, R584): Prity makes the scrub key; every data-path island that is present, clocked and powered is
tested, `fail` says which of them fail. Where none does, their FENCED outputs fall and the instance is NORMAL; a
strap fault keeps it in keeper mode (R115). -/
def prityStartupDone (fail : Nat) (s : State) : State :=
  if !s.fw.up ∨ s.fw.romOnly ∨ s.mode ≠ .starting then s
  else
    let s := makeScrubKey s
    let on := fun (i : Nat) => s.runs i
    let s := s.dataIslands.foldl (fun (s : State) i =>
      if on i then s.updIsland i (fun x => { x with bistFail := bit1 i fail }) else s) s
    let s : State := { s with fw := { s.fw with started := true } }
    if s.bistFail ≠ 0 then enterSafe (fenceHeld (fun _ => true) s)
    else if s.strapFault then fenceHeld (fun _ => true) { s with mode := .keeper }
    else
      let s := fenceHeld (fun i => !on i) { s with mode := .normal }
      s.dataIslands.foldl (fun s i => if on i then s.updIsland i (fun x => { x with fenced := false }) else s) s

/-- PRITY_STARTUP_DONE. -/
def execPrityStartupDone (bistFail : Nat) (s : State) : Out := live (prityStartupDone bistFail) s

/-! ### Islands (R31, R32, R43, R118) -/

/-- Power or clock of a fenced island is gone; the instance enters keeper mode (R43). The manual names no CAUSE for the
dump that follows: a free value. -/
def islandPowerRemoval (i : Nat) (s : State) : State :=
  let s := s.updIsland i (fun x => { x with powered := false, clocked := false })
  if s.mode = .normal then
    let f := s.free
    keeperEnter 32 (f.1 % 256) f.2
  else s

/-- HARBOURMASTER_POWER_REMOVAL (R9, R43): nothing runs. -/
def execHarbourmasterPowerRemoval (s : State) : Out := live (fun s => { s with power := .off }) s

/-- ISLAND_ISOLATION (R31, R118): only a fenced island may be isolated. -/
def execIslandIsolation (island : Nat) (iso : Bool) (s : State) : Out :=
  if s.power = .on ∧ s.hasIsland island = true ∧ island < 27 then
    if iso = true ∧ (s.getIsland island).fenced = false then .fault (.islandNotFenced island)
    else .next (s.updIsland island (fun x => { x with iso := iso }))
  else .next s

/-- ISLAND_CLOCK_THROTTLE (R32, R275): Prity sets the clock of a 1.6 GHz island, and the power cap. -/
def islandClockThrottle (i setting : Nat) (cap : Option Nat) (s : State) : State :=
  if !s.fw.up then s
  else
    let s := if i < 25 ∧ s.hasIsland i = true ∧ setting < 16 ∧ (s.getIsland i).clk ≠ setting then
        bump (soundBase + 0x210) (s.updIsland i (fun x => { x with clk := setting }))
      else s
    match cap with
    | none => s
    | some c =>
      if c % 2 ^ 16 = s.sound.pwrCap then s
      else bump (soundBase + 0x220) { s with sound := { s.sound with pwrCap := c % 2 ^ 16 } }

/-- ISLAND_CLOCK_THROTTLE. -/
def execIslandClockThrottle (island setting : Nat) (cap : Option Nat) (s : State) : Out :=
  live (islandClockThrottle island setting cap) s

/-! ### DFT port (R120 to R122) -/

/-- DFT_SCAN_REQ (R120): the secrets are cleared and scan may begin, or the request is refused. -/
def dftScanReq (s : State) : State :=
  if s.auditFull ∨ s.fault.scanAck then s
  else if s.lcState = 0 ∨ s.lcState = 1 ∨ s.lcState = 5 then
    let s := s.keys.berths.foldl (fun s p => emptyBerth p.1 s) s
    { s with
      keys := { s.keys with tagKey := [], kdfCtx := [], ctIn := [], gate := false }
      lc := { s.lc with root := [] }
      ent := { s.ent with drbgKey := [], drbgV := [], inst := false, pool := [], raw := [] }
      att := { s.att with store := {} }
      audit := { s.audit with key := [], unkeyed := true }
      fault := { s.fault with scanAck := true } }
  else
    let s := bump (faultBase + 0x320) (auditLog 2 .eLc 0x13 0 0 0 0 s)
    raisePriv 34 (Status.code .eLc) 25 0x2D 0 0 s

/-- DFT_SCAN_REQ. -/
def execDftScanReq (s : State) : Out := live dftScanReq s

/-- DFT_BIST_START (R122). -/
def execDftBistStart (island : Nat) (s : State) : Out := live (dftBistStart island) s

/-- BIST_RUN (R583). -/
def execBistRun (s : State) : Out := live bistRun s

/-- BIST_COMPLETE (R581 to R584). -/
def execBistComplete (island : Nat) (pass : Bool) (s : State) : Out := live (bistComplete island pass) s

/-! ### Time (R112, R539) -/

/-- CORE_TIMER_EXPIRY (R539): per-processor source 0 of the core. -/
def execCoreTimerExpiry (core : Nat) (s : State) : Out :=
  live (fun s => if core < 4 then setHmPend core 0 s else s) s

/-- TIMEBASE_BACKWARD (R112): the block keeps its last value, and counts. -/
def execTimebaseBackward (ns : Nat) (s : State) : Out :=
  live (fun s => if ns < s.now then { s with sound := { s.sound with tbBack := min max64 (s.sound.tbBack + 1) } } else s) s

end Sys2Proof.Machine
end

