-- ==== Sys2Proof/Machine/Settle.lean ====
section
/-! DEFINITION. What follows by itself: lines of the block's own work that have come back, operations that have
ended, and whatever waited for them. A command whose effect can bring such work forward is followed by
`settle`. -/

namespace Sys2Proof.Machine

/-! ### Lines that have come back (R25) -/

/-- Is an operation a work item's own, so that its bytes count for its context (R282)? -/
def Op.work (o : Op) : Bool :=
  match o.own with
  | .queue _ _ _ _ => true
  | .strand _ _ _ => true
  | _ => false

/-- A line of an operation has ended with a status other than OK. -/
def opLineFail (id : Nat) (r : RangeIo) (st : Status) (s : State) : State :=
  let op := s.getOp id
  let quit (s : State) : State := s.updOp id (fun o => { o with io := none })
  match op.body with
  | .copy _ _ _ _ _ => finishOp id st op.res 0 s
  | .allocZero addr size _ _ _ => allocZeroFail id addr size st s
  | .admitFill t _ _ => admFillFail id t s
  | .sealLoad _ => sealBack id st r s
  | .unwrap _ _ => unwrapBack id st r s
  | .tgtRecord _ _ => recordRead' id st [] s
  | .recordWrite => s.dropOp id
  | .get _ _ _ => writesNext id (quit (noteSt id st s))
  | .recv _ _ _ _ _ => writesNext id (quit (noteSt id st s))
  | .put _ _ _ _ _ _ => putNext id (quit (noteSt id st s))
  | .send _ _ _ _ => sendNext id (quit (noteSt id st s))
  | .tgtWrite => finishOp id st r.pos 0 s
  | _ => finishOp id st 0 0 s

/-- A range of an operation has been transferred whole. -/
def opRangeDone (id : Nat) (r : RangeIo) (prior : Nat) (s : State) : State :=
  let s := s.updOp id (fun o => { o with io := none })
  let op := s.getOp id
  match op.body with
  | .copy quay src dst len writing => copyStep id quay src dst len writing r s
  | .allocZero addr size _ _ _ => allocZeroStep id addr size s
  | .admitFill t addr size => admFillNext id t addr size s
  | .ld _ => finishOp id .ok (leNat r.buf) 0 s
  | .put _ _ _ _ _ _ => putLoaded id r.buf s
  | .send _ _ _ _ => sendLoaded id r.buf s
  | .get _ _ _ => writesNext id s
  | .recv _ _ _ _ _ => writesNext id s
  | .tgtWrite => finishOp id .ok r.len 0 s
  | .tgtRead => (finishOp id .ok 0 0 s).updOp id (fun o => { o with io := some r })
  | .tgtAtom aop typ off x c _ => finishOp id .ok 0 0 (s.setOp id { op with body := .tgtAtom aop typ off x c prior })
  | .tgtPoolRead _ _ _ => poolPart id r.buf s
  | .tgtPoolWrite _ _ => poolPart id r.buf s
  | .tgtRecord _ _ => recordRead' id .ok r.buf s
  | .recordWrite => s.dropOp id
  | _ => finishOp id .ok op.res op.handle s

/-- A line of an operation has come back. -/
def opLine (id : Nat) (d : LineDone) (s : State) : State :=
  let op := s.getOp id
  match op.io with
  | none => s
  | some r =>
    if !s.hasOp id ∨ op.fin then s
    else if d.st ≠ .ok then opLineFail id r d.st s
    else
      let s := if op.work then ctxBytes op.ten op.ctx r.piece.2.2 s else s
      let r := r.took d.data
      match op.body with
      | .sealLoad _ => sealBack id .ok r s
      | .unwrap _ _ => unwrapBack id .ok r s
      | _ =>
        if r.pos < r.len then
          submitPiece (.op id) r op.ten op.ctx false (s.updOp id (fun o => { o with io := some r }))
        else opRangeDone id r d.prior s

/-- A line of the block's own work has come back. -/
def lineDone (d : LineDone) (s : State) : State :=
  match d.task with
  | .op id => opLine id d s
  | .ring q => ringBack q d.st d.data s
  | .ifetch q id => s.updQuay q (fun y => { y with
      ifetch := y.ifetch.map (fun f => if f.id = id then { f with back := some (d.st, d.data) } else f) })
  | .operand n k serial => operandLine n k serial d.st d.data s
  | .store n k serial => storeLine n k serial d.st s
  | .trace _ => s
  | .dump lead which => dumpBack lead which d.st s
  | .turn n slot => turnEnd n slot d.prior s

/-- Hand on the lines that have come back, oldest first; the first argument bounds them. -/
def linesDone : Nat → State → State
  | 0, s => s
  | n + 1, s =>
    match s.done with
    | [] => s
    | d :: t => linesDone n (lineDone d { s with done := t })

/-! ### Operations that have ended -/

/-- An ended operation's owner hears of it. -/
def opEnded (id : Nat) (s : State) : State :=
  let op := s.getOp id
  if !op.fin then s
  else match op.own with
    | .queue _ _ _ _ => queueEnd id s
    | .strand _ _ _ => strandOpEnd id s
    | .target _ _ _ => targetEnd id s
    | .allocDb t => allocDbEnd id t s
    | .block => match op.body with
      | .poolReq _ _ _ _ => poolEnd id s
      | _ => s.dropOp id

/-- Every ended operation, in the order in which they started. -/
def opsEnded (s : State) : State :=
  (s.ops.filter (fun p => p.2.fin)).foldl (fun s p => opEnded p.1 s) s

/-! ### What waited -/

/-- What an operation waits for, tested again. -/
def opPump (id : Nat) (s : State) : State :=
  let op := s.getOp id
  if op.fin ∨ !s.hasOp id then s
  else
    let s := if op.begun then s else beginOp id s
    match op.body with
    | .wait _ _ => waitGo id s
    | .sealLoad _ => sealPump id s
    | .tgtSignal _ _ _ => signalApply id s
    | .retire target n => if (s.getCtx op.ten target).active = 0 then retireEnd id op.ten target n s else s
    | _ => s

/-- What a strand waits for, tested again. -/
def strandPump (q k : Nat) (s : State) : State :=
  strandDrained q k (strandFetch q k (strandWaits q k (strandResume q k s)))

/-- The first slot of a trace ring's open group, and its records (R591). -/
def State.traceGroup (s : State) (ring : Nat) : Nat × List Bytes :=
  let g := Tab.get [] s.sound.groups ring
  let m := s.getMoor ring
  let size := if ring = 256 then 2 ^ s.sound.otSize else m.adm.traceKib * 32
  let tail := if ring = 256 then s.sound.otTail else m.win.trTail
  ((tail + size - g.length) % size, g)

/-- Write the records of a trace ring's open group that stand in its first line: a full line, or a part of one
(R591). -/
def traceFlush (ring : Nat) (s : State) : State :=
  let g := s.traceGroup ring
  let n := min g.2.length (4 - g.1 % 4)
  if n = 0 then s
  else
    let a := (s.getMoor ring).adm
    let base := if ring = 256 then s.sound.otBase else a.metaBase + a.offTrace
    let ten := if ring = 256 then 256 else ring
    let r : RangeIo := { wr := true, addr := base + 32 * g.1, len := 32 * n, buf := (g.2.take n).flatten }
    let s : State := { s with sound := { s.sound with groups := Tab.set [] s.sound.groups ring (g.2.drop n) } }
    submitPiece (.trace ring) r ten 0 false s

/-- A trace group whose line is complete is written (R591). -/
def tracePump (ring : Nat) (s : State) : State :=
  let g := s.traceGroup ring
  if g.1 % 4 + g.2.length < 4 then s else traceFlush ring s

/-- One round of what waits: operations, strands, quays, engines, the datapath, sessions, fences, moorings, the
federation, TDIs. -/
def pump (s : State) : State :=
  let s := s.ops.foldl (fun s (p : Nat × Op) => opPump p.1 s) s
  let s := s.quay.foldl (fun s (p : Nat × Quay) => p.2.strands.foldl (fun s (x : Nat × Strand) => strandPump p.1 x.1 s) s) s
  let s := s.quay.foldl (fun s (p : Nat × Quay) => failForwards p.1 (gwFill p.1 256 s)) s
  let s := s.lic.foldl (fun s (p : Nat × Engine) => admitHeld p.1 s) s
  let s := redPump s
  let s := s.sess.foldl (fun s (p : Nat × Session) => revokedEnd p.1 s) s
  let s := migrNext 16 s
  let s := s.sound.groups.foldl (fun s (p : Nat × List Bytes) => tracePump p.1 s) s
  let s := moorPump (fencePump s)
  let s := fedPump (revokePump s)
  tdiPump (relayPump (relayTake s))

/-- Did a round start, end or signal anything? -/
def State.moved (a b : State) : Bool :=
  decide (a.serial ≠ b.serial) || decide (a.boll ≠ b.boll) || decide (a.ops.length ≠ b.ops.length) ||
    !b.done.isEmpty || b.ops.any (fun p => p.2.fin)

/-- Bring the state forward as far as it goes by itself; the first argument bounds the rounds. -/
def settleN : Nat → State → State
  | 0, s => s
  | n + 1, s =>
    let t := pump (opsEnded (linesDone 256 s))
    if s.moved t then settleN n t else t

/-- Bring the state forward as far as it goes by itself, without a further command. -/
def settle (s : State) : State := settleN 1024 s

/-- A command of a running block whose effect `f` can bring waiting work forward. -/
def run (f : State → State) (s : State) : Out := live (fun s => settle (f s)) s

end Sys2Proof.Machine
end

