-- ==== Sys2Proof/Machine/FedRows.lean ====
section
/-! DEFINITION. The rows of tenants and the federation. -/

namespace Sys2Proof.Machine

/-- TENANT_ADMIT (R487, R488). -/
def execTenantAdmit (s : State) : Out := run tenantAdmit s

/-- TENANT_REMOVE (R512). -/
def execTenantRemove (s : State) : Out := run tenantRemove s

/-- DRAIN_WINDOW_END (R512). -/
def execDrainWindowEnd (t : Nat) (s : State) : Out := run (drainWindowEnd t) s

/-- LICHEN_DRAIN_END (R512). -/
def execLichenDrainEnd (t : Nat) (s : State) : Out := run (fun s => revokePump (lichenDrainEnd t s)) s

/-- DOMAIN_CHANGE of KIND 1 (R505, R506). -/
def execDomainChangeCipher (s : State) : Out := run (domainChange 1) s

/-- DOMAIN_CHANGE of KIND 2 (R505, R506). -/
def execDomainChangeDebug (s : State) : Out := run (domainChange 2) s

/-- DOMAIN_CHANGE of KIND 3 (R505, R506). -/
def execDomainChangeBwater (s : State) : Out := run (domainChange 3) s

/-- DOMAIN_CHANGE of KIND 4 (R505, R506). -/
def execDomainChangeInj (s : State) : Out := run (domainChange 4) s

/-- D2D_MESSAGE (R110). -/
def execD2dMessage (src : Nat) (msg : Bytes) (s : State) : Out := run (d2dMessage src msg) s

/-- FORM (R496). -/
def execForm (m : Master) (value : Nat) (s : State) : Out := run (fedCtrlWrite m value) s

/-- JOIN_REQ (R497). -/
def execJoinReq (s : State) : Out := run (fun s => relayTake (takeJoin 0x10 joinReqIn s)) s

/-- JOIN_RSP (R497). -/
def execJoinRsp (s : State) : Out := run (fun s => relayTake (takeJoin 0x11 joinRspIn s)) s

/-- RELAY_IN_PUSH (R498). -/
def execRelayInPush (m : Master) (value : Nat) (s : State) : Out := run (relayCtrlWrite m value) s

/-- RELAY_OUT_TAKEN (R498). -/
def execRelayOutTaken (m : Master) (s : State) : Out := run (relayOutTaken m) s

/-- HEARTBEAT (R508, R510). -/
def execHeartbeat (s : State) : Out := run (takeFed 1 hbIn) s

/-- HB_ACK (R503). -/
def execHbAck (s : State) : Out := run (takeFed 2 hbAckIn) s

/-- REQUEST (R506). -/
def execRequest (s : State) : Out := run (takeFed 3 requestIn) s

/-- PREPARE (R508). -/
def execPrepare (s : State) : Out := run (takeFed 4 prepareIn) s

/-- PREP_ACK (R503). -/
def execPrepAck (s : State) : Out := run (takeFed 5 prepAckIn) s

/-- PREP_NAK (R507). -/
def execPrepNak (s : State) : Out := run (takeFed 6 prepNakIn) s

/-- COMMIT (R508). -/
def execCommit (s : State) : Out := run (takeFed 7 commitIn) s

/-- ABORT (R508). -/
def execAbort (s : State) : Out := run (takeFed 8 abortIn) s

/-- DRAINED (R514). -/
def execDrained (s : State) : Out := run (takeFed 9 drainedIn) s

/-- FAULT (R510). -/
def execFault (s : State) : Out := run (takeFed 10 faultIn) s

/-- IMAGE (R502). -/
def execImage (s : State) : Out := run (takeFed 11 imageIn) s

/-- CHANGE_START (R507). -/
def execChangeStart (s : State) : Out := run changeStart s

/-- HEARTBEAT_TIMER (R510, R517). -/
def execHeartbeatTimer (s : State) : Out := run heartbeatTimer s

/-- HEARTBEAT_LOSS (R510). -/
def execHeartbeatLoss (s : State) : Out := run heartbeatLoss s

/-- PREPARE_TIMEOUT (R507). -/
def execPrepareTimeout (s : State) : Out := run prepareTimeout s

/-- CATCHUP_TIMEOUT (R507). -/
def execCatchupTimeout (s : State) : Out := run catchupTimeout s

end Sys2Proof.Machine
end

