-- ==== Sys2Proof/Machine/LichenRows.lean ====
section
/-! DEFINITION. The rows of the Lichen engines and of Tide. -/

namespace Sys2Proof.Machine

/-- One cycle of an engine's downstream port (R552, R68): the lanes whose bit of `ready` is 1 take a request
each, the lowest lane the best one; `qlvl` is DN_QLVL. Pool lines that may go leave for a quay (R405). -/
def downstreamIssue (n ready qlvl : Nat) (s : State) : State :=
  if 8 ≤ n ∨ !s.runs n then s
  else
    let level := qlvl % 16
    let s := s.updEng n (fun e => { e with qlvl := level })
    let z := s.tslice n
    let s := if s.tide.qlvlHi ≤ level then s.setSlice n { z with press := true } else s
    let s := latePoisoned n s
    let due := (s.eng n).due
    let b := bwBase + 0x8000 + 0x40 * n
    let s := bumpIf ((s.eng n).mergeHeld = 64) (licBase n + 0xC8) s
    let s := bumpIf (due.any (s.throttled n)) b s
    let s := bumpIf (due.any (s.capped n)) (b + 0x10) s
    let s := (List.range 16).foldl (fun s lane => if bit1 lane ready then issueLane n lane s else s) s
    advance n (poolHand n 64 s)

/-- CTRL.INIT and CTRL.FLUSH are Prity's alone (R170); an absent engine's window counts the write (R612). -/
def licCtrl (m : Master) (n : Nat) (f : Nat → State → State) (s : State) : State :=
  if s.hasEng n then regGuard (licBase n) (decide (m = .prity)) (fun s => advance n (f n s)) s
  else if s.auditFull then s
  else bump (faultBase + 0x318) s

/-- UPSTREAM_REQUEST (R57). -/
def execUpstreamRequest (engine lane : Nat) (r : UpReq) (s : State) : Out := run (upstreamRequest engine lane r) s

/-- REQUEST_WITHDRAWAL (R64). -/
def execRequestWithdrawal (engine lane : Nat) (r : UpReq) (s : State) : Out := run (requestWithdrawal engine lane r) s

/-- WRITE_DATA_BEAT (R59). -/
def execWriteDataBeat (engine lane : Nat) (data : Bytes) (be : Nat) (s : State) : Out :=
  run (writeDataBeat engine lane data be) s

/-- CHAIN_HANDOFF (R153). -/
def execChainHandoff (engine entry : Nat) (s : State) : Out := run (chainHandoff engine entry) s

/-- DOWNSTREAM_ISSUE (R552). -/
def execDownstreamIssue (engine ready qlvl : Nat) (s : State) : Out := run (downstreamIssue engine ready qlvl) s

/-- DOWNSTREAM_READ_RESPONSE (R145). -/
def execDownstreamReadResponse (engine id : Nat) (data : Bytes) (sb : Nat) (ue : Bool) (s : State) : Out :=
  run (readResponse engine id data sb ue) s

/-- DOWNSTREAM_WRITE_COMPLETE (R149). -/
def execDownstreamWriteComplete (engine id : Nat) (ue : Bool) (s : State) : Out := run (writeComplete engine id ue) s

/-- LICHEN_INIT (R131). -/
def execLichenInit (m : Master) (engine : Nat) (s : State) : Out := run (licCtrl m engine licInit) s

/-- LICHEN_FLUSH (R170). -/
def execLichenFlush (m : Master) (engine : Nat) (s : State) : Out := run (licCtrl m engine licFlush) s

/-- FRZ_STATE_WRITE (R162, R175): Prity's write. -/
def execFrzStateWrite (region state : Nat) (s : State) : Out :=
  run (fun s => if s.auditFull then s else (frzWrite (region % 64) (state % 4) s).2) s

/-- TIDE_JOB_START (R179): the engine is present. -/
def execTideJobStart (engine : Nat) (s : State) : Out := run (tideJobStart engine) s

/-- TIDE_TURN (R181). -/
def execTideTurn (engine : Nat) (s : State) : Out := run (tideTurn engine) s

end Sys2Proof.Machine
end

