-- ==== Sys2Proof/Machine/QuayPort.lean ====
section
/-! DEFINITION. The quay's ports, frame by frame (R76 to R85, R214), and the session commands of the mailbox
(R208 to R212, R233). -/

namespace Sys2Proof.Machine

/-! ### The order of frames (R214, R237) -/

/-- Before a frame of another kind starts on a session, that session's buffer is flushed: the heads of the
quay's sources, looked at before any of them starts (R237). -/
def orderHeads (q : Nat) (s : State) : State :=
  let heads (x : Quay) : List TxItem :=
    (if x.fedTx.isEmpty then x.flit.take 1 else x.fedTx.take 1) ++ x.strandTx.take 1 ++ x.memTx.take 1
  (heads (s.getQuay q)).foldl (fun s it => orderFlush q it s) s

/-- Start the frame of source k: 0 the FED unit and the flit port, 1 the strands, 2 the reduction datapath, 3 the
gateway buffers, 4 the memory path (R214, R501). -/
def startSource (q : Nat) (s : State) (k : Nat) : Option State :=
  let x := s.getQuay q
  let head (l : List TxItem) (pop : Quay → Quay) : Option State :=
    match l with
    | [] => none
    | it :: _ => startItem q it pop s
  match k with
  | 0 =>
    if x.fedTx.isEmpty then head x.flit (fun x => { x with flit := x.flit.drop 1 })
    else head x.fedTx (fun x => { x with fedTx := x.fedTx.drop 1 })
  | 1 => head x.strandTx (fun x => { x with strandTx := x.strandTx.drop 1 })
  | 2 => startForward q s
  | 3 => startBulk q s
  | _ => head x.memTx (fun x => { x with memTx := x.memTx.drop 1 })

/-- The first source that can start a frame, from one on, round-robin; the turn then goes to the one after it. -/
def startRobin (q : Nat) (s : State) : List Nat → Option State
  | [] => none
  | k :: t => match startSource q s k with
    | some s => some (s.updQuay q (fun x => { x with rr := (k + 1) % 5 }))
    | none => startRobin q s t

/-- FRAME_START: the quay starts one frame (R214): a control frame that is due, a retransmission, a counted
operation to be sent again (R402), or the next source's. -/
def frameStart (q : Nat) (s : State) : State :=
  if !s.quayTx q then s
  else
    let s := orderHeads q s
    let x := s.getQuay q
    match firstStart (fun c => startCtl q c s) x.ctl with
    | some s => s
    | none => match startRetx q s with
      | some s => s
      | none => match startResend q s with
        | some s => s
        | none => (startRobin q s ((List.range 5).map (fun i => (x.rr + i) % 5))).getD s

/-! ### SESSION_OPEN (R209 to R212, R400, R402) -/

/-- Session i is one of the federation's (R501): in the owner world, at the anchor the index of a member
package, at any other pilot the index of the anchor. -/
def State.fedIndex (s : State) (i ten : Nat) : Bool :=
  let f := s.fed
  decide (ten = ownerTen) && s.straps.pilotSel &&
    (if s.isAnchor then f.members.any (fun p => decide (p.1 ≠ f.reg.pkg ∧ i = f.reg.fsess + p.1)) else decide (i = f.reg.fsess))

/-- The berth of the link key of a world and tenant, held by a domain member. -/
def State.linkKey (s : State) (ten : Nat) : Option Nat :=
  if s.fed.state ≠ .member then none
  else match tenMoor ten with
    | none => s.fed.ownerLink
    | some t => (s.getMoor t).link

/-- The record area that an open binds (R400): none where there is none. The owner's sessions have theirs by
their index. -/
def State.bindArea (s : State) (i ten : Nat) (again : Bool) : Option (Option Nat) :=
  match tenMoor ten with
  | none => if s.fed.reg.osValid then some none else none
  | some t =>
    if again ∧ (s.getSess i).area.isSome then some (s.getSess i).area
    else
      let taken (k : Nat) : Bool := s.sess.any (fun p => decide (p.1 ≠ i ∧ p.2.area = some k ∧ p.2.areaTen = ten))
      ((List.range (s.getMoor t).adm.sessMax).find? (fun k => !taken k)).map some

/-- An open names the peer that the index had before (R402). -/
def Session.samePeer (x : Session) (ten dest peer : Nat) : Bool :=
  decide (x.serial ≠ 0 ∧ x.areaPeer = instAddr dest ∧ x.areaPeerSess = peer ∧ x.areaTen = ten)

/-- The input of the master secret (R210). -/
def masterInput (own peer i j serial : Nat) : Bytes :=
  let a := instAddr own
  let b := instAddr peer
  if a < b then beBytes 3 a ++ beBytes 3 b ++ beBytes 2 i ++ beBytes 2 j ++ beBytes 4 serial
  else beBytes 3 b ++ beBytes 3 a ++ beBytes 2 j ++ beBytes 2 i ++ beBytes 4 serial

/-- Fill seven berths for a session: the master secret, and six reserved for keys (R207); the berths, or none
where a read-back fails. -/
def sessBerths (q ten lcmask : Nat) (master : Bytes) : Nat → State → Option (List Nat) × State
  | 0, s => (some [], s)
  | n + 1, s =>
    let b := s.freeBerth.getD 0
    let r := berthStep b (writeBerth b (sessBerth q ten lcmask (if n = 6 then master else zeros 32))) s
    if !r.1 then (none, r.2)
    else
      let t := sessBerths q ten lcmask master n r.2
      (t.1.map (b :: ·), t.2)

/-- Derive the keys of a generation of both directions into two berths. -/
def openGen (i r tx rx : Nat) (s : State) : State :=
  let x := s.getSess i
  let a := deriveGen i x.dir r tx s
  let b := deriveGen i (1 - x.dir) r rx a.2
  b.2.updSess i (fun x => { x with txKeys := x.txKeys ++ a.1.toList, rxKeys := x.rxKeys ++ b.1.toList })

/-- An index is opened for a peer (R212, R400, R402): the counted operations of the one before are sent again
to the same peer, or end. -/
def sessReset (i q : Nat) (again : Bool) (s : State) : State :=
  let old := (s.getSess i).quay
  if again then
    let mine := ((s.getQuay old).pend.filter (fun p => p.sess = i)).map (fun p => { p with resend := true })
    let s := s.updQuay old (fun y => { y with pend := y.pend.filter (fun p => p.sess ≠ i) })
    s.updQuay q (fun y => { y with pend := y.pend ++ mine })
  else endSessOps old i .eAborted true s

/-- Open a session whose checks have passed (R210, R212). -/
def sessBegin (i q ten dest peer serial : Nat) (gw : Bool) (area : Option Nat) (lcmask : Nat) (link : Bytes) (s : State) :
    Status × State :=
  let x := s.getSess i
  let again := x.samePeer ten dest peer
  let own := (s.getQuay q).addr
  let r := sessBerths q ten lcmask (kdf link 5 (masterInput own dest i peer serial)) 7 s
  match r.1 with
  | some [m, t0, t1, r0, r1, b0, b1] =>
    let s := sessReset i q again r.2
    let s := s.setSess i {
      state := .opened, ten := ten, gw := gw, quay := q, dest := dest, peerSess := peer, serial := serial
      master := some m, spare := [b0, b1], dir := if instAddr own < instAddr dest then 0 else 1
      anum := if again then x.anum else 1, wmark := if again then x.wmark else 0, area := area
      areaPeer := instAddr dest, areaPeerSess := peer, areaTen := ten, fed := s.fedIndex i ten }
    (.ok, openGen i 1 t1 r1 (openGen i 0 t0 r0 s))
  | _ => (.eIntegrity, r.2)

/-- The checks of R209 that follow the encoding, and the open. -/
def sessOpenRun (s : State) : MbAns :=
  let w0 := s.oper 0
  let w1 := s.oper 1
  let serial := s.oper 2
  let i := bits 0 12 w0
  let q := bits 16 4 w0
  let ten := bits 20 9 w0
  let dest := bits 0 24 w1
  let peer := bits 32 12 w1
  let x := s.getSess i
  let bound : Bool := match tenMoor ten with
    | none => true
    | some t => decide ((s.getMoor t).state = .active)
  let area := s.bindArea i ten (x.samePeer ten dest peer)
  let st := firstFail .ok
    [(!tenOk ten || !bound, .ePermission), ((s.linkKey ten).isNone, .eState),
     (decide (x.state ≠ .closed) || s.migr.isSome, .eState), (decide (serial ≤ x.serial), .eState),
     (decide (x.serial = 0xFFFFFFFF), .eCtrExhausted), (decide (s.emptyBerths < 7) || area.isNone, .eNoRes)]
  let no (st : Status) (s : State) : MbAns := (some (st, 0), if st = .eState then mbRefuse 0x40 st s else s)
  if st ≠ .ok then no st s
  else
    let b := (s.linkKey ten).getD 0
    let l := berthLoad b mKdf 1 (·.fits ten) s
    if l.1 ≠ .ok then no l.1 l.2.2
    else
      let r := sessBegin i q ten dest peer serial (bit1 32 w0) (area.getD none) (s.getBerth b).lcmask l.2.1 l.2.2
      (some (r.1, 0), r.2)

/-- SESSION_OPEN's operands break their encoding (R209). -/
def State.sessOpenBad (s : State) : Bool :=
  let w1 := s.oper 1
  strays (s.oper 0) 0x11FFF0FFF || strays w1 0xFFF00FFFFFF || strays (s.oper 2) 0xFFFFFFFF ||
    decide (bits 18 6 w1 ≠ 0 ∨ bits 4 14 w1 = bits 4 14 (s.getQuay (bits 16 4 (s.oper 0))).addr) ||
    !s.hasIsland (8 + bits 16 4 (s.oper 0))

/-- SESSION_OPEN. -/
def sessionOpen (s : State) : State := mbRun 0x40 s.sessOpenBad lcAny s.normal sessOpenRun s

/-! ### SESSION_CLOSE, SESSION_MIGRATE, SESSION_ROTATE (R208, R229, R233) -/

/-- SESSION_CLOSE: operand word 0 names the index (DESIGN CHOICE, log entry 36). -/
def sessionClose (s : State) : State :=
  let i := s.oper 0 % 4096
  let st := (s.getSess i).state
  mbRun 0x41 (strays (s.oper 0) 0xFFF) lcAny (s.normal && decide (st = .opened ∨ st = .broken))
    (fun s => (some (.ok, 0), closeSess i s)) s

/-- SESSION_MIGRATE: operand words 0 and 1 name the two quays. The command ends when the move has. -/
def sessionMigrate (s : State) : State :=
  let q := s.oper 0 % 16
  let q' := s.oper 1 % 16
  mbRun 0x42 (strays (s.oper 0) 15 || strays (s.oper 1) 15) lcAny (s.normal && s.migr.isNone && s.migrWait.isEmpty)
    (fun s =>
      if !s.hasIsland (8 + q) then (some (.ePermission, 0), s)
      else
        let here := s.hasIsland (8 + q')
        let r := migrStart q (if here then q' else q) s
        if !r.1 then (some (if here then .eNoRes else .ePermission, 0), r.2)
        else (if r.2.migr.isNone then some (.ok, 0) else none, r.2)) s

/-- SESSION_ROTATE: operand word 0 names the index; the move itself follows at the first moment R228 permits. -/
def sessionRotate (s : State) : State :=
  let i := s.oper 0 % 4096
  mbRun 0x43 (strays (s.oper 0) 0xFFF) lcAny (s.normal && decide ((s.getSess i).state = .opened))
    (fun s => (some (.ok, 0), s.updSess i (fun x => { x with rot := true }))) s

/-! ### REKEY_START from the mailbox (R180) -/

/-- The command REKEY_START: the KeyID and the mask of engines in operand word 0. -/
def rekeyCmd (s : State) : State :=
  mbRun 0x30 (strays (s.oper 0) 0xFF1FFF) lcAny true (fun s =>
    let r := rekeyStart (s.oper 0) s
    (some (r.1, 0), r.2)) s

end Sys2Proof.Machine
end

