-- ==== Sys2Proof/Machine/MgmtRows.lean ====
section
/-! DEFINITION. Rows of keys, firmware and islands whose effect can end waiting work, and the session commands of
the mailbox. -/

namespace Sys2Proof.Machine

/-- ZEROISE (R428). -/
def execZeroise (value : Nat) (s : State) : Out := run (berthCmd (some 3) value) s

/-- SET_STATE (R428). -/
def execSetState (value : Nat) (s : State) : Out := run (berthCmd (some 4) value) s

/-- OTP_RESPONSE (R106). -/
def execOtpResponse (data : Nat) (s : State) : Out := run (otpResponse data) s

/-- ISLAND_POWER_REMOVAL: its behaviour is not defined while the island's FENCED output is 0 (R31, R118). -/
def execIslandPowerRemoval (island : Nat) (s : State) : Out :=
  if s.power = .on ∧ island < 25 ∧ s.hasIsland island = true ∧ (s.getIsland island).powered = true then
    if (s.getIsland island).fenced then .next (settle (islandPowerRemoval island s)) else .fault (.islandNotFenced island)
  else .next s

/-- REKEY_START (R180). -/
def execRekeyStart (s : State) : Out := run rekeyCmd s

/-- SESSION_OPEN (R209). -/
def execSessionOpen (s : State) : Out := run sessionOpen s

/-- SESSION_CLOSE (R208, R212). -/
def execSessionClose (s : State) : Out := run sessionClose s

/-- SESSION_MIGRATE (R208, R233). -/
def execSessionMigrate (s : State) : Out := run sessionMigrate s

/-- SESSION_ROTATE (R208, R229). -/
def execSessionRotate (s : State) : Out := run sessionRotate s

/-- FENCE_DOMAIN (R567). -/
def execFenceDomain (m : Master) (domain : Nat) (s : State) : Out := run (fenceWrite m domain) s

/-- DRAIN_LIMIT_EXPIRY (R53, R567). -/
def execDrainLimitExpiry (domain : Nat) (s : State) : Out := run (drainLimitExpiry domain) s

/-- DUMP_WRITTEN (R571). -/
def execDumpWritten (domain : Nat) (s : State) : Out := run (dumpWritten domain) s

/-- DUMP_LIMIT_EXPIRY (R575). -/
def execDumpLimitExpiry (domain : Nat) (s : State) : Out := run (dumpLimit domain) s

/-- RELEASE_DOMAIN (R570): the owner's write of FAULT.RELEASE. -/
def execReleaseDomain (m : Master) (domain : Nat) (s : State) : Out :=
  run (regGuard (faultBase + 8) (decide (m = .pf)) (releaseDomain domain)) s

end Sys2Proof.Machine
end

