-- ==== Sys2Proof/Machine/QuayRows.lean ====
section
/-! DEFINITION. The rows of the quays, of remote memory and of the reduction datapath. -/

namespace Sys2Proof.Machine

/-- FLIT_PACKET (R78). -/
def execFlitPacket (quay : Nat) (p : Flit) (s : State) : Out := run (flitPacket quay p) s

/-- FRAME_START (R214). -/
def execFrameStart (quay : Nat) (s : State) : Out := run (frameStart quay) s

/-- RECEIVED_FRAME (R82). -/
def execReceivedFrame (quay : Nat) (frame : Bytes) (bad framing : Bool) (s : State) : Out :=
  run (receiveFrame quay frame bad framing) s

/-- RELEASE_FRAME (R219). -/
def execReleaseFrame (sess : Nat) (s : State) : Out := run (releaseFrame fedFrame sess) s

/-- ACK_DELAY_EXPIRY (R220). -/
def execAckDelayExpiry (sess : Nat) (s : State) : Out := run (ackDelay sess) s

/-- RETRANSMISSION (R224). -/
def execRetransmission (sess seq : Nat) (s : State) : Out := run (retransmit sess seq) s

/-- RETRANSMISSION_LIMIT (R225). -/
def execRetransmissionLimit (sess seq : Nat) (s : State) : Out := run (retxLimit sess seq) s

/-- GENERATION_MOVE (R229). -/
def execGenerationMove (sess : Nat) (s : State) : Out := run (fun s => if s.moveDue sess then (txMove sess s).2 else s) s

/-- RX_KEY_DERIVED (R227). -/
def execRxKeyDerived (sess : Nat) (s : State) : Out := run (rxDerived sess) s

/-- LINK_DOWN (R85, R233). -/
def execLinkDown (quay : Nat) (s : State) : Out := run (linkFalls quay) s

/-- LINK_UP (R85, R245). -/
def execLinkUp (quay : Nat) (s : State) : Out := run (linkRises quay) s

/-- MIGRATION_MOVE_COMPLETE (R234). -/
def execMigrationMoveComplete (sess : Nat) (s : State) : Out := run (moveComplete sess) s

/-- PROBE_REPEAT (R234). -/
def execProbeRepeat (sess : Nat) (s : State) : Out := run (probeRepeat sess) s

/-- GW_FLUSH_TIME (R237). -/
def execGwFlushTime (quay sess : Nat) (s : State) : Out := run (gwTime quay sess) s

/-- QUAY_CTRL_WRITE (R244). -/
def execQuayCtrlWrite (m : Master) (quay value : Nat) (s : State) : Out := run (quayCtrl m quay value) s

/-! ### The reduction datapath -/

/-- OPERAND_ARRIVAL (R259). -/
def execOperandArrival (slot chunk : Nat) (s : State) : Out := run (operandArrives slot chunk) s

/-- CHUNK_STORE_DONE (R261). -/
def execChunkStoreDone (slot chunk : Nat) (s : State) : Out := run (chunkStored slot chunk) s

/-! ### Remote memory (R390, R388) -/

/-- WRITE (R391), and every request of reserved kind (R390, check 2). -/
def execWrite (quay : Nat) (s : State) : Out := run (serve quay (fun k => decide (k < 2 ∨ 6 < k))) s

/-- READ (R391). -/
def execRead (quay : Nat) (s : State) : Out := run (serve quay (fun k => k = 2)) s

/-- ATOM (R395). -/
def execAtom (quay : Nat) (s : State) : Out := run (serve quay (fun k => k = 3)) s

/-- SIGNAL (R391). -/
def execSignal (quay : Nat) (s : State) : Out := run (serve quay (fun k => k = 4)) s

/-- POOL_READ (R406). -/
def execPoolRead (quay : Nat) (s : State) : Out := run (serve quay (fun k => k = 5)) s

/-- POOL_WRITE (R406). -/
def execPoolWrite (quay : Nat) (s : State) : Out := run (serve quay (fun k => k = 6)) s

/-- WRITE_ACK (R388), and replies of reserved kind, which end nothing. -/
def execWriteAck (quay : Nat) (s : State) : Out :=
  run (takeReply quay (fun k => decide (k = 0x80 ∨ k = 0x81 ∨ 0x86 < k))
    (fun i h pkt s => if h.kind = 0x81 then memReply quay i h pkt s else s)) s

/-- READ_DATA (R388). -/
def execReadData (quay : Nat) (s : State) : Out := run (takeReply quay (fun k => k = 0x82) (memReply quay)) s

/-- ATOM_RSP (R388). -/
def execAtomRsp (quay : Nat) (s : State) : Out := run (takeReply quay (fun k => k = 0x83) (memReply quay)) s

/-- SIGNAL_RSP (R388). -/
def execSignalRsp (quay : Nat) (s : State) : Out := run (takeReply quay (fun k => k = 0x84) (memReply quay)) s

/-- POOL_DATA (R405). -/
def execPoolData (quay : Nat) (s : State) : Out :=
  run (takeReply quay (fun k => k = 0x85) (fun i h pkt => poolReply i h (pkt.drop 32))) s

/-- POOL_ACK (R405). -/
def execPoolAck (quay : Nat) (s : State) : Out :=
  run (takeReply quay (fun k => k = 0x86) (fun i h pkt => poolReply i h (pkt.drop 32))) s

end Sys2Proof.Machine
end

