-- ==== Sys2Proof/Machine/QueueRows.lean ====
section
/-! DEFINITION. The rows of the submission queues and of the queue commands: the command processor starts the
command at the front of a queue, where its code is the row's (R294, R302). -/

namespace Sys2Proof.Machine

/-- A command with no body of its own. -/
def plainBody (_x : SubQueue) (_c : QCmd) (_s : State) : Body := .plain

/-- SQ_DOORBELL (R292). -/
def execSqDoorbell (m : Master) (queue tail : Nat) (s : State) : Out := run (sqDoorbell m queue tail) s

/-- RING_FETCH (R293). -/
def execRingFetch (queue : Nat) (s : State) : Out := run (ringFetch queue) s

/-- QUEUE_ENABLE (R291). -/
def execQueueEnable (m : Master) (queue value : Nat) (s : State) : Out := run (queueEnable m queue value) s

/-- NOP (R302); a reserved code ends with E_ENCODING at its decode (R298). -/
def execNop (queue : Nat) (s : State) : Out :=
  run (qStart queue (fun c => c.opcode = 0 || decide (0x0E < c.opcode))
    (fun _ c _ => { mask := opMask 0, enc := decide (c.opcode ≠ 0) }) plainBody (fun id _ s => finishOp id .ok 0 0 s)) s

/-- OBJ_REGISTER of a memory object (R311); a reserved TYPE ends with E_ENCODING at its decode (R298). -/
def execObjRegisterMemory (queue : Nat) (s : State) : Out :=
  run (qStart queue (fun c => c.opcode = 1 && decide (c.op 0 ≠ 1)) regNeeds plainBody registerMemory) s

/-- OBJ_REGISTER of a bollard (R316). -/
def execObjRegisterBollard (queue : Nat) (s : State) : Out :=
  run (qStart queue (fun c => c.opcode = 1 && decide (c.op 0 = 1)) regNeeds plainBody registerBollard) s

/-- OBJ_FREE (R313). -/
def execObjFree (queue : Nat) (s : State) : Out :=
  run (qStart queue (fun c => c.opcode = 2) (freeNeeds false) freeBody freeGo) s

/-- OBJECT_REFERENCES_ZERO (R313). -/
def execObjectReferencesZero (obj : Nat) (s : State) : Out := run (objZero obj) s

/-- COPY (R305, R306). -/
def execCopy (queue : Nat) (s : State) : Out := run (qStart queue (fun c => c.opcode = 3) copyNeeds copyBody copyGo) s

/-- PROGRAM_LAUNCH (R307). -/
def execProgramLaunch (queue : Nat) (s : State) : Out :=
  run (qStart queue (fun c => c.opcode = 4) launchNeeds
    (fun _ c _ => .launch (c.op 2 % 16) (c.op 2 / 16 % 4)) launchGo) s

/-- BOLLARD_SIGNAL in ADD mode (R317). -/
def execBollardSignalAdd (queue : Nat) (s : State) : Out :=
  run (qStart queue (fun c => c.opcode = 5 && !bit1 0 (c.op 2)) signalNeeds plainBody (signalGo false)) s

/-- BOLLARD_SIGNAL in RESET mode (R319). -/
def execBollardSignalReset (queue : Nat) (s : State) : Out :=
  run (qStart queue (fun c => c.opcode = 5 && bit1 0 (c.op 2)) signalNeeds plainBody (signalGo true)) s

/-- BOLLARD_WAIT (R320). -/
def execBollardWait (queue : Nat) (s : State) : Out :=
  run (qStart queue (fun c => c.opcode = 6) waitNeeds
    (fun _ c _ => .wait (handleIdx (c.op 0)) (c.op 1)) (fun id _ s => waitGo id s)) s

/-- ALLOC (R325, R326). -/
def execAlloc (queue : Nat) (s : State) : Out := run (qStart queue (fun c => c.opcode = 7) allocNeeds plainBody allocGo) s

/-- FREE (R327). -/
def execFree (queue : Nat) (s : State) : Out :=
  run (qStart queue (fun c => c.opcode = 8) (freeNeeds true) freeBody freeGo) s

/-- SEAL_LOAD (R480). -/
def execSealLoad (queue : Nat) (s : State) : Out := run (qStart queue (fun c => c.opcode = 9) sealNeeds plainBody sealGo) s

/-- SEAL_ABORT (R308). -/
def execSealAbort (queue : Nat) (s : State) : Out :=
  run (qStart queue (fun c => c.opcode = 10) regionNeeds plainBody sealAbortGo) s

/-- REGION_RELEASE (R308). -/
def execRegionRelease (queue : Nat) (s : State) : Out :=
  run (qStart queue (fun c => c.opcode = 11) regionNeeds plainBody regionReleaseGo) s

/-- KEY_UNWRAP (R477). -/
def execKeyUnwrap (queue : Nat) (s : State) : Out :=
  run (qStart queue (fun c => c.opcode = 12) unwrapNeeds plainBody unwrapGo) s

/-- QUERY_CONTEXT (R330). -/
def execQueryContext (queue : Nat) (s : State) : Out :=
  run (qStart queue (fun c => c.opcode = 13) queryNeeds (fun _ _ _ => .queryCtx) queryGo) s

/-- CONTEXT_RETIRE (R332): steps 1 to 6; the rest follows when the target's last work has ended. -/
def retireGo (id : Nat) (c : QCmd) (s : State) : State :=
  let ten := (s.getOp id).ten
  let t := c.op 0
  let r := retireBegin id ten t s
  let s := r.2.updOp id (fun o => { o with body := .retire t r.1 })
  let s := stopStrands (fun _ x => decide (x.ten = ten ∧ x.ctx = t)) .eAborted s
  let s := failSlots (fun x => decide (x.ten = ten ∧ x.ctx = t)) .eAborted s
  failSeals (fun o _ => decide (o.ten = ten ∧ o.ctx = t)) .eAborted s

/-- CONTEXT_RETIRE (R332). -/
def execContextRetire (queue : Nat) (s : State) : Out :=
  run (qStart queue (fun c => c.opcode = 14) retireNeeds (fun _ c _ => .retire (c.op 0) 0) retireGo) s

/-- ALLOC_DB with OP 0, an allocation (R329). -/
def execAllocDbAlloc (m : Master) (value : Nat) (s : State) : Out :=
  run (fun s => if bit1 0 value then s else allocDb m value s) s

/-- ALLOC_DB with OP 1, a free (R329). -/
def execAllocDbFree (m : Master) (value : Nat) (s : State) : Out :=
  run (fun s => if bit1 0 value then allocDb m value s else s) s

end Sys2Proof.Machine
end

