-- ==== Sys2Proof/Machine/Sound.lean ====
section
/-! DEFINITION. The soundings' commands: freezes and their release, the reproducibility record's clear, the trace
group timeout, and the mooring window's replay mode (R275, R578, R585, R586, R591). -/

namespace Sys2Proof.Machine

/-- Every freezing register's shadow (R275, R585): the counters, and of the reproducibility record CLEAR_NS and
DECLARED. Its settings fields have no shadow: they always show the settings in force. -/
def State.shadows (s : State) : Tab Nat :=
  let t := Tab.set 0 s.cnt (soundBase + 0x238) s.sound.clearNs
  (List.range 4).foldl (fun t i => Tab.set 0 t (soundBase + 0x240 + 8 * i) (Tab.get 0 s.sound.declared i)) t

/-- A trigger or a FREEZE_AT crossing (R585, R586): it freezes, or while a snapshot is held it counts and clears
ARM_AT. -/
def freeze (s : State) : State :=
  let x := s.sound
  if x.held then { s with sound := { x with missed := min max64 (x.missed + 1), armAt := false } }
  else
    { s with
      shadow := s.shadows
      sound := { x with held := true, snapSeq := (x.snapSeq + 1) % 2 ^ 32, snapNs := s.now } }

/-- GTRIG (R585): only while CTRL.GTRIG_EN is 1. -/
def gtrig (s : State) : State := if s.sound.gtrigEn then freeze s else s

/-- FREEZE_AT (R585): the captured timebase reaches the register's value while ARM_AT is 1, which clears. -/
def freezeAt (s : State) : State :=
  if !s.sound.armAt then s
  else
    let s := { s with time := { s.time with ns := max s.time.ns s.sound.freezeAt } }
    freeze { s with sound := { s.sound with armAt := false } }

/-- SNAPSHOT_RELEASE (R586, R587): only the owner releases a snapshot. -/
def snapshotRelease (m : Master) (s : State) : State :=
  regGuard soundBase (decide (m = .pf)) (fun s => { s with sound := { s.sound with held := false } }) s

/-- The reproducibility record's counts (R275). -/
def reproCounts : List Nat := [soundBase + 0x210, soundBase + 0x220, soundBase + 0x228, soundBase + 0x230]

/-- REPRO_CLEAR (R275): the owner zeroes the counts, and CLEAR_NS is set. -/
def reproClear (m : Master) (s : State) : State :=
  regGuard (soundBase + 0x260) (decide (m = .pf)) (fun s =>
    { s with cnt := reproCounts.foldl (fun t a => Tab.set 0 t a 0) s.cnt, sound := { s.sound with clearNs := s.now } }) s

/-- REPLAY_ENABLE (R578): the tenant's write of REPLAY; one that sets EN needs REPLAY_EN in the committed mode
image. -/
def replayEnable (m : Master) (value : Nat) (s : State) : State :=
  match s.tenantOf m with
  | none => regGuard (winBase 0 + 0x2838) false id s
  | some t =>
    regGuard (winBase t + 0x2838) (!bit1 0 value || s.replayEn) (fun s =>
      s.updWin t (fun w => { w with replay := bit1 0 value, replayCtx := bits 1 20 value })) s

/-- GTRIG (R585). -/
def execGtrig (s : State) : Out := live gtrig s

/-- FREEZE_AT (R585). -/
def execFreezeAt (s : State) : Out := live freezeAt s

/-- SNAPSHOT_RELEASE (R586). -/
def execSnapshotRelease (m : Master) (s : State) : Out := live (snapshotRelease m) s

/-- REPRO_CLEAR (R275). -/
def execReproClear (m : Master) (s : State) : Out := live (reproClear m) s

/-- TRACE_GROUP_TIMEOUT (R591). -/
def execTraceGroupTimeout (ring : Nat) (s : State) : Out := run (traceFlush ring) s

/-- REPLAY_ENABLE (R578). -/
def execReplayEnable (m : Master) (value : Nat) (s : State) : Out := run (replayEnable m value) s

end Sys2Proof.Machine
end

