-- ==== Sys2Proof/Machine/RegMap.lean ====
section
/-! DEFINITION. The blocks of the control space: what each 64-bit register shows, which of its bits a master may
write, and what a write does (R169 to R176, R197 to R200, R243 to R248, R276 to R279, R339 to R341, R614). -/

namespace Sys2Proof.Machine

/-- A register as a master meets it. -/
structure Reg where
  /-- its present value, with fields that cannot be read as zero -/
  val    : Nat := 0
  /-- bits that are fields; the others are RSVD (R19) -/
  fields : Nat := max64
  /-- bits the master sees -/
  vis    : Nat := max64
  /-- bits the master may write -/
  mask   : Nat := 0
  /-- bits whose change by this master is counted under R20 -/
  gated  : Nat := 0
  /-- it freezes with the soundings -/
  frz    : Bool := false
  /-- the master may not read it (R37) -/
  deny   : Bool := false
  /-- policy-class bits (R21) -/
  pol    : Nat := 0
  /-- whether a write with this result is taken; otherwise the whole write is ignored and counted (R20) -/
  ok     : Nat → Bool := fun _ => true
  /-- the write's effect is that of a command's row, which makes its own checks -/
  own    : Bool := false
  put    : Nat → State → State := fun _ s => s

/-- A register that nobody writes: its fields and value. -/
def ro (fields v : Nat) : Reg := { val := v, fields := fields }

/-- An event counter, which freezes (R585). -/
def frozenCnt (a : Nat) (s : State) : Reg := { val := s.count a, frz := true }

/-- A register with one field of `w` bits. -/
def rw (may : Bool) (w v : Nat) (put : Nat → State → State) : Reg :=
  { val := v, fields := 2 ^ w - 1, mask := if may then 2 ^ w - 1 else 0, put := put }

/-- A write-only register whose write is a command's row. -/
def wo (may : Bool) (fields : Nat) (put : Nat → State → State) : Reg :=
  { fields := fields, mask := if may then fields else 0, own := true, put := put }

/-- A register of a block in which every write that is not listed is ignored and counted under R20. -/
def Reg.strict (r : Reg) : Reg := if r.mask = 0 then { r with gated := r.fields } else r

/-- The register at an offset of a list. -/
def pickReg (o : Nat) (l : List (Nat × Reg)) : Option Reg := (l.find? (fun p => p.1 = o)).map (·.2)

/-- The 64-bit word that a byte string holds at an offset. -/
def wordAt (o : Nat) (d : Bytes) : Nat := leNat (slice o 8 d)

def onlyBit (may : Bool) (put : State → State) : Reg := wo may 1 (fun v s => if bit1 0 v then put s else s)

/-! ### IDENT (R614) -/

def identReg (s : State) (o : Nat) : Option Reg :=
  let p := s.straps
  pickReg o [
    (0x00, ro 0xFFFFFFFF 0x00020001),
    (0x08, ro 0x1FFFFFFFFF (s.mask % 256 + fld 8 4 s.engines.length + fld 12 16 0xFFFF + fld 28 5 16 + fld 33 3 4 + fld 36 1 1)),
    (0x10, ro 0x3FFFFFFFFFFFF (16 + fld 5 5 13 + fld 10 5 14 + fld 15 5 12 + fld 20 5 8 + fld 25 5 17 + fld 30 5 8 + fld 35 5 12 +
      fld 40 5 10 + fld 45 5 12)),
    (0x18, ro 0xFFFFFFFFFFF (64 + fld 7 7 64 + fld 14 6 32 + fld 20 9 256 + fld 29 15 16384)),
    (0x20, ro 0x3FFF (b2n p.tagSb + fld 1 1 (b2n p.pilotSel) + fld 2 3 p.dieId + fld 5 4 p.dieCount + fld 9 4 p.ideStreams +
      fld 13 1 (b2n s.strapFault))),
    (0x28, ro 0xFFFFF (0x1FFF + fld 13 4 0xF + fld 17 1 1 + fld 18 1 1 + fld 19 1 1))]

/-! ### MBOX (R335, R336, R339) -/

/-- The mailbox command of a code (R338), written to CMD. A code that names no command ends with E_ENCODING
(R337). -/
def mbCmd (code : Nat) (s : State) : State :=
  if code = 0x10 then quote (decide (s.oper 0 % 4 = 1)) s
  else if code = 0x18 then fwUpdate s
  else if code = 0x20 then tenantAdmit s
  else if code = 0x21 then tenantRemove s
  else if code = 0x28 then
    let k := s.oper 0 % 16
    domainChange (if k = 2 ∨ k = 3 ∨ k = 4 then k else 1) s
  else if code = 0x30 then rekeyCmd s
  else if code = 0x40 then sessionOpen s
  else if code = 0x41 then sessionClose s
  else if code = 0x42 then sessionMigrate s
  else if code = 0x43 then sessionRotate s
  else if code = 0x50 then bistRun s
  else if code = 0x60 then lcTransition s
  else if code = 0x61 then eraseUserSecrets s
  else mbRun code true lcAny true (fun s => (none, s)) s

/-- A write of OPER, DATA_LEN or DATA: ignored and counted while a command runs (R336). -/
def mbIdle (f : Mbox → Mbox) (s : State) : State :=
  if s.mbox.busy then { s with mbox := { s.mbox with reject := min max64 (s.mbox.reject + 1) } }
  else { s with mbox := f s.mbox }

/-- Put eight bytes of the data window. -/
def Mbox.poke (o v : Nat) (m : Mbox) : Mbox :=
  let old := slice 0 32 (Tab.get [] m.data (o / 32))
  let new := patch (o % 32) (leBytes 8 v) old
  { m with data := Tab.set [] m.data (o / 32) (if new = zeros 32 then [] else new) }

def mboxReg (s : State) (m : Master) (o : Nat) : Option Reg :=
  let x := s.mbox
  let w := decide (m = .pf)
  if 0x40 ≤ o ∧ o < 0x80 then
    let i := (o - 0x40) / 8
    some (rw w 64 (s.oper i) (fun v => mbIdle (fun x => { x with oper := Tab.set 0 x.oper i v }))).strict
  else if 0x80 ≤ o ∧ o < 0xC0 then some (ro max64 (Tab.get 0 x.res ((o - 0x80) / 8))).strict
  else if 0x8000 ≤ o then
    some (rw w 64 (if x.busy then 0 else wordAt 0 (s.mbData (o - 0x8000) 8)) (fun v => mbIdle (Mbox.poke (o - 0x8000) v))).strict
  else (pickReg o [
    (0x00, ro 0xFFFFFFFFFFFF01 (b2n x.busy + fld 8 8 x.code + fld 16 8 x.result + fld 24 32 x.serial)),
    (0x08, wo w 0xFF (fun v s => mbCmd (v % 256) s)),
    (0x10, { rw w 8 x.eq (fun v s => { s with mbox := { s.mbox with eq := v } }) with
      ok := fun v => decide ((s.getEq v).ten = ownerTen) }),
    (0x18, ro max64 x.reject),
    (0x20, ro max64 x.startNs),
    (0x28, ro max64 x.endNs),
    (0x100, rw w 16 x.dataLen (fun v => mbIdle (fun x => { x with dataLen := min 32768 v })))]).map Reg.strict

/-! ### LICHEN (R169 to R176) -/

/-- The present engine's registers of a window. -/
def licReg (s : State) (m : Master) (n o : Nat) : Option Reg :=
  let e := s.eng n
  let r := e.reg
  let p := decide (m = .prity)
  let set (f : Nat → LicReg → LicReg) (v : Nat) (s : State) : State := s.updEng n (fun e => { e with reg := f v e.reg })
  let lay (w v : Nat) (f : Nat → LicReg → LicReg) : Reg :=
    { rw p w v (set f) with pol := 2 ^ w - 1, ok := fun _ => decide (r.limit ≤ r.base) }
  if 0x58 ≤ o ∧ o ≤ 0xD0 then some (frozenCnt (licBase n + o) s).strict
  else if 0x1000 ≤ o ∧ o < 0x1800 then
    let f := (o - 0x1000) / 0x20
    let z := Tab.get ({} : Frz) e.frz f
    let upd (g : Frz → Frz) (s : State) : State :=
      s.updEng n (fun e => { e with frz := Tab.set {} e.frz f (g (Tab.get {} e.frz f)) })
    (pickReg (o % 0x20) [
      (0x00, { rw p 50 z.base (fun v => upd (fun z => { z with base := v })) with pol := 2 ^ 50 - 1 }),
      (0x08, { rw p 43 z.lines (fun v => upd (fun z => { z with lines := v })) with pol := 2 ^ 43 - 1 }),
      (0x10, {
        val := z.state + fld 2 13 z.keyid + fld 32 32 z.gen
        fields := 0xFFFFFFFF00007FFF, mask := if p then 0x7FFF else 0, own := true
        put := fun v s =>
          let dst := v % 4
          let a := frzAddr n f + 0x10
          let moves := decide (dst ≠ z.state ∧ dst ≠ 3)
          if moves ∧ !s.frzMoves f dst then permFault a s
          else
            let kid := bits 2 13 v
            let s := if kid = z.keyid then s
              else policyWrite m a (z.state + fld 2 13 kid + fld 32 32 z.gen) true (upd (fun z => { z with keyid := kid })) s
            if moves then (frzWrite f dst s).2 else s }),
      (0x18, ro max64 (z.fill + fld 43 21 z.fails))]).map Reg.strict
  else if 0x1800 ≤ o then
    let i := (o - 0x1800) / 0x20
    let z := Tab.get ({} : Phome) e.phome i
    let upd (g : Phome → Phome) (s : State) : State :=
      s.updEng n (fun e => { e with phome := Tab.set {} e.phome i (g (Tab.get {} e.phome i)) })
    let m2 := 2 ^ 63 + (2 ^ 47 - 1)
    (pickReg (o % 0x20) [
      (0x00, { rw p 50 z.base (fun v => upd (fun z => { z with base := v })) with pol := 2 ^ 50 - 1 }),
      (0x08, { rw p 43 z.lines (fun v => upd (fun z => { z with lines := v })) with pol := 2 ^ 43 - 1 }),
      (0x10, { rw p 64 z.word (fun v => upd (fun z => { z with slot := v % 2 ^ 47, valid := bit1 63 v })) with
        fields := m2, mask := (if p then m2 else 0), pol := m2 })]).map Reg.strict
  else (pickReg o [
    (0x00, {
      val := fld 2 1 (b2n r.ownerPcf) + fld 3 1 (b2n r.pfEn) + fld 4 7 r.pfDist
      fields := 0x7FF, mask := if p then 0x7FF else if m = .pf then 0x7F8 else 0, gated := if p then 0 else 7
      pol := 0x7FC
      put := fun v s =>
        let s := set (fun v r => { r with ownerPcf := bit1 2 v, pfEn := bit1 3 v, pfDist := bits 4 7 v }) v s
        let s := if bit1 0 v then advance n (licInit n s) else s
        if bit1 1 v then advance n (licFlush n s) else s }),
    (0x08, ro 0xFFF (b2n r.initBusy + fld 1 1 (b2n r.initDone) + fld 2 1 (b2n e.flushBusy) +
      fld 3 1 (b2n (r.cfgErr s.straps.tagSb)) + fld 4 7 e.mergeHeld + fld 11 1 (b2n s.straps.tagSb))),
    (0x10, lay 50 r.base (fun v r => { r with base := v })),
    (0x18, { lay 50 r.limit (fun v r => { r with limit := v }) with ok := fun _ => true }),
    (0x20, lay 10 (r.waysLog2 + fld 2 3 r.way + fld 5 5 r.granLog2)
      (fun v r => { r with waysLog2 := v % 4, way := bits 2 3 v, granLog2 := bits 5 5 v })),
    (0x28, lay 43 r.memLines (fun v r => { r with memLines := v })),
    (0x30, lay 43 r.dataLines (fun v r => { r with dataLines := v })),
    (0x38, lay 43 r.tagBase (fun v r => { r with tagBase := v })),
    (0x40, lay 43 r.ctrBase (fun v r => { r with ctrBase := v })),
    (0x48, ro 0xFFFFFFFF r.poisonCnt),
    (0x50, ro (0xFF00000000000000 + (2 ^ 51 - 1)) (r.failAddr + fld 50 1 (b2n r.failPool) + fld 56 8 r.failSt))]).map Reg.strict

/-! ### TIDE (R197 to R200) -/

/-- A PACE value in its order, no rate 0 (R198). -/
def paceOk (v : Nat) : Bool :=
  let b := bits 0 7 v
  let x := bits 8 7 v
  let n := bits 16 7 v
  decide (n ≤ b ∧ b ≤ x ∧ 0 < n)

def tideReg (s : State) (m : Master) (o : Nat) : Option Reg :=
  let t := s.tide
  let p := decide (m = .prity)
  if 0x100 ≤ o ∧ o < 0x500 then
    let n := (o - 0x100) / 0x80
    let z := s.tslice n
    let put (g : Nat → Slice → Slice) (v : Nat) (s : State) : State := s.setSlice n (g v (s.tslice n))
    let iv (v : Nat) (g : Nat → Slice → Slice) : Reg := { rw p 47 v (put g) with ok := fun _ => decide (z.kind = 0) }
    let k := o % 0x80
    if 0x38 ≤ k ∧ k ≤ 0x50 then some (frozenCnt (sliceBase n + k) s).strict
    else (pickReg k [
      (0x00, ro 0xFFFFFFFFF (z.kind + fld 2 1 (b2n z.held) + fld 3 5 z.job + fld 8 13 z.keyid + fld 21 8 z.moor + fld 29 7 z.rate)),
      (0x08, ro (2 ^ 47 - 1) z.tideLine),
      (0x10, iv z.localFirst (fun v z => { z with localFirst := v })),
      (0x18, iv z.localEnd (fun v z => { z with localEnd := v })),
      (0x20, iv z.poolFirst (fun v z => { z with poolFirst := v })),
      (0x28, iv z.poolEnd (fun v z => { z with poolEnd := v })),
      (0x30, { iv (z.oldBerth + fld 16 16 z.newBerth + fld 32 10 (s.inFlight n))
          (fun v z => { z with oldBerth := bits 0 16 v, newBerth := bits 16 16 v }) with
        fields := 2 ^ 42 - 1, mask := (if p then 0xFFFFFFFF else 0) })]).map Reg.strict
  else if 0x800 ≤ o ∧ o < 0x900 then
    let j := s.job ((o - 0x800) / 0x10)
    (pickReg (o % 0x10) [
      (0x00, ro (2 ^ 41 - 1) (j.state + fld 2 2 j.kind + fld 4 13 j.keyid + fld 17 8 j.moor + fld 25 8 j.mask + fld 33 8 j.done)),
      (0x08, ro max64 j.start)]).map Reg.strict
  else
    let active := (List.range 8).foldl (fun a n => a + (if (s.tslice n).kind = 0 then 0 else 2 ^ n)) 0
    (pickReg o [
      (0x00, ro 0xFF1F ((t.jobs.filter (fun j => decide (j.2.state ≠ 0))).length % 32 + fld 8 8 active)),
      (0x08, {
        val := t.basePct + fld 8 7 t.maxPct + fld 16 7 t.minPct + fld 24 4 t.pressPrio + fld 28 4 t.qlvlHi
        fields := 0xFF7F7F7F, mask := if p ∨ m = .pf then 0xFF7F7F7F else 0, pol := 0xFF7F7F7F, ok := paceOk
        put := fun v s => { s with tide := { s.tide with
          basePct := bits 0 7 v, maxPct := bits 8 7 v, minPct := bits 16 7 v, pressPrio := bits 24 4 v
          qlvlHi := bits 28 4 v } } }),
      (0x10, ro 0xFFFF t.scrubBerth),
      (0x18, ro max64 (s.count (tideBase + 0x18)))]).map Reg.strict

/-! ### QUAY (R243 to R248) -/

def SessState.code : SessState → Nat
  | .closed => 0 | .opened => 1 | .migrating => 2 | .revoking => 3 | .broken => 4

/-- SESS_INFO of an index on a quay: zero where it is not homed there (R247). -/
def State.sessInfo (s : State) (q i : Nat) : Nat :=
  let x := s.getSess i
  if x.state = .closed ∨ x.quay ≠ q then 0
  else x.state.code + fld 3 9 x.ten + fld 12 1 (b2n x.gw) + fld 13 2 (x.txGen % 4) + fld 15 2 (x.rxGen % 4) + fld 17 8 x.cause +
    fld 25 24 x.dest + fld 49 12 x.peerSess

def quayReg (s : State) (m : Master) (q o : Nat) : Option Reg :=
  let x := s.getQuay q
  let pf := decide (m = .pf)
  let p := decide (m = .prity)
  let both := pf || p
  let inj := x.injStaged
  let put (g : Nat → Quay → Quay) (v : Nat) (s : State) : State := s.updQuay q (g v)
  let migr := match s.migr with | some (a, b) => decide (a = q ∨ b = q) | none => false
  let run := (List.range 4).foldl (fun a k => a + (if (x.getStrand k).state = .running then 2 ^ k else 0)) 0
  if 0x100 ≤ o ∧ o ≤ 0x1C0 then some (frozenCnt (quayBase q + o) s).strict
  else (pickReg o [
    (0x00, {
      val := x.spare + fld 4 1 (b2n x.gwEn) + fld 5 4 x.retxLimit + fld 9 6 x.rotLog2 + fld 15 8 x.ackDelay + fld 23 5 x.ackEvery
      fields := 0xFFFFFFF, mask := if both then 0xFFFFFFF else 0, own := true, put := fun v => quayCtrl m q v }),
    (0x08, ro (2 ^ 48 - 1) (b2n x.linkUp + fld 1 1 (b2n migr) + fld 2 13 (s.homed q).length +
      fld 15 12 (2048 - s.reasmUsed q) + fld 27 12 (2048 - s.replayUsed q) + fld 39 5 x.gw.length + fld 44 4 run)),
    (0x10, { rw p 24 x.addr (put (fun v x => { x with addr := v })) with pol := 0xFFFFFF }),
    (0x20, {
      val := b2n inj.dropEn + fld 1 1 (b2n inj.corrEn) + fld 2 1 (b2n inj.reordEn) + fld 3 4 inj.depth + fld 7 6 inj.types +
        fld 13 1 (b2n x.injActive)
      fields := 0x3FFF, mask := if pf then 0x1FFF else 0, pol := 0x1FFF
      put := put (fun v x => { x with injActive := false, injStaged := { x.injStaged with
        dropEn := bit1 0 v, corrEn := bit1 1 v, reordEn := bit1 2 v, depth := bits 3 4 v, types := bits 7 6 v } }) }),
    (0x28, { rw pf 48 (inj.drop + fld 16 16 inj.corr + fld 32 16 inj.reord) (put (fun v x =>
        { x with injActive := false, injStaged := { x.injStaged with
          drop := bits 0 16 v, corr := bits 16 16 v, reord := bits 32 16 v } })) with
      pol := 2 ^ 48 - 1 }),
    (0x30, { rw pf 32 x.injSeed (put (fun v x => { x with injSeed := v })) with pol := 0xFFFFFFFF }),
    (0x40, rw both 12 x.sessSel (put (fun v x => { x with sessSel := v }))),
    (0x48, ro (2 ^ 61 - 1) (s.sessInfo q x.sessSel))]).map Reg.strict

/-! ### REDUCE (R276 to R279) -/

def redReg (s : State) (m : Master) (o : Nat) : Option Reg :=
  let r := s.red
  let x := s.getSlot r.slotSel
  let both := decide (m = .pf ∨ m = .prity)
  if 0x100 ≤ o ∧ o ≤ 0x160 then some (frozenCnt (redBase + o) s).strict
  else (pickReg o [
    (0x00, { rw both 5 (r.pfChunks + fld 4 1 (b2n r.arrivalEn)) (fun v s =>
        { s with red := { s.red with pfChunks := bits 0 4 v, arrivalEn := bit1 4 v } }) with
      pol := 0x1F, ok := fun v => decide (1 ≤ bits 0 4 v ∧ bits 0 4 v ≤ 8) }),
    (0x08, ro (2 ^ 33 - 1) (s.slotsArmed + fld 11 6 (32 - s.accUsed) + fld 17 16 s.frmHeld)),
    (0x40, rw both 10 r.slotSel (fun v s => { s with red := { s.red with slotSel := v } })),
    (0x48, ro (2 ^ 47 - 1) (slotInfo0 x)),
    (0x50, ro max64 (slotInfo1 x)),
    (0x58, ro (2 ^ 47 - 1) (slotInfo2 x))]).map Reg.strict

/-! ### EVENT (R541 to R544) -/

def EvTarget.word (t : EvTarget) : Nat := t.eq + fld 8 1 (b2n t.en)
def evTargetOf (v : Nat) : EvTarget := { eq := bits 0 8 v, en := bit1 8 v }

/-- BANK: DEPTH, TOP and FAULT (R541). -/
def Bank.word (b : Bank) : Nat := b.stack.length + fld 5 4 (b.stack.headD 0) + fld 9 1 (b2n b.fault)

def EvQueue.ctrl (q : EvQueue) : Nat :=
  q.size + fld 5 4 q.prio + fld 9 11 q.coalCnt + fld 20 11 q.coalTime + fld 31 1 (b2n q.en) + fld 32 9 q.ten +
    fld 41 2 (match q.arm with | .armed => 0 | .ready => 1 | .disarmed => 2) + fld 43 1 (b2n q.overflow)

/-- The words of an event queue's entry (R542), `a` their address, for a writer of its world; `at'` gives the
addresses under which refused writes count. -/
def eqWord (may : Bool) (a j k : Nat) (s : State) : Option Reg :=
  let q := s.getEq j
  pickReg k [
    (0x00, { rw may 64 q.base (fun v s => s.updEq j (fun q => { q with base := v })) with ok := fun _ => !q.en }),
    (0x08, {
      val := q.ctrl, fields := 2 ^ 44 - 1, mask := if may then 0xFFFFFFFF else 0, own := true
      put := fun v => eqCtrlWrite a j v }),
    (0x10, rw may 64 q.msiAddr (fun v s => s.updEq j (fun q => { q with msiAddr := v }))),
    (0x18, rw may 32 q.msiData (fun v s => s.updEq j (fun q => { q with msiData := v }))),
    (0x20, {
      val := q.head + fld 16 16 q.tail + fld 32 32 q.ovf, mask := if may then 0xFFFF else 0, own := true
      put := fun v => headWrite a j (v % 0x10000) }),
    (0x28, ro 0xFFFF q.pend)]

def eventReg (s : State) (m : Master) (o : Nat) : Option Reg :=
  let e := s.ev
  let pf := decide (m = .pf)
  let p := decide (m = .prity)
  let upd (f : Nat → EvUnit → EvUnit) (v : Nat) (s : State) : State := { s with ev := f v s.ev }
  let mine : Nat → Bool := fun v => decide ((s.getEq (v % 256)).ten = ownerTen)
  if 0x100 ≤ o ∧ o < 0x180 then
    let c := (o - 0x100) / 0x20
    (pickReg (o % 0x20) [
      (0x00, ro 0xFFFFFFFF (Tab.get 0 e.hmPend c)),
      (0x08, wo p 0x10F1F (fun v s =>
        if bit1 16 v then bankResetWrite c s
        else if bits 8 4 v ≠ 0 then eoiWrite c (bits 8 4 v) s
        else takeWrite c (v % 32) s)),
      (0x10, ro 0x3FF (s.getBank c).word),
      (0x18, wo p 0x1F (fun v => raiseWrite c (v % 32)))]).map Reg.strict
  else if 0x400 ≤ o ∧ o < 0xA00 then
    let i := (o - 0x400) / 8
    some { rw pf 9 (Tab.get ({} : EvTarget) e.ownerSw i).word (upd (fun v e =>
        { e with ownerSw := Tab.set {} e.ownerSw i (evTargetOf v) })) with ok := mine }.strict
  else if 0x1000 ≤ o ∧ o < 0x5000 then
    let j := (o - 0x1000) / 0x40
    let q := s.getEq j
    let own := decide (q.ten = ownerTen)
    let tenBits := fld 32 9 0x1FF
    (eqWord (pf && own) (evBase + o) j (o % 0x40) s).map (fun r =>
      let r := if pf ∧ !own then { r with vis := if o % 0x40 = 8 then tenBits + fld 31 1 1 else 0 } else r
      if p ∧ o % 0x40 = 8 then
        { r with
          mask := tenBits, gated := 0xFFFFFFFF, own := false
          put := fun v s => s.updEq j (fun q => { q with ten := bits 32 9 v }) }
      else r.strict)
  else if 0x6000 ≤ o ∧ o ≤ 0x6048 then some (frozenCnt (evBase + o) s).strict
  else (pickReg o [
    (0x00, { rw pf 1 (b2n e.gdis) (upd (fun v e => { e with gdis := bit1 0 v })) with pol := 1 }),
    (0x08, ro 0x1FF e.store.length),
    (0x10, { rw (pf && !e.privWritten) 8 e.privEq (upd (fun v e => { e with privEq := v, privWritten := true })) with
      fields := if pf then 0 else 0xFF, pol := 0xFF, ok := mine }),
    (0x18, { rw pf 9 e.ownerAsync.word (upd (fun v e => { e with ownerAsync := evTargetOf v })) with ok := mine }),
    (0x20, ro 0x3FF (s.getBank 4).word),
    (0x28, wo pf 0xF (fun v => eoiWrite 4 (v % 16))),
    (0x30, onlyBit pf (bankResetWrite 4)),
    (0x38, wo pf 0xFFFFFFFF00000FFF (fun v => swDb m v)),
    (0x200, rw p 64 e.prio0 (upd (fun v e => { e with prio0 := v }))),
    (0x208, rw p 64 e.prio1 (upd (fun v e => { e with prio1 := v }))),
    (0x210, rw p 64 e.route (upd (fun v e => { e with route := v })))]).map Reg.strict

/-! ### BWATER (R559 to R563) -/

def BwCtrl.word (c : BwCtrl) : Nat := c.qlvlThr + fld 4 4 c.throttle + fld 8 8 c.starve

/-- The words of a class entry (R561). -/
def BwClass.word (x : BwClass) (k : Nat) : Nat :=
  if k = 0 then x.base + fld 63 1 (b2n x.en)
  else if k = 8 then x.limit
  else x.target + fld 20 4 x.prio + fld 24 1 (b2n x.res) + fld 25 7 x.maxPct + fld 32 4 x.alpha

def BwClass.withWord (x : BwClass) (k v : Nat) : BwClass :=
  if k = 0 then { x with base := v % 2 ^ 51, en := bit1 63 v }
  else if k = 8 then { x with limit := v % 2 ^ 51 }
  else { x with target := bits 0 20 v, prio := bits 20 4 v, res := bit1 24 v, maxPct := bits 25 7 v, alpha := bits 32 4 v }

/-- A staged entry that R561 accepts. -/
def BwClass.fine (x : BwClass) : Bool :=
  decide (100 ≤ x.target ∧ x.target ≤ 1000000 ∧ x.maxPct ≤ 100 ∧ 2 ≤ x.alpha ∧ x.alpha ≤ 10 ∧ x.base % 4096 = 0 ∧
    x.limit % 4096 = 0) && (!x.en || decide (x.base < x.limit))

def bwFields (k : Nat) : Nat := if k = 0 then 2 ^ 63 + (2 ^ 51 - 1) else if k = 8 then 2 ^ 51 - 1 else 2 ^ 36 - 1

/-- A BWATER change is PREPARED at this member (R559). -/
def State.bwPrepared (s : State) : Bool := match s.fed.prepared with | some c => decide (c.kind = 3) | none => false

def bwaterReg (s : State) (m : Master) (o : Nat) : Option Reg :=
  let b := s.bw
  let pf := decide (m = .pf)
  if 0x1000 ≤ o ∧ o < 0x2000 then
    let c := (o % 0x800) / 0x20
    let k := o % 0x20
    let live := decide (0x1800 ≤ o)
    let x := Tab.get ({} : BwClass) (if live then b.cls else b.staged) c
    if k = 0x18 then (if live then some (ro 1 (b2n (s.resOk c))).strict else none)
    else if live then some (ro (bwFields k) (x.word k)).strict
    else
      let f := if c = 63 ∧ k ≠ 0x10 then 0 else bwFields k
      some { val := x.word k, fields := f, mask := if pf then f else 0, pol := bwFields k
             ok := fun v => (x.withWord k v).fine && !s.bwPrepared
             put := fun v s =>
               let y := (Tab.get ({} : BwClass) s.bw.staged c).withWord k v
               { s with bw := { s.bw with staged := Tab.set {} s.bw.staged c y } } : Reg }.strict
  else if 0x4000 ≤ o ∧ o < 0x8000 then
    let n := (o - 0x4000) / 0x800
    let c := (o % 0x800) / 0x10
    if 64 ≤ c then none
    else if o % 0x10 = 8 then some (frozenCnt (bwBase + o) s).strict
    else
      let r := s.bwReg n c
      some (ro 0xFFFFFFFF0F7FFFFF (min 2097151 (r.avg / 16) + fld 21 2 r.level + fld 24 4 (s.classPrio n c) +
        fld 32 32 (r.samples % 2 ^ 32))).strict
  else if 0x8000 ≤ o ∧ o < 0x8200 then
    if o % 0x40 ≤ 0x18 then some (frozenCnt (bwBase + o) s).strict else none
  else (pickReg o [
    (0x00, { rw pf 16 b.ctrlStaged.word (fun v s => { s with bw := { s.bw with
      ctrlStaged :=
        { qlvlThr := bits 0 4 v, throttle := bits 4 4 v, starve := bits 8 8 v } } }) with
      pol := 0xFFFF, ok := fun v => decide (bits 8 8 v ≠ 0) && !s.bwPrepared }),
    (0x08, ro 0xFFFF b.ctrl.word),
    (0x10, onlyBit pf (bwApply m)),
    (0x18, ro 1 (b2n (decide (b.ctrlStaged ≠ b.ctrl ∨ b.staged ≠ b.cls)))),
    (0x9000, ro max64 (s.count (bwBase + 0x9000)))]).map Reg.strict

end Sys2Proof.Machine
end

