-- ==== Sys2Proof/Machine/RegMgmt.lean ====
section
/-! DEFINITION. The control space's SOUND, KEYLC, FED, AUDIT and FAULT blocks, QCTL, BOLLARD and the mooring
windows (R275, R340 to R342, R409, R448 to R451, R516, R517, R543, R605 to R608, R618). -/

namespace Sys2Proof.Machine

/-! ### SOUND (R275, R606) -/

/-- Clock settings of 16 islands from one on; an absent island reads 0 (R275). -/
def State.clkSet (s : State) (first : Nat) : Nat :=
  (List.range 16).foldl (fun a i =>
    a + (if first + i < 27 ∧ s.hasIsland (first + i) then (s.getIsland (first + i)).clk % 16 * 16 ^ i else 0)) 0

def soundReg (s : State) (m : Master) (o : Nat) : Option Reg :=
  let x := s.sound
  let pf := decide (m = .pf)
  let upd (f : Nat → Sound → Sound) (v : Nat) (s : State) : State := { s with sound := f v s.sound }
  if 0x100 ≤ o ∧ o < 0x1D8 then some (ro 0xFFF ((s.getIsland ((o - 0x100) / 8)).temp % 4096)).strict
  else if 0x240 ≤ o ∧ o < 0x260 then
    let i := (o - 0x240) / 8
    some { rw pf 64 (Tab.get 0 x.declared i) (upd (fun v x => { x with declared := Tab.set 0 x.declared i v })) with
      frz := true, pol := max64 }.strict
  else if o = 0x210 ∨ o = 0x220 ∨ o = 0x228 ∨ o = 0x230 then some (frozenCnt (soundBase + o) s).strict
  else (pickReg o [
    (0x00, {
      val := b2n x.view + fld 2 1 (b2n x.armAt) + fld 3 1 (b2n x.gtrigEn), fields := 0xF, mask := if pf then 0xF else 0
      put := upd (fun v x =>
        { x with view := bit1 0 v, held := x.held && !bit1 1 v, armAt := bit1 2 v, gtrigEn := bit1 3 v }) }),
    (0x08, ro 0xFFFFFFFF00000001 (b2n x.held + fld 32 32 x.snapSeq)),
    (0x10, rw pf 64 x.freezeAt (upd (fun v x => { x with freezeAt := v }))),
    (0x18, ro max64 x.snapNs),
    (0x20, ro max64 x.missed),
    (0x28, ro max64 x.tbBack),
    (0x1E0, { rw pf 12 x.thermLim (upd (fun v x => { x with thermLim := v })) with pol := 0xFFF }),
    (0x200, ro max64 (s.clkSet 0)),
    (0x208, ro (2 ^ 44 - 1) (s.clkSet 16)),
    (0x218, ro 0xFFFF x.pwrCap),
    (0x238, { ro max64 x.clearNs with frz := true }),
    (0x260, onlyBit pf (reproClear m)),
    (0x400, { rw pf 64 x.otBase (upd (fun v x => { x with otBase := v })) with ok := fun _ => !x.otEn }),
    (0x408, { rw pf 6 (x.otSize + fld 5 1 (b2n x.otEn)) (fun v s =>
        if bit1 5 v ∧ !s.sound.otEn then
          let s := traceFlush 256 (traceFlush 256 s)
          { s with sound := { s.sound with otSize := bits 0 5 v, otEn := true, otHead := 0, otTail := 0 } }
        else { s with sound := { s.sound with otSize := bits 0 5 v, otEn := bit1 5 v } }) with
      ok := fun v => !x.otEn || decide (bits 0 5 v = x.otSize) }),
    (0x410, rw pf 32 x.otHead (upd (fun v x => { x with otHead := v }))),
    (0x418, ro 0xFFFFFFFF x.otTail),
    (0x420, ro max64 x.otDrop)]).map Reg.strict

/-! ### KEYLC (R448 to R451) -/

/-- OTP words that OTP_DATA shows as zero (R417). -/
def rootSecretWord (i : Nat) : Bool := decide ((0x10 ≤ i ∧ i < 0x18) ∨ (0x19 ≤ i ∧ i < 0x21))

/-- The fields of BERTH_VIEW and BERTH_STAGE (R450). -/
def berthFields : Nat := fld 0 30 max64 + fld 32 2 3 + fld 40 8 0xFF + fld 48 7 0x7F + fld 56 3 7 + fld 60 3 7

def keyReg (s : State) (m : Master) (o : Nat) : Option Reg :=
  let k := s.keys
  let b := s.getBerth k.berthSel
  let pf := decide (m = .pf)
  let p := decide (m = .prity)
  let both := pf || p
  let upd (f : Nat → KeyUnit → KeyUnit) (v : Nat) (s : State) : State := { s with keys := f v s.keys }
  if 0x200 ≤ o ∧ o < 0x300 then
    some { rw p 64 0 (upd (fun v k => { k with
      kdfCtx :=
        (List.range 8).foldl (fun t i => Tab.set 0 t (o - 0x200 + i) ((leBytes 8 v).getD i 0)) k.kdfCtx })) with
      deny := pf }.strict
  else if o = 0x420 then some { ro max64 s.memBerths with frz := true }.strict
  else if 0x400 ≤ o ∧ o ≤ 0x430 then some (frozenCnt (keyBase + o) s).strict
  else (pickReg o [
    (0x00, ro (2 ^ 37 - 1) s.lcStatus),
    (0x10, rw pf 7 k.otpSel (upd (fun v k => { k with otpSel := v }))),
    (0x18, ro max64 (if rootSecretWord k.otpSel then 0 else s.otpWord k.otpSel)),
    (0x20, ro 0x1F ((match s.ent.state with | .startup => 0 | .ok => 1 | .retry => 2 | .failed => 3) +
      fld 2 2 (min 3 s.ent.fails) + fld 4 1 (b2n s.drbgReady))),
    (0x100, rw both 16 k.berthSel (upd (fun v k => { k with berthSel := v }))),
    (0x108, ro berthFields (b.attr b.state.code)),
    (0x110, { rw p 64 k.stage (upd (fun v k => { k with stage := v })) with
      fields := berthFields, mask := if p then berthFields else 0 }),
    (0x118, wo p (2 ^ 34 - 1) (fun v =>
      let c := (berthCmdOf v).op
      berthCmd (if 1 ≤ c ∧ c ≤ 6 then some c else none) v)),
    (0x120, ro 0xFF01 (fld 8 8 k.status)),
    (0x300, rw both 13 k.kmapSel (upd (fun v k => { k with kmapSel := v }))),
    (0x308, {
      val := (s.getKmap k.kmapSel).word, fields := 2 ^ 41 - 1, mask := if p then 2 ^ 41 - 1 else 0, own := true
      put := kmapWrite })]).map Reg.strict

/-! ### FED (R409, R410, R516, R517) -/

def FedState.code : FedState → Nat
  | .alone => 0 | .pkgJoining => 1 | .package => 2 | .domJoining => 3 | .member => 4 | .faulted => 5

/-- No owner-world session is OPEN (R516). -/
def State.noOwnerSess (s : State) : Bool := !s.sess.any (fun x => decide (x.2.state = .opened ∧ x.2.ten = ownerTen))

/-- A pool route's session is owner-world, and it overlaps no other route (R409). -/
def State.routeOk (s : State) (r : Nat) (x : Proute) : Bool :=
  !x.valid ||
    (decide ((s.getSess x.sess).ten = ownerTen) &&
      !s.fed.reg.proute.any (fun p => decide (p.1 ≠ r ∧ p.2.valid = true ∧ p.2.base < x.limit ∧ x.base < p.2.limit)))

def Proute.word (x : Proute) (k : Nat) : Nat :=
  if k = 0 then x.base + fld 63 1 (b2n x.valid) else if k = 8 then x.limit else if k = 0x10 then x.sess else x.rline

def Proute.withWord (x : Proute) (k v : Nat) : Proute :=
  if k = 0 then { x with base := v % 2 ^ 50, valid := bit1 63 v }
  else if k = 8 then { x with limit := v } else if k = 0x10 then { x with sess := v } else { x with rline := v }

def routeFields (k : Nat) : Nat :=
  if k = 0 then 2 ^ 63 + (2 ^ 50 - 1) else if k = 8 then 2 ^ 50 - 1 else if k = 0x10 then 0xFFF else 2 ^ 43 - 1

/-- Byte offset in a relay window of an offset in the FED block (R516): its first 4 KiB stand at `a`, the rest
at `b`. -/
def relayAt (a b o : Nat) : Option Nat :=
  if a ≤ o ∧ o < a + 0x1000 then some (o - a)
  else if b ≤ o ∧ o < b + 0x3000 then some (o - b + 0x1000)
  else none

def fedReg (s : State) (m : Master) (o : Nat) : Option Reg :=
  let f := s.fed
  let r := f.reg
  let x := s.getMoor r.msel
  let pf := decide (m = .pf)
  let p := decide (m = .prity)
  let upd (g : Nat → FedReg → FedReg) (v : Nat) (s : State) : State := updFed (fun f => { f with reg := g v f.reg }) s
  let n := if s.isAnchor then f.queue.length else 0
  if 0x28 ≤ o ∧ o < 0x58 then some (ro max64 (wordAt (o - 0x28) (Tab.get [] f.members r.memberSel))).strict
  else if 0x100 ≤ o ∧ o < 0x200 then some (ro max64 (wordAt (o - 0x100) f.mode)).strict
  else if (0x400 ≤ o ∧ o ≤ 0x438) ∨ (0x4900 ≤ o ∧ o ≤ 0x4948) then some (frozenCnt (fedBase + o) s).strict
  else if 0x4000 ≤ o ∧ o < 0x4800 then
    let i := (o - 0x4000) / 0x20
    let k := o % 0x20
    let y := Tab.get ({} : Proute) r.proute i
    let w := routeFields k
    some { val := y.word k, fields := w, mask := if p then w else 0, pol := w
           ok := fun v => s.routeOk i (y.withWord k v)
           put := upd (fun v r => { r with proute := Tab.set {} r.proute i ((Tab.get {} r.proute i).withWord k v) }) : Reg }.strict
  else match relayAt 0x1000 0x5000 o, relayAt 0x2000 0x8000 o with
  | some i, _ =>
    let old := (List.range 8).map (fun j => Tab.get 0 r.relayIn (i + j))
    some (rw pf 64 (leNat old) (upd (fun v r => { r with
    relayIn :=
      (List.range 8).foldl (fun t j => Tab.set 0 t (i + j) ((leBytes 8 v).getD j 0)) r.relayIn }))).strict
  | none, some i => some (ro max64 (wordAt i r.relayOut)).strict
  | none, none => (pickReg o [
    (0x00, {
      val := r.pkg + fld 11 1 (b2n r.anchor) + fld 12 12 r.fsess, fields := 0x1FFFFFF, mask := if pf then 0x1FFFFFF else 0
      own := true, put := fun v => fedCtrlWrite m v }),
    (0x08, ro 0x3FFFFFFF (f.state.code + fld 3 8 f.epoch + fld 11 1 (b2n f.prepared.isSome) + fld 12 1 (b2n s.straps.pilotSel) +
      fld 13 8 f.cause + fld 21 2 (if s.isAnchor then f.chgState else 0) + fld 23 7 n)),
    (0x10, rw pf 8 r.msel (upd (fun v r => { r with msel := v }))),
    (0x18, ro 0xFFFFFFFF (x.state.code + fld 3 12 (x.vf.getD 0) + fld 15 1 (b2n x.vf.isSome) + fld 16 8 x.adm.policy +
      fld 24 8 x.lastSt)),
    (0x20, rw pf 11 r.memberSel (upd (fun v r => { r with memberSel := v }))),
    (0x60, { rw pf 64 r.osBase (upd (fun v r => { r with osBase := v })) with ok := fun _ => s.noOwnerSess }),
    (0x68, { rw pf 1 (b2n r.osValid) (upd (fun v r => { r with osValid := bit1 0 v })) with ok := fun _ => s.noOwnerSess }),
    (0x200, {
      val := b2n r.outReady + fld 2 1 (b2n r.outLast) + fld 3 1 (b2n r.inLast) + fld 5 1 (b2n r.inFull) +
        fld 16 16 r.relayOut.length + fld 32 16 r.inLen
      fields := 0xFFFFFFFF003F, mask := if pf then 0xFFFF0000001A else 0, own := true
      put := fun v => relayCtrlWrite m v }),
    (0x4800, { rw p 64 (r.pstore.keyid + fld 63 1 (b2n r.pstore.valid)) (upd (fun v r =>
        { r with pstore := { r.pstore with keyid := v % 2 ^ 13, valid := bit1 63 v } })) with
      fields := 2 ^ 63 + 0x1FFF, mask := (if p then 2 ^ 63 + 0x1FFF else 0), pol := 2 ^ 63 + 0x1FFF }),
    (0x4808, { rw p 50 r.pstore.base (upd (fun v r => { r with pstore := { r.pstore with base := v } })) with
      pol := 2 ^ 50 - 1 }),
    (0x4810, { rw p 43 r.pstore.lines (upd (fun v r => { r with pstore := { r.pstore with lines := v } })) with
      pol := 2 ^ 43 - 1 })]).map Reg.strict

/-! ### AUDIT (R598, R599, R607) -/

def auditReg (s : State) (m : Master) (o : Nat) : Option Reg :=
  let a := s.audit
  let pf := decide (m = .pf)
  let upd (f : Nat → Audit → Audit) (v : Nat) (s : State) : State := { s with audit := f v s.audit }
  if 0x1000 ≤ o ∧ o < 0x1800 then
    let i := (o - 0x1000) / 8
    let may := (pf && decide (32 ≤ i)) || (decide (m = .prity) && decide (i < 8))
    some { val := Tab.get 0 a.preg i, mask := if may then max64 else 0, own := true, put := fun v => pregWrite m i v : Reg }.strict
  else if 0x1800 ≤ o ∧ o < 0x2000 then some (ro 0x1FFFF (Tab.get 0 a.wear ((o - 0x1800) / 8))).strict
  else (pickReg o [
    (0x00, ro 0x7FF (a.buf.length + fld 9 1 (b2n a.chainErr) + fld 10 1 (b2n a.unkeyed))),
    (0x08, ro max64 a.headSeq),
    (0x10, { rw pf 64 a.mirBase (upd (fun v a => { a with mirBase := v })) with ok := fun _ => !a.mirEn }),
    (0x18, { rw pf 6 (a.mirSize + fld 5 1 (b2n a.mirEn)) (upd (fun v a =>
        if bit1 5 v ∧ !a.mirEn then { a with mirSize := bits 0 5 v, mirEn := true, mirHead := 0, mirTail := 0 }
        else { a with mirSize := bits 0 5 v, mirEn := bit1 5 v })) with
      pol := 0x3F, ok := fun v => !a.mirEn || decide (bits 0 5 v = a.mirSize) }),
    (0x20, {
      val := a.mirHead + fld 16 16 a.mirTail, fields := 0xFFFFFFFF, mask := if pf then 0xFFFF else 0
      put := upd (fun v a => { a with mirHead := v % 0x10000 }) }),
    (0x28, ro max64 a.mirDrop),
    (0x30, ro 0xFFFF (a.pregIdx + fld 8 8 a.pregSt))]).map Reg.strict

/-! ### FAULT (R604, R605) -/

/-- HB*i*.BUSY (R564): the engine holds a work item it has not completed. -/
def State.hbBusy (s : State) (i : Nat) : Bool :=
  let x := s.getIsland i
  if x.fenced ∨ x.iso then false
  else if i < 8 then !(s.eng i).ops.isEmpty || (s.eng i).lanes.any (fun l => !l.2.jobs.isEmpty)
  else if i < 24 then !s.quayDrained (i - 8) || decide (0 < s.reasmUsed (i - 8))
  else if i = 24 then !s.domDrained 24
  else if i = 25 then s.mbox.busy
  else !s.ev.store.isEmpty

/-- Prity's debug services are served (R604). -/
def State.debugOn (s : State) : Bool := s.debugEn && bit1 0 (leNat (slice 16 8 s.fed.mode))

def faultReg (s : State) (m : Master) (o : Nat) : Option Reg :=
  let f := s.fault
  let w := s.fw
  let pf := decide (m = .pf)
  let upd (g : Nat → FaultUnit → FaultUnit) (v : Nat) (s : State) : State := { s with fault := g v s.fault }
  let limit : Nat → Bool := fun v => decide (1 ≤ v ∧ v ≤ 100000)
  let bankSt := match (Tab.get ({} : FwBank) w.banks (if w.run = 0 then 0 else 1 - w.bank)).state with
    | .empty => 0 | .loading => 1 | .verified => 2
  let mask (g : Nat → Bool) : Nat := (List.range 27).foldl (fun a i => a + (if g i then 2 ^ i else 0)) 0
  if 0x100 ≤ o ∧ o < 0x210 then
    let d := (o - 0x100) / 8
    some (ro 3 (if s.domNamed d then s.domState d else 0)).strict
  else if 0x300 ≤ o ∧ o ≤ 0x340 then some (frozenCnt (faultBase + o) s).strict
  else if 0x400 ≤ o ∧ o < 0x4D8 then
    let i := (o - 0x400) / 8
    some (ro 0x1FFFFFFFF ((s.getIsland i).hbCount + fld 32 1 (b2n (s.hbBusy i)))).strict
  else if 0x1000 ≤ o ∧ o < 0x1020 then some (ro max64 (if s.debugOn then Tab.get 0 f.corePc ((o - 0x1000) / 8) else 0)).strict
  else if 0x1800 ≤ o ∧ o < 0x2800 then
    let b := (List.range 8).map (fun j => Tab.get 0 f.logRing (o - 0x1800 + j))
    some (ro max64 (if s.debugOn then leNat b else 0)).strict
  else (pickReg o [
    (0x00, wo pf 0x3F (fun v => fenceWrite m (v % 64))),
    (0x08, wo pf 0x3F (fun v => releaseDomain (v % 64))),
    (0x10, ro 0x3FFF (f.relStatus + fld 8 6 f.relDom)),
    (0x18, { rw pf 17 f.drainLimit (upd (fun v f => { f with drainLimit := v })) with pol := 0x1FFFF, ok := limit }),
    (0x20, { rw pf 17 f.dumpLimit (upd (fun v f => { f with dumpLimit := v })) with pol := 0x1FFFF, ok := limit }),
    (0x28, ro 0xFFFFFFFF0000FF7F (b2n f.safe + fld 1 1 (b2n (decide (s.mode = .keeper))) + fld 2 1 w.bank + fld 3 2 w.run +
      fld 5 2 bankSt + fld 8 8 (if w.run = 0 then 0 else w.svn) + fld 32 32 f.dumpSeq)),
    (0x30, ro (2 ^ 27 - 1) (mask (fun i => (s.getIsland i).bistFail))),
    (0x38, ro (2 ^ 27 - 1) (mask (fun i => decide ((s.getIsland i).bistRun ≠ 0)))),
    (0x40, { rw pf 64 f.odumpBase (upd (fun v f => { f with odumpBase := v })) with pol := max64 }),
    (0x48, { rw pf 32 f.odumpSize (upd (fun v f => { f with odumpSize := v })) with pol := 0xFFFFFFFF })]).map Reg.strict

/-! ### QCTL and BOLLARD (R340, R341) -/

def SubQueue.ctrl (x : SubQueue) : Nat := x.size + fld 5 8 x.eq + fld 13 4 x.quay

def qctlReg (s : State) (m : Master) (j k : Nat) : Option Reg :=
  let x := s.getQueue j
  let pf := decide (m = .pf)
  let own := decide (x.ten = ownerTen)
  let may := pf && own
  let a := qctlBase j + k
  let tenBits := fld 17 9 0x1FF
  let free (ten : Nat) : Bool := match tenMoor ten with
    | none => true
    | some t => decide ((s.getMoor t).state = .free)
  let tail (w : Nat) : Nat := if may then w else 0
  let see (v : Nat) : Nat := if pf ∧ !own then v else max64
  pickReg k [
    (0x00, {
      val := x.base, vis := see 0, mask := tail max64, gated := if may then 0 else max64, own := true
      put := queueBaseWrite a j }),
    (0x08, {
      val := x.ctrl + fld 17 9 x.ten + fld 26 1 (b2n x.en) + fld 27 1 (b2n x.stopped) + fld 28 8 x.stopSt
      fields := 2 ^ 36 - 1, vis := see (tenBits + fld 26 2 3)
      mask := if may then 0x401FFFF else if m = .prity then tenBits else 0
      gated := if may then tenBits else if m = .prity then 0x401FFFF else 0x7FFFFFF
      own := may
      ok := fun v => free x.ten && free (bits 17 9 v)
      put := fun v s =>
        if may then queueCtrlWrite a j (bits 0 5 v) (bits 5 8 v) (bits 13 4 v) (bit1 26 v) s
        else s.updQueue j (fun x => { x with ten := bits 17 9 v }) }),
    (0x10, {
      val := x.head + fld 16 16 x.tail, fields := 0xFFFFFFFF, vis := see 0, mask := tail 0xFFFF0000
      gated := if may then 0 else 0xFFFF0000, own := true
      put := fun v => doorbellWrite j (bits 16 16 v) }),
    (0x18, ro 0x1FFFFFFFF (x.progress + fld 32 1 (b2n (decide (x.head ≠ x.tail) || decide (0 < x.running + x.fetched.length)))))]

def bollReg (s : State) (m : Master) (b k : Nat) : Option Reg :=
  let x := s.getBoll b
  let v := if m = .pf ∧ x.ten ≠ ownerTen then 0 else max64
  pickReg k [
    (0x0, { ro 0 x.value with vis := v }),
    (0x8, { ro 0 (x.state + fld 2 9 x.ten + fld 11 20 x.signaller + fld 31 1 (b2n x.noSig) + fld 32 17 x.obj) with vis := v })]

/-! ### The mooring window (R342, R543, R608, R618) -/

/-- The bollard that BSEL names, where it is one of the mooring's with a matching generation (R342). -/
def State.bselOf (s : State) (t : Nat) : Option Bollard :=
  let h := (s.getMoor t).win.bsel
  let o := s.getObj (handleIdx h)
  if s.handleLive h ∧ o.typ = .bollard ∧ o.ten = t then some (s.getBoll o.boll) else none

/-- A register of a queue that the window names by an index: at or above the mooring's count it reads zero, and
writes to it are ignored and counted (R342, R543). -/
def outOfRange (r : Reg) : Reg := { r with val := 0, vis := 0, own := false, ok := fun _ => false }

def winReg (s : State) (m : Master) (t o : Nat) : Option Reg :=
  let a := (s.getMoor t).adm
  let w := (s.getMoor t).win
  let base := winBase t
  let upd (f : Nat → MoorWin → MoorWin) (v : Nat) (s : State) : State := s.updWin t (f v)
  let mine : Nat → Bool := fun v => decide ((s.getEq (v % 256)).ten = t)
  let j := a.qFirst + w.qsel
  let x := s.getQueue j
  let qr (r : Reg) : Reg := if w.qsel < a.qCount then r else outOfRange r
  let er (r : Reg) : Reg := if w.eqsel < a.eqCount then r else outOfRange r
  let eq (k : Nat) : List (Nat × Reg) := match eqWord true (base + o) (a.eqFirst + w.eqsel) k s with
    | some r => [(o, er r)]
    | none => []
  if o < 0x800 then
    let k := o / 8
    let r : Reg := wo true 0xFFFF (fun v => doorbellWrite (a.qFirst + k) (v % 0x10000))
    some (if k < a.qCount then r else outOfRange r)
  else if o < 0x1000 then
    let k := (o - 0x800) / 8
    let x := s.getQueue (a.qFirst + k)
    some (ro 0 (if k < a.qCount then x.head + fld 16 16 x.tail + fld 32 32 x.progress else 0))
  else if o = 0x1808 then (eq 0).head?.map (·.2)
  else if o = 0x1810 then (eq 8).head?.map (·.2)
  else if o = 0x1818 then (eq 0x10).head?.map (·.2)
  else if o = 0x1820 then (eq 0x18).head?.map (·.2)
  else if o = 0x1828 then some (ro 0 (if w.eqsel < a.eqCount then fld 32 32 (s.getEq (a.eqFirst + w.eqsel)).ovf else 0))
  else if 0x1900 ≤ o ∧ o < 0x1970 then
    let i := (o - 0x1900) / 8
    some { rw true 9 (Tab.get ({} : EvTarget) w.sw i).word (upd (fun v w =>
      { w with sw := Tab.set {} w.sw i (evTargetOf v) })) with ok := mine }
  else if 0x2000 ≤ o ∧ o < 0x2800 then
    let k := (o - 0x2000) / 8
    let q := s.getEq (a.eqFirst + k)
    let r : Reg := {
      val := q.head + fld 16 16 q.tail, fields := 0xFFFFFFFF, mask := 0xFFFF, own := true
      put := fun v => headWrite (base + o) (a.eqFirst + k) (v % 0x10000) }
    some (if k < a.eqCount then r else outOfRange r)
  else if 0x3000 ≤ o ∧ o ≤ 0x3058 then some (frozenCnt (base + o) s)
  else pickReg o [
    (0x1000, rw true 8 w.qsel (upd (fun v w => { w with qsel := v }))),
    (0x1008, qr { val := x.base, mask := max64, own := true, put := queueBaseWrite (base + o) j }),
    (0x1010, qr {
      val := x.ctrl + fld 17 1 (b2n x.en) + fld 18 1 (b2n x.stopped) + fld 19 8 x.stopSt, fields := 0x7FFFFFF, mask := 0x3FFFF
      own := true
      put := fun v => queueCtrlWrite (base + o) j (bits 0 5 v) (bits 5 8 v) (bits 13 4 v) (bit1 17 v) }),
    (0x1018, ro 0 (a.qFirst + fld 12 9 a.qCount + fld 32 32 w.dbErr)),
    (0x1020, ro 0 (a.ctxLog2 + fld 32 32 w.rangeCnt)),
    (0x1100, wo true 0xFFFFFFFF07FFFFFF (allocDbWrite t)),
    (0x1108, ro 0 (b2n w.allocPending + fld 2 8 w.allocSt + fld 32 32 w.allocHandle)),
    (0x1110, ro 0 w.allocAddr),
    (0x1200, rw true 32 w.bsel (upd (fun v w => { w with bsel := v }))),
    (0x1208, ro 0 (match s.bselOf t with | some b => b.value | none => 0)),
    (0x1210, ro 0 (match s.bselOf t with | some b => b.state + fld 2 1 1 | none => 0)),
    (0x1800, rw true 8 w.eqsel (upd (fun v w => { w with eqsel := v }))),
    (0x1830, ro 0 (a.eqFirst + fld 8 9 a.eqCount)),
    (0x1838, { rw true 9 w.async.word (upd (fun v w => { w with async := evTargetOf v })) with ok := mine }),
    (0x1840, ro 0 (s.getBank (8 + t)).word),
    (0x1848, wo true 0xF (fun v => eoiWrite (8 + t) (v % 16))),
    (0x1850, onlyBit true (bankResetWrite (8 + t))),
    (0x1858, wo true 0xFFFFFFFF00000FFF (fun v => evDb m v)),
    (0x2800, rw true 1 (b2n w.view) (upd (fun v w => { w with view := bit1 0 v }))),
    (0x2808, ro 0 (b2n s.sound.held + fld 32 32 s.sound.snapSeq)),
    (0x2810, ro 0 s.sound.snapNs),
    (0x2818, { rw true 32 w.trHead (upd (fun v w => { w with trHead := v })) with ok := fun v => decide (v < a.traceKib * 32) }),
    (0x2820, ro 0 w.trTail),
    (0x2828, ro 0 w.trDrop),
    (0x2830, ro 0 w.dumpSeq),
    (0x2838, { rw true 21 (b2n w.replay + fld 1 20 w.replayCtx) (fun v => replayEnable m v) with own := true })]

end Sys2Proof.Machine
end

