-- ==== Sys2Proof/Machine/Regs.lean ====
section
/-! DEFINITION. Register accesses (R19 to R21, R34 to R37, R87 to R90, R609 to R613), and the mailbox commands
that come in an SPDM session (R460). -/

namespace Sys2Proof.Machine

/-- The place in the control space that an access reaches: for a virtual function its mooring's window; none
for an access without a world, and for one of the owner or the vendor world to a mooring's window (R33, R34, R88). -/
def State.reach (s : State) (m : Master) (a : Nat) : Option Nat :=
  match m with
  | .vf n t => if a < 0x4000 then (s.vfMoor n t).map (fun w => winBase w + a) else none
  | _ => if a < 0x400000 then some a else none

/-- The reserved ranges (R609). -/
def reservedRange (a : Nat) : Bool := decide ((0x0F0000 ≤ a ∧ a < 0x100000) ∨ (0x140000 ≤ a ∧ a < 0x400000))

/-- The engine whose part of a block an address lies in: its own window, or an index of TIDE or BWATER (R612). -/
def engineOf (a : Nat) : Option Nat :=
  if 0x020000 ≤ a ∧ a < 0x030000 then some ((a - 0x020000) / 0x2000)
  else if tideBase + 0x100 ≤ a ∧ a < tideBase + 0x500 then some ((a - tideBase - 0x100) / 0x80)
  else if bwBase + 0x4000 ≤ a ∧ a < bwBase + 0x8000 then some ((a - bwBase - 0x4000) / 0x800)
  else if bwBase + 0x8000 ≤ a ∧ a < bwBase + 0x8200 then some ((a - bwBase - 0x8000) / 0x40)
  else none

/-- A register of an isolated island, or of an absent engine (R90, R612). -/
def State.unreachable (s : State) (a : Nat) : Bool :=
  s.isolated (islandOf a) || (match engineOf a with | some n => !s.hasEng n | none => false)

/-- The register at an 8-byte place of the control space; none for an RSVD offset. -/
def State.regAt (s : State) (m : Master) (a : Nat) : Option Reg :=
  let o := a % 0x10000
  if a < 0x010000 then identReg s o
  else if a < 0x020000 then mboxReg s m o
  else if a < 0x030000 then licReg s m (o / 0x2000) (o % 0x2000)
  else if a < 0x040000 then tideReg s m o
  else if a < 0x050000 then quayReg s m (o / 0x1000) (o % 0x1000)
  else if a < 0x060000 then redReg s m o
  else if a < 0x070000 then eventReg s m o
  else if a < 0x080000 then bwaterReg s m o
  else if a < 0x090000 then soundReg s m o
  else if a < 0x0A0000 then keyReg s m o
  else if a < 0x0B0000 then fedReg s m o
  else if a < 0x0C0000 then auditReg s m o
  else if a < 0x0D0000 then faultReg s m o
  else if a < 0x0F0000 then qctlReg s m ((a - 0x0D0000) / 0x20) (a % 0x20)
  else if a < 0x100000 then none
  else if a < 0x140000 then bollReg s m ((a - 0x100000) / 0x10) (a % 0x10)
  else if a < 0x400000 then none
  else winReg s m ((a - 0x400000) / 0x4000) (a % 0x4000)

/-- An access of 32 or 64 bits is naturally aligned (R87). -/
def misaligned (a : Nat) (wide : Bool) : Bool := decide (a % (if wide then 8 else 4) ≠ 0)

/-- The bits of a register's word that an access covers. -/
def accessBits (a : Nat) (wide : Bool) : Nat :=
  if wide then max64 else if a % 8 = 0 then 0xFFFFFFFF else 0xFFFFFFFF00000000

/-- The written value in its place in the word. -/
def accessData (a : Nat) (wide : Bool) (d : Nat) : Nat :=
  if wide then d % 2 ^ 64 else if a % 8 = 0 then d % 2 ^ 32 else d % 2 ^ 32 * 2 ^ 32

/-- The word that a write asks for: the old one where the access does not reach. -/
def Reg.want (r : Reg) (a : Nat) (wide : Bool) (d : Nat) : Nat :=
  r.val &&& (max64 - accessBits a wide) ||| accessData a wide d &&& accessBits a wide

/-- The word after a write: fields that the master may not write keep their value (R20). -/
def Reg.merge (r : Reg) (want : Nat) : Nat := r.val &&& (max64 - r.mask) ||| want &&& r.mask

/-- The write changes a field that the master may not write (R20). -/
def Reg.refuses (r : Reg) (want : Nat) : Bool := decide ((r.val ^^^ want) &&& r.gated ≠ 0)

/-- Apply a write to a register that its access reaches. -/
def regApply (m : Master) (a : Nat) (r : Reg) (wide : Bool) (d : Nat) (s : State) : State :=
  let want := r.want a wide d
  let new := r.merge want
  let hit := decide (r.mask &&& accessBits a wide ≠ 0)
  let reg := a / 8 * 8
  if hit && !r.own && !r.ok new then permFault a s
  else if hit && r.own then
    let t := r.put new s
    if r.refuses want && decide (t.count (permAddr a) = s.count (permAddr a)) then permFault a t else t
  else
    let s := if r.refuses want then permFault a s else s
    if !hit then s
    else if r.pol ≠ 0 then policyWrite m reg new (decide ((r.val ^^^ new) &&& r.pol ≠ 0)) (r.put new) s
    else r.put new s

/-- A register write (R20, R87 to R90, R595, R610, R612). -/
def regWrite (m : Master) (a : Nat) (wide : Bool) (d : Nat) (s : State) : State :=
  if s.auditFull then s
  else if misaligned a wide then bump (faultBase + 0x310) s
  else match s.reach m a with
    | none => permFault 0 s
    | some b =>
      if reservedRange b then bump (faultBase + 0x310) s
      else if s.unreachable b then bump (faultBase + 0x318) s
      else match s.regAt m (b / 8 * 8) with
        | none => s
        | some r => regApply m b r wide d s

/-- A register shows its shadow to a master (R587). -/
def State.shadowed (s : State) (m : Master) : Bool :=
  s.sound.held && (match m with
    | .prity => false
    | .pf => s.sound.view
    | .vf n t => match s.vfMoor n t with | some w => (s.getMoor w).win.view | none => false)

/-- The value that a register shows to a master (R587). -/
def Reg.shown (r : Reg) (m : Master) (a : Nat) (s : State) : Nat :=
  (if r.frz && s.shadowed m then Tab.get 0 s.shadow a else r.val) &&& r.vis

/-- A register read: its value, and the state after it (R19, R37, R87, R90, R610, R612). -/
def regRead (m : Master) (a : Nat) (wide : Bool) (s : State) : Nat × State :=
  if misaligned a wide then (0, bump (faultBase + 0x310) s)
  else match s.reach m a with
    | none => (0, permFault 0 s)
    | some b =>
      if reservedRange b then (0, s)
      else if s.unreachable b then (0, bump (faultBase + 0x318) s)
      else match s.regAt m (b / 8 * 8) with
        | none => (0, s)
        | some r =>
          if r.deny then (0, permFault b s)
          else
            let v := r.shown m (b / 8 * 8) s
            (if wide then v else if b % 8 = 0 then v % 2 ^ 32 else bits 32 32 v, s)

/-- REGISTER_WRITE (R19, R20). -/
def execRegisterWrite (x : Access) (s : State) : Out := run (regWrite x.m x.addr x.wide x.data) s

/-- REGISTER_READ (R37, R90). The host register port accepts no request while the audit buffer is full (R595);
Prity's reads are made inside the block and leave it by no port. -/
def registerRead (x : Access) (s : State) : State :=
  if x.m = .prity then (regRead x.m x.addr x.wide s).2
  else if s.auditFull then s
  else
    let r := regRead x.m x.addr x.wide s
    emit (.hrRsp x.tag r.1) r.2

/-- REGISTER_READ. -/
def execRegisterRead (x : Access) (s : State) : Out := live (registerRead x) s

/-- VENDOR_MBOX (R334, R460): a mailbox command that arrives in an owner's session on the sideband. -/
def execVendorMbox (h : SpdmHdr) (r : MboxReq) (s : State) : Out := run (vendorMbox mbCmd h r) s

end Sys2Proof.Machine
end

