-- ==== Sys2Proof/Machine/StrandRows.lean ====
section
/-! DEFINITION. The rows of the strands' instructions: the quay issues the instruction at a strand's PC, where its
opcode is the row's (R346, R351). -/

namespace Sys2Proof.Machine

/-- Issue an instruction of an opcode. -/
def insRow (op quay strand : Nat) (f : Nat → Nat → Nat → State → State) (s : State) : Out :=
  run (issue quay strand (fun x => x = op) (f quay strand)) s

/-- IFETCH_LINE_RETURN (R348). -/
def execIfetchLineReturn (quay : Nat) (s : State) : Out := run (ifetchLineReturn quay) s

/-- NOP_INSTRUCTION (R357). -/
def execNopInstruction (quay strand : Nat) (s : State) : Out := insRow 0x00 quay strand insNop s

/-- HALT (R376). -/
def execHalt (quay strand : Nat) (s : State) : Out := insRow 0x01 quay strand insHalt s

/-- TRAP (R376). -/
def execTrap (quay strand : Nat) (s : State) : Out := insRow 0x02 quay strand insTrap s

/-- BR (R358). -/
def execBr (quay strand : Nat) (s : State) : Out := insRow 0x03 quay strand insBr s

/-- BEQ (R358). -/
def execBeq (quay strand : Nat) (s : State) : Out := insRow 0x04 quay strand insBeq s

/-- BNE (R358). -/
def execBne (quay strand : Nat) (s : State) : Out := insRow 0x05 quay strand insBne s

/-- BLT (R358). -/
def execBlt (quay strand : Nat) (s : State) : Out := insRow 0x06 quay strand insBlt s

/-- LOOP (R359). -/
def execLoop (quay strand : Nat) (s : State) : Out := insRow 0x07 quay strand insLoop s

/-- ENDL (R359). -/
def execEndl (quay strand : Nat) (s : State) : Out := insRow 0x08 quay strand insEndl s

/-- MOVI (R357). -/
def execMovi (quay strand : Nat) (s : State) : Out := insRow 0x10 quay strand insMovi s

/-- ADDI (R357). -/
def execAddi (quay strand : Nat) (s : State) : Out := insRow 0x11 quay strand insAddi s

/-- ADD (R357). -/
def execAdd (quay strand : Nat) (s : State) : Out := insRow 0x12 quay strand insAdd s

/-- SUB (R357). -/
def execSub (quay strand : Nat) (s : State) : Out := insRow 0x13 quay strand insSub s

/-- AND (R357). -/
def execAnd (quay strand : Nat) (s : State) : Out := insRow 0x14 quay strand insAnd s

/-- OR (R357). -/
def execOr (quay strand : Nat) (s : State) : Out := insRow 0x15 quay strand insOr s

/-- XOR (R357). -/
def execXor (quay strand : Nat) (s : State) : Out := insRow 0x16 quay strand insXor s

/-- SHL (R357). -/
def execShl (quay strand : Nat) (s : State) : Out := insRow 0x17 quay strand insShl s

/-- SHR (R357). -/
def execShr (quay strand : Nat) (s : State) : Out := insRow 0x18 quay strand insShr s

/-- LD (R360). -/
def execLd (quay strand : Nat) (s : State) : Out := insRow 0x19 quay strand insLd s

/-- ST (R360). -/
def execSt (quay strand : Nat) (s : State) : Out := insRow 0x1A quay strand insSt s

/-- COPY_INSTRUCTION (R361). -/
def execCopyInstruction (quay strand : Nat) (s : State) : Out := insRow 0x20 quay strand insCopy s

/-- PUT (R364). -/
def execPut (quay strand : Nat) (s : State) : Out := insRow 0x21 quay strand insPut s

/-- GET (R364). -/
def execGet (quay strand : Nat) (s : State) : Out := insRow 0x22 quay strand insGet s

/-- SEND (R362). -/
def execSend (quay strand : Nat) (s : State) : Out := insRow 0x23 quay strand insSend s

/-- RECV (R363). -/
def execRecv (quay strand : Nat) (s : State) : Out := insRow 0x24 quay strand insRecv s

/-- REDUCE (R365). -/
def execReduce (quay strand : Nat) (s : State) : Out := insRow 0x28 quay strand insArm s

/-- RFWD (R365). -/
def execRfwd (quay strand : Nat) (s : State) : Out := insRow 0x29 quay strand insArm s

/-- ATOM_INSTRUCTION (R368). -/
def execAtomInstruction (quay strand : Nat) (s : State) : Out := insRow 0x2C quay strand insAtom s

/-- WAITB (R370). -/
def execWaitb (quay strand : Nat) (s : State) : Out := insRow 0x30 quay strand insWaitb s

/-- SIGB (R371). -/
def execSigb (quay strand : Nat) (s : State) : Out := insRow 0x31 quay strand insSigb s

/-- RSIGB (R372). -/
def execRsigb (quay strand : Nat) (s : State) : Out := insRow 0x32 quay strand insRsigb s

/-- ALLOC_INSTRUCTION (R373). -/
def execAllocInstruction (quay strand : Nat) (s : State) : Out := insRow 0x38 quay strand insAlloc s

/-- FREE_INSTRUCTION (R374). -/
def execFreeInstruction (quay strand : Nat) (s : State) : Out := insRow 0x39 quay strand insFree s

/-- SEALLD (R375). -/
def execSealld (quay strand : Nat) (s : State) : Out := insRow 0x3A quay strand insSealld s

/-- TSTAMP (R376). -/
def execTstamp (quay strand : Nat) (s : State) : Out := insRow 0x3C quay strand insTstamp s

/-- FENCE_INSTRUCTION (R376). -/
def execFenceInstruction (quay strand : Nat) (s : State) : Out := insRow 0x3D quay strand insFence s

/-- RESERVED_INSTRUCTION (R350): a reserved opcode faults with E_ENCODING. -/
def execReservedInstruction (quay strand : Nat) (s : State) : Out :=
  run (issue quay strand opReserved (fun w => insFault quay strand w .eEncoding 0)) s

end Sys2Proof.Machine
end

