-- ==== Sys2Proof/Machine/Dispatch.lean ====
section
/-! DEFINITION. The meaning of each command: one arm per row of spec/opcode_table.json. -/

namespace Sys2Proof.Machine

/-- The effect of a command on everything but the queue. -/
def exec (i : Instr) (s : State) : Host.Outcome State Fault Refusal :=
  match i with
  | .releaseOfPorstNHm p => Sys2Proof.Machine.execReleaseOfPorstNHm p s
  | .dataPathIslandRelease island => Sys2Proof.Machine.execDataPathIslandRelease island s
  | .prityStartupDone bistFail => Sys2Proof.Machine.execPrityStartupDone bistFail s
  | .islandPowerRemoval island => Sys2Proof.Machine.execIslandPowerRemoval island s
  | .harbourmasterPowerRemoval => Sys2Proof.Machine.execHarbourmasterPowerRemoval s
  | .prityRestart ecc => Sys2Proof.Machine.execPrityRestart ecc s
  | .upstreamRequest engine lane r => Sys2Proof.Machine.execUpstreamRequest engine lane r s
  | .requestWithdrawal engine lane r => Sys2Proof.Machine.execRequestWithdrawal engine lane r s
  | .writeDataBeat engine lane data be => Sys2Proof.Machine.execWriteDataBeat engine lane data be s
  | .chainHandoff engine entry => Sys2Proof.Machine.execChainHandoff engine entry s
  | .downstreamIssue engine ready qlvl => Sys2Proof.Machine.execDownstreamIssue engine ready qlvl s
  | .downstreamReadResponse engine id data sb ue => Sys2Proof.Machine.execDownstreamReadResponse engine id data sb ue s
  | .downstreamWriteComplete engine id ue => Sys2Proof.Machine.execDownstreamWriteComplete engine id ue s
  | .lichenInit m engine => Sys2Proof.Machine.execLichenInit m engine s
  | .lichenFlush m engine => Sys2Proof.Machine.execLichenFlush m engine s
  | .frzStateWrite region state => Sys2Proof.Machine.execFrzStateWrite region state s
  | .rekeyStart => Sys2Proof.Machine.execRekeyStart s
  | .tideJobStart engine => Sys2Proof.Machine.execTideJobStart engine s
  | .tidePaceWindow engine => Sys2Proof.Machine.execTidePaceWindow engine s
  | .tideTurn engine => Sys2Proof.Machine.execTideTurn engine s
  | .flitPacket quay p => Sys2Proof.Machine.execFlitPacket quay p s
  | .frameStart quay => Sys2Proof.Machine.execFrameStart quay s
  | .receivedFrame quay frame bad framing => Sys2Proof.Machine.execReceivedFrame quay frame bad framing s
  | .releaseFrame sess => Sys2Proof.Machine.execReleaseFrame sess s
  | .ackDelayExpiry sess => Sys2Proof.Machine.execAckDelayExpiry sess s
  | .retransmission sess seq => Sys2Proof.Machine.execRetransmission sess seq s
  | .retransmissionLimit sess seq => Sys2Proof.Machine.execRetransmissionLimit sess seq s
  | .generationMove sess => Sys2Proof.Machine.execGenerationMove sess s
  | .rxKeyDerived sess => Sys2Proof.Machine.execRxKeyDerived sess s
  | .linkDown quay => Sys2Proof.Machine.execLinkDown quay s
  | .migrationMoveComplete sess => Sys2Proof.Machine.execMigrationMoveComplete sess s
  | .probeRepeat sess => Sys2Proof.Machine.execProbeRepeat sess s
  | .gwFlushTime quay sess => Sys2Proof.Machine.execGwFlushTime quay sess s
  | .quayCtrlWrite m quay value => Sys2Proof.Machine.execQuayCtrlWrite m quay value s
  | .sessionOpen => Sys2Proof.Machine.execSessionOpen s
  | .sessionClose => Sys2Proof.Machine.execSessionClose s
  | .sessionMigrate => Sys2Proof.Machine.execSessionMigrate s
  | .sessionRotate => Sys2Proof.Machine.execSessionRotate s
  | .operandArrival slot chunk => Sys2Proof.Machine.execOperandArrival slot chunk s
  | .chunkStoreDone slot chunk => Sys2Proof.Machine.execChunkStoreDone slot chunk s
  | .sqDoorbell m queue tail => Sys2Proof.Machine.execSqDoorbell m queue tail s
  | .ringFetch queue => Sys2Proof.Machine.execRingFetch queue s
  | .queueEnable m queue value => Sys2Proof.Machine.execQueueEnable m queue value s
  | .nop queue => Sys2Proof.Machine.execNop queue s
  | .objRegisterMemory queue => Sys2Proof.Machine.execObjRegisterMemory queue s
  | .objRegisterBollard queue => Sys2Proof.Machine.execObjRegisterBollard queue s
  | .objFree queue => Sys2Proof.Machine.execObjFree queue s
  | .objectReferencesZero obj => Sys2Proof.Machine.execObjectReferencesZero obj s
  | .copy queue => Sys2Proof.Machine.execCopy queue s
  | .programLaunch queue => Sys2Proof.Machine.execProgramLaunch queue s
  | .bollardSignalAdd queue => Sys2Proof.Machine.execBollardSignalAdd queue s
  | .bollardSignalReset queue => Sys2Proof.Machine.execBollardSignalReset queue s
  | .bollardWait queue => Sys2Proof.Machine.execBollardWait queue s
  | .alloc queue => Sys2Proof.Machine.execAlloc queue s
  | .free queue => Sys2Proof.Machine.execFree queue s
  | .sealLoad queue => Sys2Proof.Machine.execSealLoad queue s
  | .sealAbort queue => Sys2Proof.Machine.execSealAbort queue s
  | .regionRelease queue => Sys2Proof.Machine.execRegionRelease queue s
  | .keyUnwrap queue => Sys2Proof.Machine.execKeyUnwrap queue s
  | .queryContext queue => Sys2Proof.Machine.execQueryContext queue s
  | .contextRetire queue => Sys2Proof.Machine.execContextRetire queue s
  | .allocDbAlloc m value => Sys2Proof.Machine.execAllocDbAlloc m value s
  | .allocDbFree m value => Sys2Proof.Machine.execAllocDbFree m value s
  | .quoteInstance => Sys2Proof.Machine.execQuoteInstance s
  | .quotePackage => Sys2Proof.Machine.execQuotePackage s
  | .fwBegin => Sys2Proof.Machine.execFwBegin s
  | .fwData => Sys2Proof.Machine.execFwData s
  | .fwVerify => Sys2Proof.Machine.execFwVerify s
  | .fwActivate => Sys2Proof.Machine.execFwActivate s
  | .fwCommit => Sys2Proof.Machine.execFwCommit s
  | .fwRevert => Sys2Proof.Machine.execFwRevert s
  | .fwAbort => Sys2Proof.Machine.execFwAbort s
  | .imageReady => Sys2Proof.Machine.execImageReady s
  | .activateTimeout => Sys2Proof.Machine.execActivateTimeout s
  | .tenantAdmit => Sys2Proof.Machine.execTenantAdmit s
  | .tenantRemove => Sys2Proof.Machine.execTenantRemove s
  | .domainChangeCipher => Sys2Proof.Machine.execDomainChangeCipher s
  | .domainChangeDebug => Sys2Proof.Machine.execDomainChangeDebug s
  | .domainChangeBwater => Sys2Proof.Machine.execDomainChangeBwater s
  | .domainChangeInj => Sys2Proof.Machine.execDomainChangeInj s
  | .bistRun => Sys2Proof.Machine.execBistRun s
  | .bistComplete island pass => Sys2Proof.Machine.execBistComplete island pass s
  | .lcTransition => Sys2Proof.Machine.execLcTransition s
  | .eraseUserSecrets => Sys2Proof.Machine.execEraseUserSecrets s
  | .gen value => Sys2Proof.Machine.execGen value s
  | .derive value => Sys2Proof.Machine.execDerive value s
  | .zeroise value => Sys2Proof.Machine.execZeroise value s
  | .setState value => Sys2Proof.Machine.execSetState value s
  | .setMasters value => Sys2Proof.Machine.execSetMasters value s
  | .unwrap value => Sys2Proof.Machine.execUnwrap value s
  | .kmapWrite value => Sys2Proof.Machine.execKmapWrite value s
  | .entropySample sample => Sys2Proof.Machine.execEntropySample sample s
  | .entropyRetryExpiry => Sys2Proof.Machine.execEntropyRetryExpiry s
  | .nvResponse data err => Sys2Proof.Machine.execNvResponse data err s
  | .otpResponse data => Sys2Proof.Machine.execOtpResponse data s
  | .doeObject f dwords => Sys2Proof.Machine.execDoeObject f dwords s
  | .evErr f => Sys2Proof.Machine.execEvErr f s
  | .idekAck status => Sys2Proof.Machine.execIdekAck status s
  | .d2dMessage src msg => Sys2Proof.Machine.execD2dMessage src msg s
  | .gtrig => Sys2Proof.Machine.execGtrig s
  | .freezeAt => Sys2Proof.Machine.execFreezeAt s
  | .dftScanReq => Sys2Proof.Machine.execDftScanReq s
  | .dftBistStart island => Sys2Proof.Machine.execDftBistStart island s
  | .getVersion h => Sys2Proof.Machine.execGetVersion h s
  | .getCapabilities h => Sys2Proof.Machine.execGetCapabilities h s
  | .negotiateAlgorithms h => Sys2Proof.Machine.execNegotiateAlgorithms h s
  | .getDigests h => Sys2Proof.Machine.execGetDigests h s
  | .getCertificate h slot offset length => Sys2Proof.Machine.execGetCertificate h slot offset length s
  | .challenge h slot nonce => Sys2Proof.Machine.execChallenge h slot nonce s
  | .getMeasurements h index nonce => Sys2Proof.Machine.execGetMeasurements h index nonce s
  | .keyExchange h r => Sys2Proof.Machine.execKeyExchange h r s
  | .finish h verify => Sys2Proof.Machine.execFinish h verify s
  | .spdmHeartbeat h => Sys2Proof.Machine.execSpdmHeartbeat h s
  | .keyUpdate h both => Sys2Proof.Machine.execKeyUpdate h both s
  | .endSession h => Sys2Proof.Machine.execEndSession h s
  | .respondIfReady h => Sys2Proof.Machine.execRespondIfReady h s
  | .unsupportedRequest h code => Sys2Proof.Machine.execUnsupportedRequest h code s
  | .getObject h r => Sys2Proof.Machine.execGetObject h r s
  | .pqBind h ct => Sys2Proof.Machine.execPqBind h ct s
  | .setOwnerKey h hash => Sys2Proof.Machine.execSetOwnerKey h hash s
  | .vendorMbox h r => Sys2Proof.Machine.execVendorMbox h r s
  | .getTdispVersion h vf => Sys2Proof.Machine.execGetTdispVersion h vf s
  | .getTdispCapabilities h vf => Sys2Proof.Machine.execGetTdispCapabilities h vf s
  | .lockInterfaceRequest h vf stream noFwUpdate => Sys2Proof.Machine.execLockInterfaceRequest h vf stream noFwUpdate s
  | .getDeviceInterfaceReport h vf => Sys2Proof.Machine.execGetDeviceInterfaceReport h vf s
  | .getDeviceInterfaceState h vf => Sys2Proof.Machine.execGetDeviceInterfaceState h vf s
  | .startInterfaceRequest h vf nonce => Sys2Proof.Machine.execStartInterfaceRequest h vf nonce s
  | .stopInterfaceRequest h vf => Sys2Proof.Machine.execStopInterfaceRequest h vf s
  | .tdispUnsupported h vf => Sys2Proof.Machine.execTdispUnsupported h vf s
  | .ideKmQuery h port => Sys2Proof.Machine.execIdeKmQuery h port s
  | .keyProg h k => Sys2Proof.Machine.execKeyProg h k s
  | .kSetGo h k => Sys2Proof.Machine.execKSetGo h k s
  | .kSetStop h k => Sys2Proof.Machine.execKSetStop h k s
  | .form m value => Sys2Proof.Machine.execForm m value s
  | .joinReq => Sys2Proof.Machine.execJoinReq s
  | .joinRsp => Sys2Proof.Machine.execJoinRsp s
  | .relayInPush m value => Sys2Proof.Machine.execRelayInPush m value s
  | .relayOutTaken m => Sys2Proof.Machine.execRelayOutTaken m s
  | .heartbeat => Sys2Proof.Machine.execHeartbeat s
  | .hbAck => Sys2Proof.Machine.execHbAck s
  | .request => Sys2Proof.Machine.execRequest s
  | .prepare => Sys2Proof.Machine.execPrepare s
  | .prepAck => Sys2Proof.Machine.execPrepAck s
  | .prepNak => Sys2Proof.Machine.execPrepNak s
  | .commit => Sys2Proof.Machine.execCommit s
  | .abort => Sys2Proof.Machine.execAbort s
  | .drained => Sys2Proof.Machine.execDrained s
  | .fault => Sys2Proof.Machine.execFault s
  | .image => Sys2Proof.Machine.execImage s
  | .changeStart => Sys2Proof.Machine.execChangeStart s
  | .heartbeatTimer => Sys2Proof.Machine.execHeartbeatTimer s
  | .heartbeatLoss => Sys2Proof.Machine.execHeartbeatLoss s
  | .prepareTimeout => Sys2Proof.Machine.execPrepareTimeout s
  | .catchupTimeout => Sys2Proof.Machine.execCatchupTimeout s
  | .dieEntryTimeout => Sys2Proof.Machine.execDieEntryTimeout s
  | .drainWindowEnd mooring => Sys2Proof.Machine.execDrainWindowEnd mooring s
  | .lichenDrainEnd mooring => Sys2Proof.Machine.execLichenDrainEnd mooring s
  | .evDb m value => Sys2Proof.Machine.execEvDb m value s
  | .swDb m value => Sys2Proof.Machine.execSwDb m value s
  | .raise core src => Sys2Proof.Machine.execRaise core src s
  | .take core src => Sys2Proof.Machine.execTake core src s
  | .eqHeadWrite m queue head => Sys2Proof.Machine.execEqHeadWrite m queue head s
  | .eqEnable m queue value => Sys2Proof.Machine.execEqEnable m queue value s
  | .eoi m core prio => Sys2Proof.Machine.execEoi m core prio s
  | .bankReset m core => Sys2Proof.Machine.execBankReset m core s
  | .coalTimeExpiry queue => Sys2Proof.Machine.execCoalTimeExpiry queue s
  | .bankDelivery bank => Sys2Proof.Machine.execBankDelivery bank s
  | .eventRecordIssue => Sys2Proof.Machine.execEventRecordIssue s
  | .bwaterApply m => Sys2Proof.Machine.execBwaterApply m s
  | .starveExpiry engine op => Sys2Proof.Machine.execStarveExpiry engine op s
  | .capWindow engine => Sys2Proof.Machine.execCapWindow engine s
  | .fenceDomain m domain => Sys2Proof.Machine.execFenceDomain m domain s
  | .drainLimitExpiry domain => Sys2Proof.Machine.execDrainLimitExpiry domain s
  | .dumpWritten domain => Sys2Proof.Machine.execDumpWritten domain s
  | .dumpLimitExpiry domain => Sys2Proof.Machine.execDumpLimitExpiry domain s
  | .releaseDomain m domain => Sys2Proof.Machine.execReleaseDomain m domain s
  | .snapshotRelease m => Sys2Proof.Machine.execSnapshotRelease m s
  | .reproClear m => Sys2Proof.Machine.execReproClear m s
  | .traceGroupTimeout ring => Sys2Proof.Machine.execTraceGroupTimeout ring s
  | .pregWrite m index value => Sys2Proof.Machine.execPregWrite m index value s
  | .replayEnable m value => Sys2Proof.Machine.execReplayEnable m value s
  | .registerWrite a => Sys2Proof.Machine.execRegisterWrite a s
  | .ifetchLineReturn quay => Sys2Proof.Machine.execIfetchLineReturn quay s
  | .nopInstruction quay strand => Sys2Proof.Machine.execNopInstruction quay strand s
  | .halt quay strand => Sys2Proof.Machine.execHalt quay strand s
  | .trap quay strand => Sys2Proof.Machine.execTrap quay strand s
  | .br quay strand => Sys2Proof.Machine.execBr quay strand s
  | .beq quay strand => Sys2Proof.Machine.execBeq quay strand s
  | .bne quay strand => Sys2Proof.Machine.execBne quay strand s
  | .blt quay strand => Sys2Proof.Machine.execBlt quay strand s
  | .loop quay strand => Sys2Proof.Machine.execLoop quay strand s
  | .endl quay strand => Sys2Proof.Machine.execEndl quay strand s
  | .movi quay strand => Sys2Proof.Machine.execMovi quay strand s
  | .addi quay strand => Sys2Proof.Machine.execAddi quay strand s
  | .add quay strand => Sys2Proof.Machine.execAdd quay strand s
  | .sub quay strand => Sys2Proof.Machine.execSub quay strand s
  | .and quay strand => Sys2Proof.Machine.execAnd quay strand s
  | .or quay strand => Sys2Proof.Machine.execOr quay strand s
  | .xor quay strand => Sys2Proof.Machine.execXor quay strand s
  | .shl quay strand => Sys2Proof.Machine.execShl quay strand s
  | .shr quay strand => Sys2Proof.Machine.execShr quay strand s
  | .ld quay strand => Sys2Proof.Machine.execLd quay strand s
  | .st quay strand => Sys2Proof.Machine.execSt quay strand s
  | .copyInstruction quay strand => Sys2Proof.Machine.execCopyInstruction quay strand s
  | .put quay strand => Sys2Proof.Machine.execPut quay strand s
  | .get quay strand => Sys2Proof.Machine.execGet quay strand s
  | .send quay strand => Sys2Proof.Machine.execSend quay strand s
  | .recv quay strand => Sys2Proof.Machine.execRecv quay strand s
  | .reduce quay strand => Sys2Proof.Machine.execReduce quay strand s
  | .rfwd quay strand => Sys2Proof.Machine.execRfwd quay strand s
  | .atomInstruction quay strand => Sys2Proof.Machine.execAtomInstruction quay strand s
  | .waitb quay strand => Sys2Proof.Machine.execWaitb quay strand s
  | .sigb quay strand => Sys2Proof.Machine.execSigb quay strand s
  | .rsigb quay strand => Sys2Proof.Machine.execRsigb quay strand s
  | .allocInstruction quay strand => Sys2Proof.Machine.execAllocInstruction quay strand s
  | .freeInstruction quay strand => Sys2Proof.Machine.execFreeInstruction quay strand s
  | .sealld quay strand => Sys2Proof.Machine.execSealld quay strand s
  | .tstamp quay strand => Sys2Proof.Machine.execTstamp quay strand s
  | .fenceInstruction quay strand => Sys2Proof.Machine.execFenceInstruction quay strand s
  | .write quay => Sys2Proof.Machine.execWrite quay s
  | .read quay => Sys2Proof.Machine.execRead quay s
  | .atom quay => Sys2Proof.Machine.execAtom quay s
  | .signal quay => Sys2Proof.Machine.execSignal quay s
  | .poolRead quay => Sys2Proof.Machine.execPoolRead quay s
  | .poolWrite quay => Sys2Proof.Machine.execPoolWrite quay s
  | .writeAck quay => Sys2Proof.Machine.execWriteAck quay s
  | .readData quay => Sys2Proof.Machine.execReadData quay s
  | .atomRsp quay => Sys2Proof.Machine.execAtomRsp quay s
  | .signalRsp quay => Sys2Proof.Machine.execSignalRsp quay s
  | .poolData quay => Sys2Proof.Machine.execPoolData quay s
  | .poolAck quay => Sys2Proof.Machine.execPoolAck quay s
  | .linkUp quay => Sys2Proof.Machine.execLinkUp quay s
  | .islandIsolation island iso => Sys2Proof.Machine.execIslandIsolation island iso s
  | .islandClockThrottle island setting cap => Sys2Proof.Machine.execIslandClockThrottle island setting cap s
  | .registerRead a => Sys2Proof.Machine.execRegisterRead a s
  | .reservedInstruction quay strand => Sys2Proof.Machine.execReservedInstruction quay strand s
  | .coreTimerExpiry core => Sys2Proof.Machine.execCoreTimerExpiry core s
  | .dynamicAddressAssignment entdaa => Sys2Proof.Machine.execDynamicAddressAssignment entdaa s
  | .timebaseBackward ns => Sys2Proof.Machine.execTimebaseBackward ns s

end Sys2Proof.Machine
end

