-- ==== Sys2Proof/Machine/Tick.lean ====
section
/-! DEFINITION. What passes while no command waits: a tick of 5 ns, which is eight cycles of a 1.6 GHz island and
two of CLK_EVM. The table has no row for it (DESIGN CHOICE 3). -/

namespace Sys2Proof.Machine

/-- The cycle counters of an engine over a tick (R174, R563). -/
def tickEngine (n : Nat) (s : State) : State :=
  let e := s.eng n
  let b := bwBase + 0x8000 + 0x40 * n
  let s := if e.mergeHeld = 64 then bumpBy 8 (licBase n + 0xC8) s else s
  let s := if e.due.any (s.throttled n) then bumpBy 8 b s else s
  if e.due.any (s.capped n) then bumpBy 8 (b + 0x10) s else s

/-- A tick: the timebase advances, and the cycle counters count (R111, R174, R279, R544, R563); nothing is issued
on a port, and no timer ends. A block that does not run stands still. -/
def tick (s : State) : State :=
  if s.power ≠ .on then s
  else
    let s := { s with time := { s.time with ns := s.time.ns + 5, tick := s.time.tick + 1 } }
    let s := if s.ev.gdis then bumpBy 2 (evBase + 0x6040) s else s
    let s := if 32 ≤ s.accUsed then bumpBy 8 (redBase + 0x158) s else s
    settle (s.engines.foldl (fun s n => tickEngine n s) s)

end Sys2Proof.Machine
end

