-- ==== Sys2Proof/Safety.lean ====
section
/-! DEFINITION. What a safe run is: no step stops; and the invariant that every step keeps. -/

namespace Sys2Proof

/-- A step goes on. -/
def Goes (s : Machine.State) : Prop := ∃ t, Machine.step s = .next t

/-- The block runs on through `n` steps from a state. -/
def Safe : Nat → Machine.State → Prop
  | 0, _ => True
  | n + 1, s => ∃ t, Machine.step s = .next t ∧ Safe n t

namespace Machine

/-- The event counters stand in their canonical form, by rising address with no zero listed, and none has passed the
largest 64-bit value (R174, R585). -/
def countersOk (t : Tab Nat) : Prop := Tab.wf 0 t = true ∧ ∀ p ∈ t, p.2 ≤ max64

/-- The invariant of the block: its counters hold (R174, R585), sixteen token failures have locked LC_TRANSITION
(R441), and a granted scan has closed the OTP gate (R120). -/
structure Inv (s : State) : Prop where
  counters : countersOk s.cnt
  tokens   : 16 ≤ s.lc.tokenFails → s.lc.tokenLock = true
  scan     : s.fault.scanAck = true → s.keys.gate = false

end Machine

end Sys2Proof
end

