-- ==== Sys2Proof/Certificates/Slice0/Obligations.lean ====
section
/-! DEFINITION. The statements for the provers. Each names the rules of spec/ it rests on. Where a command is
followed by work of the block's own, the statement gives the command's own effect, and `settle` is what follows
by itself. -/

open Sys2Proof Sys2Proof.Machine

namespace Sys2Proof.Claims

/-- The mailbox accepts a command: it is idle, the audit buffer has room, the life-cycle state is one of those
allowed, Prity runs and no transition is PENDING (R335 to R338, R442, R447). -/
def MbReady (lc : List Nat) (s : State) : Prop :=
  s.power = .on ∧ s.auditFull = false ∧ s.mbox.busy = false ∧ lc.contains s.lcState = true ∧ s.fw.up = true ∧
    s.lc.pending = false

/-- The state in which an accepted mailbox command runs: BUSY, its code and serial, the time, and per-processor
source 2 (R335, R519). -/
def mbOn (code : Nat) (s : State) : State :=
  raiseHm 2 { s with mbox := { s.mbox with
    busy := true, code := code, serial := (s.mbox.serial + 1) % 2 ^ 32, startNs := s.now } }

/-- A lane that has taken a request under a new serial: a write waits for its beats (R56, R59). -/
def laneTook (n lane : Nat) (r : UpReq) (s : State) : State :=
  updLane n lane (fun l => if r.writes then
    { l with beats := l.beats ++ (List.range (r.lines + 1)).map (fun i => (s.serial, i)) } else l)
    { s with serial := s.serial + 1 }

/-- Queue `q` with command `c` taken from its front, and the command traced (R294, R302). -/
def qTaken (q : Nat) (c : QCmd) (s : State) : State :=
  trace (s.getQueue q).ten 1 (qUnit (s.getQueue q).quay c) c.opcode .ok c.ctx c.user q
    { s.setQueue q { s.getQueue q with
        fetched := (s.getQueue q).fetched.drop 1, running := (s.getQueue q).running + 1 } with rrQueue := q }

/-- The operation of a command that passed its decode, under a new number: the objects it names are referred to while it
runs (R299, R313). -/
def qBegun (q : Nat) (c : QCmd) (n : QNeeds) (body : Body) (s : State) : Nat × State :=
  startOp { own := .queue q c.idx c.user c.quiet, ten := (s.getQueue q).ten, ctx := c.ctx, code := c.opcode
            body := body
            refs := match body with
              | .objFree _ => []
              | _ => (n.all.map (fun h => handleIdx h.1)).filter (· ≠ 0)
            compl := n.compl
            counted := match body with | .retire t _ => decide (t ≠ c.ctx) | _ => true } (qTaken q c s)

/-- A queue's front command that may start, of an opcode, and that passes every check of its decode (R298). -/
def QStarts (q : Nat) (c : QCmd) (opcode : Nat) (n : QNeeds) (s : State) : Prop :=
  s.power = .on ∧ s.front q = some c ∧ c.opcode = opcode ∧
    qDecode (s.getQueue q).ten c n (qTaken q c s) = (.ok, false)

/-- Strand `k` of a running quay `q` issues the word `w`: it is its turn, `w` stands at its PC, and a session that `w` names
does not migrate (R345, R346, R350). -/
def Issues (q k w : Nat) (s : State) : Prop :=
  s.power = .on ∧ s.runs (8 + q) = true ∧ s.closedDom (8 + q) = false ∧ s.strandTurn q k = true ∧
    s.insWord q k = some w ∧
    ∀ i, insSession (s.getStrand q k) w = some i → i < 4096 → (s.getSess i).state ≠ .migrating

/-- The state in which an issued instruction runs: its strand issued last, its line was used last, and the quay's
heartbeat counts it (R346, R348, R564). -/
def issued (q k : Nat) (s : State) : State :=
  beat (8 + q) (icUse q k (s.updQuay q (fun y => { y with rrStrand := k })))

/-- A general register as bits: g0 reads zero (R343). -/
def gReg (x : Strand) (i : Nat) : BitVec 64 := if i = 0 then 0 else Tab.get 0 x.g i

/-- IMM of a word, sign-extended (R357). -/
def gImm (w : Nat) : BitVec 64 := (BitVec.ofNat 32 w).signExtend 64

/-- X of R357: gB, or IMM where I is 1. -/
def gX (x : Strand) (w : Nat) : BitVec 64 := if w.testBit 43 then gImm w else gReg x (w / 2 ^ 44 % 16)

/-- Strand `k` of quay `q` after gD took a value: a write of g0 is discarded, and the PC stands at the next word (R343,
R357). -/
def gSet (q k d : Nat) (v : BitVec 64) (u : State) : State :=
  (if d = 0 then u else u.updStrand q k (fun x => { x with g := Tab.set 0 x.g d v })).updStrand q k
    (fun x => { x with pc := (x.pc + 8) % 2 ^ 32, wait := .no })

/-- An instruction passes the checks of R353, its length is not 0, and the objects it names are referred to (R312). -/
def insPasses (q k : Nat) (n : INeeds) (u v : State) : Prop :=
  insCheck q (u.getStrand q k) n u = (.ok, false) ∧
    v = n.handles.foldl (fun v h => strandRef q k (handleIdx h.1) v) u

/-- Quay `q` runs and is not fenced, and the packet `m` with the MEM header `h` stands first on its memory path. -/
def MemFirst (q : Nat) (m : MemPkt) (h : MemHdr) (s : State) : Prop :=
  s.power = .on ∧ s.runs (8 + q) = true ∧ h = memHdr m.data ∧ ∃ l, (s.getQuay q).memIn = m :: l

/-- The state with the first packet of a quay's memory path taken (R388, R390). -/
def memGone (q : Nat) (s : State) : State := s.updQuay q (fun y => { y with memIn := y.memIn.drop 1 })

/-- A request that passes checks 1 to 4 of R390 has left the memory path, and a counted one moved the water mark of its
session (R401). -/
def memAdmitted (q : Nat) (m : MemPkt) (h : MemHdr) (s v : State) : Prop :=
  h.bad (m.data.drop 32).length = false ∧ 0 < h.len ∧ h.len ≤ 2016 ∧
    ∃ u, u = packetTaken m.sess (bump (fedBase + 0x4900) (memGone q s)) ∧ u.closedDom (8 + q) = false ∧
      (if h.kind = 3 ∨ h.kind = 4 then
        h.anum = (s.getSess m.sess).wmark + 1 ∧
          v = bump (fedBase + 0x4910) (u.updSess m.sess (fun y => { y with wmark := h.anum }))
      else v = u)

/-- An SPDM message has come in on its channel: the doorbell source of the channel, and the object of a DOE mailbox is
taken (R91, R539). -/
def spdmNoted (h : SpdmHdr) (s : State) : State :=
  match h.ch with
  | .sideband => raiseHm 6 s
  | .doe fn => { raiseHm 7 s with att := { s.att with doeHeld := s.att.doeHeld.filter (· ≠ chanKey (.doe fn)) } }

/-- A message outside any session, on a channel in service (R44, R456): `u` is the state in which it is answered. -/
def SpdmOutside (h : SpdmHdr) (s u : State) : Prop :=
  s.power = .on ∧ s.spdmServes h = true ∧ h.sess = none ∧ u = spdmNoted h s

/-- A message in a session at a stage, on a channel in service: both sequence numbers have counted it (R456). -/
def SpdmInside (h : SpdmHdr) (id stage : Nat) (x : SpdmSess) (s u : State) : Prop :=
  s.power = .on ∧ s.spdmServes h = true ∧ h.sess = some id ∧ (spdmNoted h s).spdmSess h = some x ∧ x.stage = stage ∧
    u = updSess h (fun x => { x with seqReq := x.seqReq + 1, seqRsp := x.seqRsp + 1 }) (spdmNoted h s)

/-- A federation message of a MSG stands first in the unit's inbox, and `u` is the state without it (R502, R503). -/
def FedFirst (kind : Nat) (m : FedMsg) (s u : State) : Prop :=
  s.power = .on ∧ m.kind = kind ∧ ∃ rest, s.fed.inbox = m :: rest ∧ u = { s with fed := { s.fed with inbox := rest } }

end Sys2Proof.Claims

open Sys2Proof.Claims
/-- A step takes the command at the front of the queue and runs it with the queue's rest. -/
def Obligations.StepRunsFront : Prop :=
  ∀ (c : Instr) (rest : List Instr) (s : State),
    step { s with pending := c :: rest } = exec c { s with pending := rest }

/-- On an empty queue a tick of 5 ns passes: the model's choice (log entry 3). The timebase rises by 5 and nothing is
taken from or put on the queue; a block that is off or held in reset stands still. -/
def Obligations.EmptyQueueTicks : Prop :=
  ∀ s : State, s.pending = [] →
    ∃ t, step s = .next t ∧ t.pending = [] ∧ t.power = s.power ∧
      (s.power = .on → s.now + 5 ≤ t.now) ∧ (s.power ≠ .on → t = s)

/-- Without power, or held in PORST_N_HM, the block takes no command but the release (R9, R117): for every other command
the state stays as it is. -/
def Obligations.StillWithoutPower : Prop :=
  ∀ (c : Instr) (s : State), (∀ p, c ≠ .releaseOfPorstNHm p) → s.power ≠ .on → exec c s = .next s

/-- The invariant of the block holds in the state after reset: counters in range, the token lock, the OTP gate. -/
def Obligations.ResetMeetsInvariant : Prop := Inv State.reset ∧ State.reset.power = .held ∧ State.reset.pending = []

/-- Every step keeps the invariant: no event counter passes the largest 64-bit value or leaves its canonical form (R174,
R585), sixteen token failures leave LC_TRANSITION locked (R441), and a granted scan leaves the OTP gate closed (R120). -/
def Obligations.EveryStepKeepsInvariant : Prop :=
  ∀ s t : State, Inv s → step s = .next t → Inv t

/-- The life-cycle state in force changes at the release of PORST_N_HM alone (R442), and a PENDING transition and the
token lock are cleared by nothing else (R441). -/
def Obligations.LifeCycleMovesOnlyAtRelease : Prop :=
  ∀ (c : Instr) (s t : State), (∀ p, c ≠ .releaseOfPorstNHm p) → exec c s = .next t →
    t.lc.state = s.lc.state ∧ (s.lc.pending = true → t.lc.pending = true) ∧
      (s.lc.tokenLock = true → t.lc.tokenLock = true) ∧ s.lc.tokenFails ≤ t.lc.tokenFails

/-- No step moves the timebase the block uses backward (R112): its timestamps never decrease, whatever the commands. -/
def Obligations.TimestampsNeverDecrease : Prop :=
  ∀ s t : State, step s = .next t → s.now ≤ t.now

/-- The straps in force are those sampled at the release of PORST_N_HM; later changes are ignored (R114), and they alone
set the strap fault (R115). -/
def Obligations.StrapsOnlyAtRelease : Prop :=
  (∀ (p : StartInput) (s : State), ∃ t, exec (.releaseOfPorstNHm p) s = .next t ∧ t.straps = p.straps ∧
    (t.strapFault = true ↔
      p.straps.dieCount < 2 ∨ 8 < p.straps.dieCount ∨ p.straps.dieCount ≤ p.straps.dieId ∨ 8 < p.straps.ideStreams)) ∧
  ∀ (c : Instr) (s t : State), (∀ p, c ≠ .releaseOfPorstNHm p) → exec c s = .next t →
    t.straps = s.straps ∧ t.strapFault = s.strapFault ∧ t.mask = s.mask

/-- A granted scan stays granted and the OTP gate stays closed until the start-up order of R117 (R120, R121), and the
instance does not go back to start-up either (R43). -/
def Obligations.ScanLeavesOnlyByRelease : Prop :=
  ∀ (c : Instr) (s t : State), (∀ p, c ≠ .releaseOfPorstNHm p) → exec c s = .next t →
    (s.fault.scanAck = true → t.fault.scanAck = true) ∧ (s.keys.gate = false → t.keys.gate = false) ∧
      (s.mode ≠ .starting → t.mode ≠ .starting)

/-- What has left the block on its ports stays sent, no command touches the commands that wait behind it, identifiers are
never used again, and the audit ring's SEQ never goes back but for a start that reads the ring anew (R593, R596). -/
def Obligations.OutputsAndQueueKept : Prop :=
  ∀ (c : Instr) (s t : State), exec c s = .next t →
    s.sent <:+ t.sent ∧ t.pending = s.pending ∧
      ((∀ p, c ≠ .releaseOfPorstNHm p) → s.serial ≤ t.serial ∧ s.audit.headSeq ≤ t.audit.headSeq)

/-- The commands of start-up and of islands run. RELEASE_OF_PORST_N_HM starts the block with the straps, the OTP words
and the life-cycle state it samples (R114, R117, R417); a data-path island's release powers and clocks it, and its
FENCED stays 1 (R117, step 3); power off stops everything (R9). -/
def Obligations.StartCommandsRun : Prop :=
  (∀ (p : StartInput) (s : State), ∃ t, exec (.releaseOfPorstNHm p) s = .next t ∧ t.power = .on ∧
    t.straps = p.straps ∧ t.mask = s.mask ∧ t.lc.state = (lcRead (Tab.get 0 (otpTab p.otp))).state ∧ s.now ≤ t.now) ∧
  (∀ (i : Nat) (s : State), s.power = .on → i < 25 → s.hasIsland i = true →
    exec (.dataPathIslandRelease i) s =
      .next (s.setIsland i { s.getIsland i with powered := true, clocked := true })) ∧
  (∀ s : State, s.power = .on → exec .harbourmasterPowerRemoval s = .next { s with power := .off })

/-- PRITY_STARTUP_DONE: with every data-path island running and no test failed, the instance is NORMAL and the FENCED
outputs of its islands fall (R43, R117, step 4; R582); with a strap fault it stays in keeper mode (R115). -/
def Obligations.StartUpEndsNormalOrKeeper : Prop :=
  ∀ s : State, s.power = .on → s.mode = .starting → s.fw.up = true → s.fw.romOnly = false → s.bistFail = 0 →
    (∀ i ∈ s.dataIslands, s.runs i = true) →
    ∃ t, exec (.prityStartupDone 0) s = .next t ∧
      (s.strapFault = false → t.mode = .normal ∧ ∀ i ∈ s.dataIslands, (t.getIsland i).fenced = false) ∧
      (s.strapFault = true → t.mode = .keeper)

/-- The integrator may isolate an island, or take its power or clock, only while its FENCED output is 1 (R31, R118). Then
the command has its effect; the loss of an island's power in normal service brings the instance into keeper mode
(R43), with a CAUSE that the manual leaves open: a free value. -/
def Obligations.FencedIslandsMayGo : Prop :=
  (∀ (i : Nat) (iso : Bool) (s : State), s.power = .on → s.hasIsland i = true → i < 27 →
    (iso = true → (s.getIsland i).fenced = true) →
    exec (.islandIsolation i iso) s = .next (s.setIsland i { s.getIsland i with iso := iso })) ∧
  (∀ (i : Nat) (s : State), s.power = .on → i < 25 → s.hasIsland i = true → (s.getIsland i).powered = true →
    (s.getIsland i).fenced = true → s.mode ≠ .normal →
    exec (.islandPowerRemoval i) s =
      .next (settle (s.setIsland i { s.getIsland i with powered := false, clocked := false }))) ∧
  (∀ (i : Nat) (s : State), s.power = .on → i < 25 → s.hasIsland i = true → (s.getIsland i).powered = true →
    (s.getIsland i).fenced = true → s.mode = .normal →
    exec (.islandPowerRemoval i) s =
      .next (settle (keeperEnter 32 (Config.freeValue s.freeIdx % 256)
        { s.setIsland i { s.getIsland i with powered := false, clocked := false } with freeIdx := s.freeIdx + 1 })))

/-- While an island's FENCED output is 0 its isolation, and the loss of its power or clock, leave the block's behaviour
undefined: the model stops with a fault. -/
def Obligations.UnfencedIslandsMayNotGo : Prop :=
  (∀ (i : Nat) (s : State), s.power = .on → s.hasIsland i = true → i < 27 → (s.getIsland i).fenced = false →
    exec (.islandIsolation i true) s = .fault (.islandNotFenced i)) ∧
  (∀ (i : Nat) (s : State), s.power = .on → i < 25 → s.hasIsland i = true → (s.getIsland i).powered = true →
    (s.getIsland i).fenced = false → exec (.islandPowerRemoval i) s = .fault (.islandNotFenced i))

/-- ISLAND_CLOCK_THROTTLE sets an island's clock, and the power cap, and counts each change in the reproducibility record
(R32, R275); nothing else changes. -/
def Obligations.ClockAndCapSettings : Prop :=
  (∀ (i setting : Nat) (s : State), s.power = .on → s.fw.up = true → i < 25 → s.hasIsland i = true → setting < 16 →
    (s.getIsland i).clk ≠ setting →
    exec (.islandClockThrottle i setting none) s =
      .next (bump (soundBase + 0x210) (s.setIsland i { s.getIsland i with clk := setting }))) ∧
  (∀ (i cap : Nat) (s : State), s.power = .on → s.fw.up = true → cap < 2 ^ 16 → cap ≠ s.sound.pwrCap →
    exec (.islandClockThrottle i (s.getIsland i).clk (some cap)) s =
      .next (bump (soundBase + 0x220) { s with sound := { s.sound with pwrCap := cap } }))

/-- A restart of Prity ends the running mailbox command with E_ABORTED, ends every SPDM session and is logged (R42, R454);
the image's identity is built again (R452). -/
def Obligations.PrityRestartAbortsMailbox : Prop :=
  ∀ s : State, s.power = .on → s.fw.up = true → s.fw.activating = false →
    exec (.prityRestart false) s = .next (prityBoot s.fw.bank (restartNote (endSessions (mbAbort s)))) ∧
    exec (.prityRestart true) s =
      .next (prityBoot s.fw.bank (restartNote (endSessions (mbAbort (raisePrivOpen 32 25 0x20 0 0 s))))) ∧
    (mbAbort s).mbox.busy = false ∧
    (s.mbox.busy = true → (mbAbort s).mbox.result = Status.eAborted.code)

/-- The self-test and scan commands run: BIST_RUN starts a test of a fenced island (R583), DFT_BIST_START in RAW, TEST and
RMA alone (R122), a passing BIST_RUN test ends with OK, and a scan request is granted in RAW, TEST and RMA with every
berth and secret cleared and the OTP gate closed (R120). -/
def Obligations.TestAndScanCommandsRun : Prop :=
  (∀ (i : Nat) (s : State), MbReady lcAny s → s.mode ≠ .starting → i < 25 → s.oper 0 = i → s.hasIsland i = true →
    (s.getIsland i).fenced = true → s.bistRunning < 2 → (s.getIsland i).bistRun = 0 →
    exec .bistRun s = .next ((mbOn 0x50 s).setIsland i { s.getIsland i with bistRun := 2 })) ∧
  (∀ (i : Nat) (s : State), s.power = .on → s.lcState = 0 ∨ s.lcState = 1 ∨ s.lcState = 5 → i < 25 →
    s.hasIsland i = true → (∀ j < 27, (s.getIsland j).bistRun ≠ 3 ∧ (s.getIsland j).bistWait ≠ 3) →
    (s.getIsland i).bistRun = 0 →
    exec (.dftBistStart i) s = .next (bistPump (s.setIsland i { s.getIsland i with bistWait := 3 }))) ∧
  (∀ (i : Nat) (s : State), s.power = .on → s.lcState ≠ 0 → s.lcState ≠ 1 → s.lcState ≠ 5 →
    exec (.dftBistStart i) s = .next s) ∧
  (∀ (i : Nat) (pass : Bool) (s : State), s.power = .on → (s.getIsland i).bistRun = 3 →
    exec (.bistComplete i pass) s =
      .next (bistPump (let t := s.setIsland i { s.getIsland i with bistRun := 0, bistFail := !pass }
        { t with fault := { t.fault with dftPass := pass } }))) ∧
  (∀ s : State, s.power = .on → s.auditFull = false → s.fault.scanAck = false →
    s.lcState = 0 ∨ s.lcState = 1 ∨ s.lcState = 5 →
    ∃ t, exec .dftScanReq s = .next t ∧ t.fault.scanAck = true ∧ t.keys.gate = false ∧ t.keys.tagKey = [] ∧
      t.lc.root = [] ∧ t.ent.inst = false ∧ t.ent.drbgKey = [] ∧ t.att.store = {} ∧ t.audit.key = [] ∧
      t.cnt = s.cnt ∧ t.sess = s.sess ∧ t.moor = s.moor) ∧
  (∀ s : State, s.power = .on → s.auditFull = false → s.fault.scanAck = false →
    s.lcState ≠ 0 → s.lcState ≠ 1 → s.lcState ≠ 5 →
    exec .dftScanReq s = .next (raisePriv 34 Status.eLc.code 25 0x2D 0 0
      (bump (faultBase + 0x320) (auditLog 2 .eLc 0x13 0 0 0 0 s))))

/-- After a freeze HELD is 1, SNAP_SEQ has increased by one, SNAP_NS holds the timebase value of the freeze and every
counter's shadow its count; while HELD is 1 a further trigger or FREEZE_AT crossing leaves the shadows as they are, is
counted in MISSED_CNT and clears ARM_AT; the owner's RELEASE clears HELD; and a trigger that follows a release freezes
anew (R586). -/
def Obligations.FreezeHoldsUntilRelease : Prop :=
  (∀ s : State, s.power = .on → s.sound.held = false → s.sound.gtrigEn = true →
    exec .gtrig s = .next { s with
      shadow := s.shadows
      sound := { s.sound with held := true, snapSeq := (s.sound.snapSeq + 1) % 2 ^ 32, snapNs := s.now } }) ∧
  (∀ s : State, s.power = .on → s.sound.held = false → s.sound.armAt = true →
    exec .freezeAt s = .next { s with
      shadow := s.shadows
      time := { s.time with ns := max s.now s.sound.freezeAt }
      sound := { s.sound with
        held := true, snapSeq := (s.sound.snapSeq + 1) % 2 ^ 32, snapNs := max s.now s.sound.freezeAt, armAt := false } }) ∧
  (∀ s : State, s.power = .on → s.sound.held = true → s.sound.gtrigEn = true →
    exec .gtrig s = .next { s with sound := { s.sound with
      missed := min max64 (s.sound.missed + 1), armAt := false } }) ∧
  (∀ s : State, s.power = .on → s.sound.held = true → s.sound.armAt = true →
    exec .freezeAt s = .next { s with
      time := { s.time with ns := max s.now s.sound.freezeAt }
      sound := { s.sound with missed := min max64 (s.sound.missed + 1), armAt := false } }) ∧
  (∀ s : State, s.power = .on → s.auditFull = false → s.isolated 26 = false →
    exec (.snapshotRelease .pf) s = .next { s with sound := { s.sound with held := false } }) ∧
  (∀ s t u : State, s.power = .on → s.sound.held = true → s.sound.gtrigEn = true → s.auditFull = false →
    s.isolated 26 = false → exec (.snapshotRelease .pf) s = .next t → exec .gtrig t = .next u →
    u.sound.held = true ∧ u.sound.snapSeq = (s.sound.snapSeq + 1) % 2 ^ 32 ∧ u.sound.snapNs = s.now ∧
      u.sound.missed = s.sound.missed)

/-- The other commands of the soundings: the owner's REPRO_CLEAR zeroes the reproducibility counts and sets CLEAR_NS
(R275); a trace group's timeout writes what stands in the group's first line (R591); a tenant's write of REPLAY takes
effect where it clears EN or the mode image allows replay, and is counted otherwise (R578). -/
def Obligations.SoundingCommandsRun : Prop :=
  (∀ s : State, s.power = .on → s.auditFull = false → s.isolated 26 = false →
    ∃ t, exec (.reproClear .pf) s = .next t ∧ t.sound.clearNs = s.now ∧ (∀ a ∈ reproCounts, t.count a = 0) ∧
      (∀ a, a ∉ reproCounts → t.count a = s.count a) ∧ { t with cnt := s.cnt, sound := s.sound } = s) ∧
  (∀ (ring : Nat) (s : State), s.power = .on → (s.traceGroup ring).2 ≠ [] →
    exec (.traceGroupTimeout ring) s = .next (settle (
      let g := s.traceGroup ring
      let n := min g.2.length (4 - g.1 % 4)
      let base := if ring = 256 then s.sound.otBase else (s.getMoor ring).adm.metaBase + (s.getMoor ring).adm.offTrace
      submitPiece (.trace ring) { wr := true, addr := base + 32 * g.1, len := 32 * n, buf := (g.2.take n).flatten }
        (if ring = 256 then 256 else ring) 0 false
        { s with sound := { s.sound with groups := Tab.set [] s.sound.groups ring (g.2.drop n) } }))) ∧
  (∀ (m : Master) (t value : Nat) (s : State), s.power = .on → s.tenantOf m = some t → s.auditFull = false →
    s.isolated 26 = false → bit1 0 value = false ∨ s.replayEn = true →
    exec (.replayEnable m value) s = .next (settle
      (s.updWin t (fun w => { w with replay := bit1 0 value, replayCtx := bits 1 20 value })))) ∧
  (∀ (m : Master) (t value : Nat) (s : State), s.power = .on → s.tenantOf m = some t → t < 256 → s.auditFull = false →
    s.isolated 26 = false → bit1 0 value = true → s.replayEn = false →
    exec (.replayEnable m value) s = .next (settle (bump (faultBase + 0x340) s)))

/-- If TB_NS is lower than the last value captured the block keeps its value and counts the event (R112); the timer of a
Harbourmaster core sets its pending bit for source 0 (R539); an error pulse of the event port is counted (R95). -/
def Obligations.TimeAndErrorPulses : Prop :=
  (∀ (ns : Nat) (s : State), s.power = .on → ns < s.now →
    exec (.timebaseBackward ns) s =
      .next { s with sound := { s.sound with tbBack := min max64 (s.sound.tbBack + 1) } }) ∧
  (∀ (ns : Nat) (s : State), s.power = .on → s.now ≤ ns → exec (.timebaseBackward ns) s = .next s) ∧
  (∀ (core : Nat) (s : State), s.power = .on → core < 4 →
    ∃ t, exec (.coreTimerExpiry core) s = .next t ∧ bit1 0 (Tab.get 0 t.ev.hmPend core) = true ∧
      (∀ c, c ≠ core → Tab.get 0 t.ev.hmPend c = Tab.get 0 s.ev.hmPend c) ∧
      { t with ev := { t.ev with hmPend := s.ev.hmPend } } = s) ∧
  (∀ (f : Fn) (s : State), s.power = .on → exec (.evErr f) s = .next (bump (evBase + 0x6018) s))

/-- A read from a reserved range of the control space returns zero, a write to it is ignored and counted in
FAULT.HR_FMT_CNT, and an RSVD offset inside a block reads as zero and ignores writes (R610). -/
def Obligations.ReservedRangesReadZero : Prop :=
  ∀ (x : Access) (b : Nat) (s : State), s.power = .on → s.auditFull = false → x.m ≠ .prity →
    misaligned x.addr x.wide = false → s.reach x.m x.addr = some b →
    (reservedRange b = true →
      exec (.registerRead x) s = .next (emit (.hrRsp x.tag 0) s) ∧
      exec (.registerWrite x) s = .next (settle (bump (faultBase + 0x310) s))) ∧
    (reservedRange b = false → s.unreachable b = false → s.regAt x.m (b / 8 * 8) = none →
      exec (.registerRead x) s = .next (emit (.hrRsp x.tag 0) s) ∧
      exec (.registerWrite x) s = .next (settle s))

/-- A read that a world is not permitted to make returns zero and is counted in the owning unit's permission-fault
counter; it has no other effect (R37). A register that a place does not let the reader see is one; a place outside every
world's reach is another. -/
def Obligations.RefusedReadIsZeroAndCounted : Prop :=
  ∀ (x : Access) (s : State), s.power = .on → s.auditFull = false → x.m ≠ .prity →
    misaligned x.addr x.wide = false →
    (s.reach x.m x.addr = none →
      exec (.registerRead x) s = .next (emit (.hrRsp x.tag 0) (bump (permAddr 0) s))) ∧
    (∀ (b : Nat) (r : Reg), s.reach x.m x.addr = some b → reservedRange b = false → s.unreachable b = false →
      s.regAt x.m (b / 8 * 8) = some r → r.deny = true →
      exec (.registerRead x) s = .next (emit (.hrRsp x.tag 0) (bump (permAddr b) s)))

/-- Register accesses of the host: IDENT.VERSION reads as 2.1 in every state of the block (R15, R16); a misaligned access
is ignored and counted, and reads as zero (R87); the owner's write of a mailbox operand word takes effect while the mailbox
is idle and is counted in REJECT_CNT while it is busy (R336); a mailbox result word, and its read-only status, cannot be
written, and the attempt is counted (R20). -/
def Obligations.HostRegisterAccesses : Prop :=
  (∀ (d tag : Nat) (s : State), s.power = .on → s.auditFull = false → s.isolated 26 = false →
    exec (.registerRead ⟨.pf, 0, true, d, tag⟩) s = .next (emit (.hrRsp tag 0x00020001) s)) ∧
  (∀ (x : Access) (s : State), s.power = .on → s.auditFull = false → x.m ≠ .prity → misaligned x.addr x.wide = true →
    exec (.registerRead x) s = .next (emit (.hrRsp x.tag 0) (bump (faultBase + 0x310) s)) ∧
    exec (.registerWrite x) s = .next (settle (bump (faultBase + 0x310) s))) ∧
  (∀ (i v tag : Nat) (s : State), s.power = .on → s.auditFull = false → s.isolated 26 = false → i < 8 → v < 2 ^ 64 →
    s.mbox.busy = false →
    exec (.registerWrite ⟨.pf, mboxBase + 0x40 + 8 * i, true, v, tag⟩) s =
      .next (settle { s with mbox := { s.mbox with oper := Tab.set 0 s.mbox.oper i v } })) ∧
  (∀ (i v tag : Nat) (s : State), s.power = .on → s.auditFull = false → s.isolated 26 = false → i < 8 → v < 2 ^ 64 →
    s.mbox.busy = true →
    exec (.registerWrite ⟨.pf, mboxBase + 0x40 + 8 * i, true, v, tag⟩) s =
      .next (settle { s with mbox := { s.mbox with reject := min max64 (s.mbox.reject + 1) } }))

/-- PREG_WRITE: the owner writes registers 32 to 255; the incremented wear counter goes to the NV store first (R104), a
worn-out register is refused with E_WEAR and nothing is written (R599), and any other world's write is counted (R20). -/
def Obligations.PersistentRegisterWrites : Prop :=
  ∀ (i value : Nat) (s : State), s.power = .on → s.auditFull = false → s.isolated 26 = false → 32 ≤ i → i < 256 →
    s.audit.nv = [] →
    (Tab.get 0 s.audit.wear i < 100000 →
      exec (.pregWrite .pf i value) s =
        .next (emit (.nvReq true (0x100 + i) (Tab.get 0 s.audit.wear i + 1)) { s with audit := { s.audit with
          nv := [⟨true, 0x100 + i, Tab.get 0 s.audit.wear i + 1, .wear i (value % 2 ^ 64) true⟩] } })) ∧
    (100000 ≤ Tab.get 0 s.audit.wear i →
      exec (.pregWrite .pf i value) s =
        .next { s with audit := { s.audit with pregIdx := i, pregSt := Status.eWear.code } }) ∧
    exec (.pregWrite .prity i value) s = .next (bump (faultBase + 0x340) s)

/-- The ends of requests on the NV and OTP ports. Loss of power between the two writes of a persistent register can only
over-count (R104): the register's own write goes out when its wear counter's has ended. A write that ends with an error
leaves the on-die copy and is logged (R105). A programmed OTP word gains bits and loses none (R107). -/
def Obligations.StoreResponsesRun : Prop :=
  (∀ (i v w data : Nat) (host : Bool) (s : State), s.power = .on →
    s.audit.nv = [⟨true, 0x100 + i, w, .wear i v host⟩] →
    exec (.nvResponse data false) s = .next (raiseHm 5 (emit (.nvReq true i v) { s with audit := { s.audit with
      wear := Tab.set 0 s.audit.wear i (min 100000 w), nv := [⟨true, i, v, .preg i v host⟩] } }))) ∧
  (∀ (i v w data : Nat) (s : State), s.power = .on → s.audit.nv = [⟨true, i, w, .preg i v true⟩] →
    ∃ t, exec (.nvResponse data true) s = .next t ∧ t.audit.preg = s.audit.preg ∧ t.audit.wear = s.audit.wear ∧
      t.audit.pregSt = Status.eIntegrity.code ∧ t.audit.pregIdx = i ∧ t.audit.headSeq = s.audit.headSeq + 1) ∧
  (∀ (a w data : Nat) (s : State), s.power = .on → s.audit.otp = [⟨true, a, w, .program⟩] →
    exec (.otpResponse data) s = .next (settle (raiseHm 4 { s with
      audit := { s.audit with otp := [] }
      lc := { s.lc with otp := Tab.set 0 s.lc.otp a ((Tab.get 0 s.lc.otp a ||| w) % 2 ^ 64) } })))

/-- The entropy source (R411 to R414): a sample of the start-up window that both tests pass is counted, the 1,024th brings
OK; a test that fails counts, and stops the source, in RETRY below the third failure and in FAILED at it; after 1 ms in
RETRY the start-up begins anew. -/
def Obligations.EntropySamplesTested : Prop :=
  (∀ (b : Bool) (s : State), s.power = .on → s.fault.scanAck = false → s.ent.state = .startup →
    (healthTest b s.ent).1 = false → s.ent.seen + 1 < 1024 →
    exec (.entropySample b) s = .next { s with ent := { (healthTest b s.ent).2 with seen := s.ent.seen + 1 } }) ∧
  (∀ (b : Bool) (s : State), s.power = .on → s.fault.scanAck = false → s.ent.state = .startup →
    (healthTest b s.ent).1 = false → s.ent.seen + 1 = 1024 →
    ∃ t, exec (.entropySample b) s = .next t ∧ t.ent.state = .ok ∧ t.ent.fails = s.ent.fails ∧ { t with ent := s.ent } = s) ∧
  (∀ (b : Bool) (s : State), s.power = .on → s.fault.scanAck = false → s.ent.state = .startup →
    (healthTest b s.ent).1 = true →
    ∃ t, exec (.entropySample b) s = .next t ∧
      t.ent.state = (if s.ent.fails + 1 < 3 then .retry else .failed) ∧ t.ent.fails = min 3 (s.ent.fails + 1)) ∧
  (∀ s : State, s.power = .on → s.ent.state = .retry →
    ∃ t, exec .entropyRetryExpiry s = .next t ∧ t.ent.state = .startup ∧ t.ent.seen = 0 ∧ t.ent.fails = s.ent.fails ∧
      t.ent.pool = s.ent.pool ∧ { t with ent := s.ent } = s)

/-- A raise of a Harbourmaster core's source 12 to 31 sets its pending bit and nothing else (R539); a core takes a pending
source whose priority exceeds TOP: its bit clears and its priority goes on the stack (R540). Any other TAKE, or a raise of a
hardware source, is counted (R20). -/
def Obligations.PrivateBankRaiseAndTake : Prop :=
  (∀ (core src : Nat) (s : State), s.power = .on → core < 4 → 12 ≤ src → src < 32 →
    ∃ t, exec (.raise core src) s = .next t ∧ Tab.get 0 t.ev.hmPend core = Tab.get 0 s.ev.hmPend core ||| 2 ^ src ∧
      (∀ c, c ≠ core → Tab.get 0 t.ev.hmPend c = Tab.get 0 s.ev.hmPend c) ∧
      { t with ev := { t.ev with hmPend := s.ev.hmPend } } = s) ∧
  (∀ (core src : Nat) (s : State), s.power = .on → core < 4 → src < 12 ∨ 32 ≤ src →
    exec (.raise core src) s = .next (bump (evBase + 0x6048) s)) ∧
  (∀ (core src : Nat) (s : State), s.power = .on → core < 4 → src < 32 → bit1 src (Tab.get 0 s.ev.hmPend core) = true →
    (s.getBank core).stack = [] ∨ (s.getBank core).stack.headD 0 < s.hmPrio src →
    ∃ t, exec (.take core src) s = .next t ∧
      Tab.get 0 t.ev.hmPend core = Tab.get 0 s.ev.hmPend core - 2 ^ src ∧
      t.getBank core = { s.getBank core with stack := s.hmPrio src :: (s.getBank core).stack } ∧
      { t with ev := { t.ev with hmPend := s.ev.hmPend, banks := s.ev.banks } } = s) ∧
  (∀ (core src : Nat) (s : State), s.power = .on → core < 4 → bit1 src (Tab.get 0 s.ev.hmPend core) = false →
    exec (.take core src) s = .next (bump (evBase + 0x6048) s))

/-- A doorbell write of a software source of the writer's own, with its target enabled and room in the pending store, makes
exactly one record; any other doorbell write is ignored and counted in EVENT.DB_ERR_CNT (R519, R520). -/
def Obligations.DoorbellsMakeOneRecord : Prop :=
  (∀ (value : Nat) (x : EvTarget) (s : State), s.power = .on → s.auditFull = false → s.isolated 26 = false →
    320 ≤ bits 0 12 value → bits 0 12 value < 512 → x = Tab.get {} s.ev.ownerSw (bits 0 12 value - 320) →
    (x.en = true → s.ev.store.length < 256 → s.closedDom 26 = false →
      exec (.swDb .pf value) s = .next { s with ev := { s.ev with
        store := s.ev.store ++ [{ queue := x.eq, data := swRecord (bits 0 12 value) (bits 32 32 value) s.now }] } }) ∧
    (x.en = false ∨ 256 ≤ s.ev.store.length → exec (.swDb .pf value) s = .next (bump (evBase + 0x6030) s))) ∧
  (∀ (value : Nat) (s : State), s.power = .on → s.auditFull = false → s.isolated 26 = false →
    bits 0 12 value < 320 ∨ 512 ≤ bits 0 12 value → exec (.swDb .pf value) s = .next (bump (evBase + 0x6030) s)) ∧
  (∀ (m : Master) (t value : Nat) (x : EvTarget) (s : State), s.power = .on → s.auditFull = false →
    s.isolated 26 = false → s.tenantOf m = some t → 512 + 14 * t ≤ bits 0 12 value →
    bits 0 12 value < 512 + 14 * t + 14 → x = Tab.get {} (s.getMoor t).win.sw (bits 0 12 value - (512 + 14 * t)) →
    x.en = true → s.ev.store.length < 256 → s.closedDom 26 = false →
    exec (.evDb m value) s = .next { s with ev := { s.ev with
      store := s.ev.store ++ [{ queue := x.eq, data := swRecord (bits 0 12 value) (bits 32 32 value) s.now }] } }) ∧
  (∀ (m : Master) (t value : Nat) (s : State), s.power = .on → s.auditFull = false → s.isolated 26 = false →
    s.tenantOf m = some t → bits 0 12 value < 512 + 14 * t ∨ 512 + 14 * t + 14 ≤ bits 0 12 value →
    exec (.evDb m value) s = .next (bump (evBase + 0x6030) s))

/-- The owner's HEAD write of one of its own queues: a value at or above 2^SIZE_LOG2 changes nothing and is counted (R528);
with OVERFLOW at 1 one KIND 0x03 record goes ahead of every other record of the queue and OVERFLOW clears (R529); a
DISARMED queue is armed anew, and PEND of an ARMED or READY one does not change (R532). -/
def Obligations.HeadWrites : Prop :=
  ∀ (k head : Nat) (q : EvQueue) (s : State), s.power = .on → s.auditFull = false → s.isolated 26 = false → k < 256 →
    q = s.getEq k → q.ten = ownerTen → head < 0x10000 →
    (q.slots ≤ head → exec (.eqHeadWrite .pf k head) s = .next (bump (evBase + 0x6048) s)) ∧
    (head < q.slots → q.overflow = false → q.arm ≠ .disarmed →
      exec (.eqHeadWrite .pf k head) s = .next (s.setEq k { q with head := head })) ∧
    (head < q.slots → q.overflow = false → q.arm = .disarmed → head = q.tail →
      exec (.eqHeadWrite .pf k head) s =
        .next (s.setEq k { q with head := head, arm := .armed, pend := 0, timer := false })) ∧
    (head < q.slots → q.overflow = true → q.arm ≠ .disarmed →
      exec (.eqHeadWrite .pf k head) s =
        .next ({ s with ev := { s.ev with
          store := putAhead { queue := k, data := overflowRecord k q } s.ev.store } }.setEq k
            { q with head := head, overflow := false, lost := 0, lostNs := 0 }))

/-- The event queues' other commands: setting EN of a queue starts it empty and armed (R531), the coalescing timer makes an
armed queue READY (R532), and a record of an enabled queue with room goes to the slot TAIL names (R522, R530). -/
def Obligations.EventQueueCommandsRun : Prop :=
  (∀ (k value : Nat) (q : EvQueue) (s : State), s.power = .on → s.auditFull = false → s.isolated 26 = false → k < 256 →
    q = s.getEq k → q.ten = ownerTen → q.en = false → bit1 31 value = true → 4 ≤ bits 0 5 value → bits 0 5 value ≤ 16 →
    q.base % 32 = 0 →
    exec (.eqEnable .pf k value) s = .next (s.setEq k { q with
      size := bits 0 5 value, prio := bits 5 4 value, coalCnt := bits 9 11 value, coalTime := bits 20 11 value
      en := true, head := 0, tail := 0, arm := .armed, overflow := false, ovf := 0, pend := 0, timer := false
      lost := 0, lostNs := 0 })) ∧
  (∀ (j : Nat) (s : State), s.power = .on → (s.getEq j).arm = .armed → (s.getEq j).timer = true →
    exec (.coalTimeExpiry j) s = .next (s.setEq j { s.getEq j with arm := .ready, timer := false })) ∧
  (∀ (r : EvRec) (l : List EvRec) (q : EvQueue) (f : Fn) (s : State), s.power = .on → s.ev.store = r :: l →
    q = s.getEq r.queue → q.en = true → s.eqFn q = some f → q.full = false → r.priv = false →
    exec .eventRecordIssue s = .next (beat 26 (bump (evBase + 0x6000)
      ((emit (.evWr (q.base + q.tail * 32) true r.data f (Fn.tBit f)) { s with ev := { s.ev with store := l } }).setEq
        r.queue { q with tail := (q.tail + 1) % q.slots }.note)))) ∧
  (∀ (r : EvRec) (l : List EvRec) (q : EvQueue) (f : Fn) (s : State), s.power = .on → s.ev.store = r :: l →
    q = s.getEq r.queue → q.en = true → s.eqFn q = some f → q.full = true →
    exec .eventRecordIssue s = .next (bump (evBase + 0x6020)
      ({ s with ev := { s.ev with store := l } }.setEq r.queue { q with
        ovf := min 0xFFFFFFFF (q.ovf + 1), overflow := true, lost := min 0xFFFFFFFF (q.lost + 1)
        lostNs := if q.lost = 0 then s.now else q.lostNs })))

/-- Banks: the best READY queue whose PRIO exceeds TOP is delivered, its PRIO is pushed and it is DISARMED (R532, R534); an
EOI of TOP pops the stack, and any other EOI leaves the stack, sets FAULT, is counted in EVENT.EOI_FAULT_CNT and raises
source 36 with CODE 0x34 (R535); RESET clears the stack and FAULT (R535). -/
def Obligations.BanksDeliverAndEnd : Prop :=
  (∀ (bank j : Nat) (q : EvQueue) (s : State), s.power = .on → 4 ≤ bank → (s.getBank bank).fault = false →
    s.ev.gdis = false → bestReady bank s.ev.queues = some (j, q) →
    (s.getBank bank).stack = [] ∨ (s.getBank bank).stack.headD 0 < q.prio →
    exec (.bankDelivery bank) s = .next (msiWrite q
      ((s.setEq j { q with arm := .disarmed, pend := 0, timer := false }).setBank bank
        { s.getBank bank with stack := q.prio :: (s.getBank bank).stack }))) ∧
  (∀ (bank : Nat) (s : State), s.power = .on → (s.getBank bank).fault = true ∨ s.ev.gdis = true →
    exec (.bankDelivery bank) s = .next s) ∧
  (∀ (core p : Nat) (l : List Nat) (s : State), s.power = .on → s.auditFull = false → s.isolated 26 = false → p < 16 →
    (s.getBank 4).stack = p :: l →
    exec (.eoi .pf core p) s = .next (s.setBank 4 { s.getBank 4 with stack := l })) ∧
  (∀ (core p : Nat) (s : State), s.power = .on → s.auditFull = false → s.isolated 26 = false → p < 16 →
    (s.getBank 4).stack.head? ≠ some p →
    ∃ d, exec (.eoi .pf core p) s = .next (raisePrivOpen 36 26 0x34 0 d
      (bump (evBase + 0x6038) (s.setBank 4 { s.getBank 4 with fault := true })))) ∧
  (∀ (core : Nat) (s : State), s.power = .on → s.auditFull = false → s.isolated 26 = false →
    ∃ t, exec (.bankReset .pf core) s = .next t ∧ t.getBank 4 = {} ∧ (∀ b, b ≠ 4 → t.getBank b = s.getBank b) ∧
      { t with ev := { t.ev with banks := s.ev.banks, queues := s.ev.queues } } = s)

/-- Breakwater's commands: APPLY puts the staged tables in force while the instance is ALONE, and is counted otherwise
(R559); a request that has waited STARVE is raised to priority 14 (R552); each capped class gets its credit for the next
microsecond, MAX_PCT times 24,000 bytes, and a class with MAX_PCT 0 is left alone (R555). -/
def Obligations.BreakwaterCommandsRun : Prop :=
  (∀ s : State, s.power = .on → s.auditFull = false → s.isolated 26 = false → s.fed.state = .alone →
    exec (.bwaterApply .pf) s = .next (bwCommit s)) ∧
  (∀ s : State, s.power = .on → s.auditFull = false → s.isolated 26 = false → s.fed.state ≠ .alone →
    exec (.bwaterApply .pf) s = .next (bump (bwBase + 0x9000) s)) ∧
  (∀ (n op : Nat) (o : LineOp) (s : State), s.power = .on → (s.eng n).op? op = some o →
    (∃ r ∈ (s.eng n).due, r.id = op ∧ r.isData = true) → (n, op) ∉ s.bw.starved → s.classPrio n o.cls < 14 →
    exec (.starveExpiry n op) s = .next (bump (bwBase + 0x8000 + 0x40 * n + 8)
      { s with bw := { s.bw with starved := s.bw.starved ++ [(n, op)] } })) ∧
  (∀ (n : Nat) (s : State), s.power = .on → s.hasEng n = true →
    ∃ t, exec (.capWindow n) s = .next t ∧
      (∀ c < 64, (Tab.get ({} : BwClass) s.bw.cls c).maxPct ≠ 0 →
        t.bwReg n c = { s.bwReg n c with credit := (Tab.get ({} : BwClass) s.bw.cls c).maxPct * 24000 }) ∧
      (∀ c < 64, (Tab.get ({} : BwClass) s.bw.cls c).maxPct = 0 → t.bwReg n c = s.bwReg n c) ∧
      { t with bw := { t.bw with reg := s.bw.reg } } = s)


/-- The fence sequence (R567 to R573): FENCE of an ACTIVE domain puts it in DRAINING with CAUSE 0 and its work refused; the
drain limit stops what is still under way; when the dump is written, or DUMP_LIMIT passes, the domain is FENCED and its
island's FENCED output is 1. -/
def Obligations.FenceSequenceRuns : Prop :=
  (∀ (d : Nat) (s u : State), s.power = .on → s.auditFull = false → s.isolated 26 = false → d < 27 →
    s.domNamed d = true → s.domState d = 0 →
    u = s.setDom d { state := .draining, cause := 0, lead := d } →
    exec (.fenceDomain .pf d) s = .next (settle
      (if d < 8 then advance d (tideHold d (u.updEng d (fun e =>
          { e with ops := e.ops.map (fun o => { o with fenced := true }) })))
       else if d < 24 then stopStrands (fun q _ => q = d - 8) .eFenced u
       else u))) ∧
  (∀ (d : Nat) (s : State), s.power = .on → s.auditFull = false → s.isolated 26 = false → d < 33 →
    s.domState d ≠ 0 → exec (.fenceDomain .pf d) s = .next (settle (bump (faultBase + 0x328) s))) ∧
  (∀ (d : Nat) (s : State), s.power = .on → (s.getDom d).state = .draining → (s.getDom d).lead = d →
    (s.getDom d).limit = false → d < 27 →
    exec (.drainLimitExpiry d) s = .next (settle (fencePump ((s.groupIn d .draining).foldl
      (fun s m => if m < 8 then engineLimit m s else domCut m s)
      (s.setDom d { s.getDom d with limit := true, held := dumpEntries s (s.groupIn d .draining) }))))) ∧
  (∀ (d : Nat) (s : State), s.power = .on → (s.getDom d).state = .dumping → (s.getDom d).lead = d → d < 25 →
    (∀ a ∈ (s.getDom d).areas, 2 ≤ a.stage) → s.groupIn d .dumping = [d] → (8 ≤ d ∨ s.engDrained d = true) →
    ∃ t, exec (.dumpWritten d) s = .next (settle t) ∧ (t.getDom d).state = .fenced ∧ (t.getIsland d).fenced = true ∧
      (∀ e, e ≠ d → t.getDom e = s.getDom e ∧ t.getIsland e = s.getIsland e)) ∧
  (∀ (d : Nat) (s : State), s.power = .on → (s.getDom d).state = .dumping → (s.getDom d).lead = d → d < 25 →
    (∀ a ∈ (s.getDom d).areas, a.stage ≠ 0) → s.groupIn d .dumping = [d] → (8 ≤ d ∨ s.engDrained d = true) →
    ∃ t, exec (.dumpLimitExpiry d) s = .next (settle t) ∧ (t.getDom d).state = .fenced ∧ (t.getIsland d).fenced = true)

/-- RELEASE of a FENCED island whose island runs and whose tests passed puts it back to ACTIVE with REL_STATUS OK (R570); a
RELEASE of a domain that is not FENCED, or whose island does not run, changes nothing but REL_STATUS, which is E_STATE, and
is logged. -/
def Obligations.ReleaseOfDomains : Prop :=
  (∀ (d : Nat) (s : State), s.power = .on → s.auditFull = false → s.isolated 26 = false → d < 25 →
    s.hasIsland d = true → (s.getDom d).state = .fenced → s.runs d = true → (s.getIsland d).bistFail = false →
    (s.getIsland d).bistRun = 0 → (s.getIsland d).bistWait = 0 →
    ∃ t, exec (.releaseDomain .pf d) s = .next (settle t) ∧ (t.getDom d).state = .active ∧
      t.fault.relStatus = Status.ok.code ∧ t.fault.relDom = d ∧ (t.getIsland d).fenced = false ∧
      (∀ e, e ≠ d → t.getDom e = s.getDom e ∧ t.getIsland e = s.getIsland e) ∧
      t.quay = s.quay ∧ t.sess = s.sess ∧ t.keys = s.keys ∧ t.moor = s.moor ∧ t.mbox = s.mbox) ∧
  (∀ (d : Nat) (s : State), s.power = .on → s.auditFull = false → s.isolated 26 = false →
    s.domNamed d = true → s.domState d ≠ 3 ∨ (d < 25 ∧ s.runs d = false) →
    exec (.releaseDomain .pf d) s = .next (settle (auditLog 2 .eState 0x10 1 0 (faultBase + 8) 0
      { s with fault := { s.fault with relStatus := Status.eState.code, relDom := d } })))

/-- The berth commands that fill a berth (R428, R430): GEN with a DRBG key, DERIVE under a parent (R421), UNWRAP under a
wrap-usage parent; each leaves the target VALID, with the staged attributes, the key and its tag, and ends with OK. -/
def Obligations.BerthCommandsFill : Prop :=
  (∀ (v i : Nat) (b : Berth) (k : Bytes) (s u : State), s.power = .on → s.auditFull = false → s.isolated 26 = false →
    s.keys.rbFail = [] → bits 0 4 v = 1 → i = s.keys.berthSel → b = stageBerth s.keys.stage →
    (∀ c ∈ fillChecks i b s, c.1 = false) → drbg 32 s = some (k, u) →
    exec (.gen v) s = .next (berthEnd (s.getBerth i) i
      (.ok, dropCopies i (u.setBerth i (tagged u i { b with key := k, state := .valid }))))) ∧
  (∀ (v i : Nat) (b : Berth) (pk : Bytes) (s : State), s.power = .on → s.auditFull = false →
    s.isolated 26 = false → s.keys.rbFail = [] → bits 0 4 v = 2 → bits 25 9 v ≤ 256 → i = s.keys.berthSel →
    b = stageBerth s.keys.stage → (∀ c ∈ fillChecks i b s, c.1 = false) →
    parentKey (bit1 20 v) (bits 4 16 v) (bits 21 4 v) b s = (.ok, pk, s) →
    exec (.derive v) s = .next (berthEnd (s.getBerth i) i
      (.ok, dropCopies i (s.setBerth i (tagged s i { b with
        key := kdf pk (bits 21 4 v) (kdfCtx s (bits 21 4 v) (s.keys.ctx 0 (bits 25 9 v))), state := .valid }))))) ∧
  (∀ (v i : Nat) (b : Berth) (pk key : Bytes) (s : State), s.power = .on → s.auditFull = false →
    s.isolated 26 = false → s.keys.rbFail = [] → bits 0 4 v = 6 → bits 25 9 v ≤ 256 → bit1 20 v = false →
    4 < bits 21 4 v → bits 21 4 v < 9 → i = s.keys.berthSel → b = stageBerth s.keys.stage →
    (∀ c ∈ fillChecks i b s, c.1 = false) → berthLoad (bits 4 16 v) mKdf 3 (fun _ => true) s = (.ok, pk, s) →
    parentFits (s.getBerth (bits 4 16 v)) b = true → s.keys.unwrap (bits 25 9 v) pk = some key →
    exec (.unwrap v) s = .next (berthEnd (s.getBerth i) i
      (.ok, dropCopies i (s.setBerth i (tagged s i { b with key := key, state := .valid }))))) ∧
  (∀ (before : Berth) (i : Nat) (st : Status) (s : State),
    (berthEnd before i (st, s)).getBerth i = s.getBerth i ∧ (berthEnd before i (st, s)).keys.status = st.code ∧
      (berthEnd before i (st, s)).keys.kdfCtx = [])

/-- The berth commands that move a berth between states (R428), and the write of a KeyID map entry whose conditions hold
(R433). -/
def Obligations.BerthCommandsChange : Prop :=
  (∀ (v i : Nat) (b : Berth) (s : State), s.power = .on → s.auditFull = false → s.isolated 26 = false →
    s.keys.rbFail = [] → i = s.keys.berthSel → b = s.getBerth i →
    (bits 0 4 v = 3 → b.state = .valid ∨ b.state = .bad →
      exec (.zeroise v) s = .next (settle (berthEnd b i (.ok, emptyBerth i s)))) ∧
    (bits 0 4 v = 3 → b.state ≠ .valid → b.state ≠ .bad →
      exec (.zeroise v) s = .next (settle (berthEnd b i (.eState, s)))) ∧
    (bits 0 4 v = 4 → b.state = .valid → stageState s.keys.stage = 2 →
      exec (.setState v) s = .next (settle (berthEnd b i
        (.ok, revokeHolders i ((dropCopies i s).setBerth i { b with state := .revoking }))))) ∧
    (bits 0 4 v = 4 → b.state = .revoking → stageState s.keys.stage = 3 →
      exec (.setState v) s = .next (settle (berthEnd b i
        (.ok, s.setBerth i (tagged s i { b with key := zeros 32, state := .quarantine }))))) ∧
    (bits 0 4 v = 4 → b.state = .quarantine → stageState s.keys.stage = 0 →
      exec (.setState v) s = .next (settle (berthEnd b i (.ok, emptyBerth i s)))) ∧
    (bits 0 4 v = 5 → b.state = .valid →
      exec (.setMasters v) s = .next (berthEnd b i
        (.ok, dropCopies i (s.setBerth i (tagged s i { b with masters := bits 0 30 s.keys.stage })))))) ∧
  (∀ (v : Nat) (s : State), s.power = .on → s.auditFull = false → s.isolated 26 = false → s.keys.rbFail = [] →
    kmapOk s.keys.kmapSel (kmapOf v) s = true → kmapOf v ≠ s.getKmap s.keys.kmapSel →
    exec (.kmapWrite v) s = .next (auditLog 1 .ok 0 0 0 (keyBase + 0x308) (kmapOf v).word
      (kmapPut s.keys.kmapSel (kmapOf v) s)))

/-- Life-cycle commands: an LC_TRANSITION whose checks pass programs its words (R438), or begins the erase first; one whose
checks fail ends with that status and moves nothing (R440); ERASE_USER_SECRETS zeroises every berth of usage seal, wrap or
load-only and starts writing USER_EPOCH (R444). -/
def Obligations.LifeCycleCommandsRun : Prop :=
  (∀ (s u : State), s.power = .on → s.auditFull = false → s.mbox.busy = false → s.lcState < 8 → u = mbOn 0x60 s →
    (lcChecks u = .ok → lcErases s.lcState (bits 0 3 (s.oper 0)) = false →
      exec .lcTransition s = .next (lcProgram { u with lc := { u.lc with target := bits 0 3 (s.oper 0) } })) ∧
    (lcChecks u ≠ .ok → lcChecks u ≠ .eToken →
      exec .lcTransition s = .next (mbEnd (lcChecks u) 0 (lcOutcome (lcChecks u) u))) ∧
    (lcChecks u = .eToken →
      exec .lcTransition s = .next (mbEnd .eToken 0 (lcOutcome .eToken (tokenFail u))))) ∧
  (∀ (s : State), MbReady [3] s → s.running = true → s.moorsFree = true →
    Tab.get 0 s.audit.wear 0 < 100000 → (∀ r ∈ s.audit.nv, ∀ j w h, r.use ≠ .wear j w h) →
    ∃ t, exec .eraseUserSecrets s = .next t ∧
      (∀ i, (s.getBerth i).usage = 2 ∨ (s.getBerth i).usage = 3 ∨ (s.getBerth i).usage = 5 → t.getBerth i = {}) ∧
      (∀ i, (∀ p ∈ s.keys.berths, p.1 = i → p.2.usage ≠ 2 ∧ p.2.usage ≠ 3 ∧ p.2.usage ≠ 5) →
        t.getBerth i = s.getBerth i) ∧
      t.mbox.busy = true ∧ t.moor = s.moor ∧ t.sess = s.sess ∧ t.lc = s.lc)

/-- FW_UPDATE by stages (R602, R603): BEGIN opens the standby bank, DATA appends, VERIFY of a complete image that is signed,
of a fit SVN and well formed marks it VERIFIED, ACTIVATE stops Prity and waits for the new image, COMMIT burns the
anti-rollback bits first where the SVN has risen (R446), REVERT goes back to the standby image, ABORT empties it. -/
def Obligations.FirmwareStagesRun : Prop :=
  ∀ (s u : State) (x : FwBank), s.power = .on → s.auditFull = false → s.mbox.busy = false → 1 ≤ s.lcState →
    s.lcState ≤ 5 → u = mbOn 0x18 s → x = s.fwBank s.standby →
    (s.oper 0 = 0 → s.oper 1 % 8 = 0 → 8193 ≤ s.oper 1 → s.oper 1 ≤ 1048576 → s.fw.run ≠ 1 →
      exec .fwBegin s =
        .next (mbEnd .ok 0 (fwOk 0 (u.setFwBank s.standby { state := .loading, len := s.oper 1 })).2)) ∧
    (s.oper 0 = 1 → x.state = .loading → s.oper 1 = x.data.length → s.oper 1 + s.mbox.dataLen ≤ x.len →
      exec .fwData s =
        .next (mbEnd .ok 0 (fwOk 1 (u.setFwBank s.standby { x with data := x.data ++ s.mbData 0 s.mbox.dataLen })).2)) ∧
    (s.oper 0 = 2 → x.state = .loading → x.len ≤ x.data.length → s.imageSigned x.data = true → imageSvn x.data ≤ 64 →
      s.arb ≤ imageSvn x.data → imageFormat x.data = true →
      exec .fwVerify s =
        .next (mbEnd .ok 0 (fwOk 2 (u.setFwBank s.standby { x with state := .verified, svn := imageSvn x.data })).2)) ∧
    (s.oper 0 = 2 → x.state = .loading → x.len ≤ x.data.length → s.imageSigned x.data = false →
      exec .fwVerify s = .next (mbEnd .eAuth 0 u)) ∧
    (s.oper 0 = 3 → x.state = .verified → s.fwHeld = false → s.fw.romOnly = false → s.arb ≤ x.svn → s.fw.run = 0 →
      exec .fwActivate s = .next { u with fw := { u.fw with
        activating := true, up := false, prevRun := 0, run := 1, bank := s.standby, svn := x.svn } }) ∧
    (s.oper 0 = 4 → s.fw.run = 1 → s.fw.svn ≤ s.arb →
      exec .fwCommit s = .next (mbEnd .ok 0 (fwOk 4 { u with fw := { u.fw with run := 2 } }).2)) ∧
    (s.oper 0 = 4 → s.fw.run = 1 → s.arb < s.fw.svn →
      exec .fwCommit s = .next (otpPush
        { prog := false, addr := 0x48, data := 0, use := .arbBack (s.otpWord 0x48 ||| (2 ^ s.fw.svn - 2 ^ s.arb)) }
        (otpPush { prog := true, addr := 0x48, data := 2 ^ s.fw.svn - 2 ^ s.arb, use := .arb } u))) ∧
    (s.oper 0 = 5 → s.fw.run = 1 → x.state = .verified → s.arb ≤ x.svn →
      exec .fwRevert s = .next (mbEnd .ok 0 (fwOk 5 (restartNote (prityBoot s.standby
        (endSessions { u with fw := { u.fw with run := s.fw.prevRun, prevRun := 1 } })))).2)) ∧
    (s.oper 0 = 6 → x.state ≠ .empty →
      exec .fwAbort s = .next (mbEnd .ok 0 (fwOk 6 (u.setFwBank s.standby {})).2)) ∧
    (s.oper 0 = 6 → x.state = .empty →
      exec .fwAbort s = .next (mbEnd .eState 0 (mbRefuse 0x18 .eState u)))

/-- The end of an ACTIVATE (R603): the new image reports ready and runs on, or 40 ms pass and the earlier image is started
again, or, where there is none, the boot ROM serves the mailbox; the command ends with E_INTEGRITY then. -/
def Obligations.ActivationEnds : Prop :=
  (∀ (s : State), s.power = .on → s.fw.activating = true → s.fw.prevRun = 0 →
    exec .imageReady s =
      .next (mbEnd .ok 0 (fwOk 3 (prityBoot s.fw.bank { s with fw := { s.fw with activating := false } })).2)) ∧
  (∀ (s : State), s.power = .on → s.fw.activating = true → s.fw.prevRun = 0 →
    exec .activateTimeout s = .next (mbEnd .eIntegrity 0
      { s with fw := { s.fw with activating := false, run := 0, bank := 0, svn := 0, fwid := [] } })) ∧
  (∀ (s : State), s.power = .on → s.fw.activating = true → s.fw.prevRun ≠ 0 →
    exec .activateTimeout s = .next (mbEnd .eIntegrity 0 (restartNote (prityBoot (1 - s.fw.bank)
      { s with fw := { s.fw with activating := false, run := s.fw.prevRun } })))) ∧
  (∀ (s : State), s.power = .on → s.fw.activating = false →
    exec .imageReady s = .next s ∧ exec .activateTimeout s = .next s)

/-- Reports (R465 to R470): an instance report goes to DATA with its length as the result; a package report asks every other
die of the package for its entry; when the time for entries has passed, the report is made without those that are missing. -/
def Obligations.QuotesRun : Prop :=
  (∀ (d : Bytes) (s t : State), MbReady [2, 3, 4] s → s.running = true → s.oper 0 = 0 → s.drbgReady = true →
    instanceReport (((List.range 4).map (fun i => leBytes 8 (s.oper (1 + i)))).flatten) (mbOn 0x10 s) = some (d, t) →
    exec .quoteInstance s = .next (mbEnd .ok d.length (mbPut d t))) ∧
  (∀ (s : State) (j : ReportJob), MbReady [2, 3, 4] s → s.running = true → s.oper 0 = 1 → s.drbgReady = true →
    s.att.report = none → s.follower = false → s.federated = true →
    j = { kind := 1, nonce := ((List.range 4).map (fun i => leBytes 8 (s.oper (1 + i)))).flatten, asker := .mailbox
          waits := (List.range s.straps.dieCount).filter (fun d => d ≠ s.straps.dieId) } →
    exec .quotePackage s = .next (j.waits.foldl (fun s d =>
        d2dSend false d ([BitVec.ofNat 8 (Config.fedMsg 2), 1, 0, 0] ++ slice 0 32 j.tenant) s)
      { mbOn 0x10 s with att := { s.att with report := some j } })) ∧
  (∀ (s : State) (o : Nat), MbReady [2, 3, 4] s → s.running = true → s.oper 0 = o → o = 0 ∨ o = 1 →
    s.drbgReady = false →
    exec (if o = 0 then .quoteInstance else .quotePackage) s = .next (mbEnd .eNoRes 0 (mbOn 0x10 s))) ∧
  (∀ (j : ReportJob) (d : Bytes) (s t : State), s.power = .on → s.att.report = some j → s.follower = false →
    assembleReport { j with waits := [] } s = some (d, t) →
    exec .dieEntryTimeout s = .next (reportDone { j with waits := [] } .ok d t)) ∧
  (∀ (s : State), s.power = .on → s.att.report = none → exec .dieEntryTimeout s = .next s)

/-- A Lichen engine's upstream port (R56 to R64): a request on a free lane is checked first, and either every line of it ends
with the status of the check that failed, or every line is accepted in order; a partial write waits while all 64 merge
entries are held, and gives way to another one; a beat goes to the oldest line that waits for one. -/
def Obligations.LichenUpstreamPort : Prop :=
  (∀ (n lane : Nat) (r : UpReq) (st : Status) (key : Bytes) (s v : State), s.power = .on → n < 8 → lane < 12 →
    s.runs n = true → (Tab.get ({} : Lane) (s.eng n).lanes lane).held = none →
    ¬(r.op = 2 ∧ (s.eng n).mergeHeld = 64) → upCheck n r (laneTook n lane r s) = (st, key, v) →
    (st ≠ .ok → exec (.upstreamRequest n lane r) s = .next (settle (failReq n lane s.serial r st v))) ∧
    (st = .ok → exec (.upstreamRequest n lane r) s = .next (settle (advance n ((List.range (r.lines + 1)).foldl
      (fun s' i => acceptLine n (upLine n lane s.serial r key i s'.fresh.1 s'.fresh.2) s'.fresh.2)
      (updLane n lane (fun l => { l with jobs := l.jobs ++ [{ serial := s.serial, req := r }] }) v)))))) ∧
  (∀ (n : Nat) (r : UpReq) (s : State),
    (s.closedDom n = true → upCheck n r s = (.eFenced, [], s)) ∧
    (s.closedDom n = false → r.op = 3 ∨ r.addr % 128 ≠ 0 ∨ (r.op = 2 ∧ r.lines ≠ 0) →
      upCheck n r s = (.eEncoding, [], s))) ∧
  (∀ (n lane : Nat) (r : UpReq) (s : State), s.power = .on → n < 8 → lane < 12 → s.runs n = true →
    r.op = 2 → (s.eng n).mergeHeld = 64 →
    ((Tab.get ({} : Lane) (s.eng n).lanes lane).held = none →
      exec (.upstreamRequest n lane r) s = .next (settle (updLane n lane (fun l => { l with held := some r }) s))) ∧
    ((Tab.get ({} : Lane) (s.eng n).lanes lane).held = none →
      exec (.requestWithdrawal n lane r) s = .next (settle s)) ∧
    (∀ u, u = updLane n lane (fun l => { l with held := none }) s →
      (Tab.get ({} : Lane) (s.eng n).lanes lane).held ≠ none → (u.eng n).mergeHeld = 64 →
      exec (.requestWithdrawal n lane r) s = .next (settle (updLane n lane (fun l => { l with held := some r }) u)))) ∧
  (∀ (n lane serial idx : Nat) (l : List (Nat × Nat)) (data : Bytes) (be : Nat) (s u : State), s.power = .on →
    n < 8 → lane < 12 → s.runs n = true → (Tab.get ({} : Lane) (s.eng n).lanes lane).beats = (serial, idx) :: l →
    u = updLane n lane (fun x => { x with beats := l }) s →
    (∀ o, (u.eng n).ops.find? (fun o => decide (o.org = .up lane serial idx)) = some o →
      exec (.writeDataBeat n lane data be) s =
        .next (settle (advance n (putLine n { o with beat := some (slice 0 128 data, be % 2 ^ 128) } u)))) ∧
    ((u.eng n).ops.find? (fun o => decide (o.org = .up lane serial idx)) = none →
      exec (.writeDataBeat n lane data be) s = .next (settle u))) ∧
  (∀ (n entry : Nat) (o next : LineOp) (p : Bytes) (s : State), s.power = .on →
    ((s.eng n).ops.filter (fun o => decide (o.kind = .part)))[entry]? = some o → o.phase = .merged →
    o.plain = some p → (s.eng n).nextInChain o = some next →
    exec (.chainHandoff n entry) s = .next (settle (advance n
      (mergeEntry n { next with plain := some p, dirty := o.dirty, ctr := o.ctr, phase := .merge }
        (putLine n { next with plain := some p, dirty := o.dirty, ctr := o.ctr, phase := .merge }
          (bump (licBase n + 0x80) (putLine n { o with plain := none } s)))))))

/-- A Lichen engine's downstream port: a cycle of it gives each ready lane a request (R552); a response reaches the request
that it answers, by its identifier (R72, R145, R149), and one that answers none is dropped, or counted where its request
was answered at DRAIN_LIMIT (R53). -/
def Obligations.LichenDownstreamPort : Prop :=
  (∀ (n ready q : Nat) (s : State), s.power = .on → n < 8 → s.runs n = true →
    ∃ u, exec (.downstreamIssue n ready q) s = .next (settle (advance n (poolHand n 64
      ((List.range 16).foldl (fun s lane => if bit1 lane ready then issueLane n lane s else s) u)))) ∧
      ((∀ o ∈ (s.eng n).ops, o.kind ≠ .part) → (u.eng n).qlvl = q % 16 ∧ u.sess = s.sess ∧ u.keys = s.keys ∧
        u.moor = s.moor ∧ u.ctx = s.ctx ∧ (s.tide.qlvlHi ≤ q % 16 → (u.tslice n).press = true))) ∧
  (∀ (n id sb : Nat) (data : Bytes) (ue : Bool) (r : DnReq) (e : Engine) (op : Nat) (s : State), s.power = .on →
    s.runs n = true → (s.eng n).takeOut id false = some (r, e) → r.use = .data op →
    exec (.downstreamReadResponse n id data sb ue) s =
      .next (settle (advance n (dataBack n op (slice 0 128 data) (sb % 2 ^ 64) ue (s.setEng n e))))) ∧
  (∀ (n id : Nat) (ue : Bool) (r : DnReq) (e : Engine) (op : Nat) (s : State), s.power = .on → s.runs n = true →
    (s.eng n).takeOut id true = some (r, e) → r.use = .data op →
    exec (.downstreamWriteComplete n id ue) s =
      .next (settle (advance n (partDone n op false ue (bumpIf ue (licBase n + 0xB8) (s.setEng n e)))))) ∧
  (∀ (n id sb : Nat) (data : Bytes) (ue : Bool) (s : State), s.power = .on → s.runs n = true →
    (s.eng n).takeOut id false = none →
    exec (.downstreamReadResponse n id data sb ue) s = .next (settle (if (s.eng n).late.contains id
      then bump (faultBase + 0x308) (s.updEng n (fun e => { e with late := e.late.erase id })) else s))) ∧
  (∀ (n id : Nat) (ue : Bool) (s : State), s.power = .on → s.runs n = true →
    (s.eng n).takeOut id true = none → (s.eng n).late.contains id = false →
    exec (.downstreamWriteComplete n id ue) s = .next (settle s))

/-- Prity's writes to Lichen: CTRL.INIT starts the fill where the range is empty and the configuration is right (R131),
CTRL.FLUSH writes back each dirty counter line (R170); a change of a frozen region's STATE that R162 permits is made on
every engine and logged, and any other is ignored and counted (R175). -/
def Obligations.LichenControlWrites : Prop :=
  (∀ (n : Nat) (s : State), s.power = .on → n < 8 → s.hasEng n = true → s.auditFull = false → s.isolated n = false →
    ((s.eng n).reg.limit ≤ (s.eng n).reg.base → (s.eng n).reg.initBusy = false →
      (s.eng n).reg.cfgErr s.straps.tagSb = false →
      exec (.lichenInit .prity n) s = .next (settle (advance n (initDue n (s.setEng n
        { s.eng n with reg := { (s.eng n).reg with initBusy := true }, fill := 0, cc := [] }))))) ∧
    exec (.lichenFlush .prity n) s = .next (settle (advance n (licFlush n s))) ∧
    ((∀ c ∈ (s.eng n).cc, c.dirty = false) →
      licFlush n s = s.setEng n { s.eng n with due := (s.eng n).due ++ [] }) ∧
    exec (.lichenInit .pf n) s = .next (settle (bump (permAddr (licBase n)) s)) ∧
    exec (.lichenFlush .pf n) s = .next (settle (bump (permAddr (licBase n)) s))) ∧
  (∀ (f dst : Nat) (s : State), s.power = .on → s.auditFull = false → s.keys.rbFail = [] → f < 64 → dst < 4 →
    (s.frzMoves f dst = true →
      exec (.frzStateWrite f dst) s = .next (settle (s.engines.foldl (fun t n => auditLog 1 .ok 0 0 0 (frzAddr n f + 0x10)
        (fld 0 2 dst + fld 2 13 (s.frz f).keyid + fld 32 32 (if dst = 1 then (s.frz f).gen + 1 else (s.frz f).gen)) t)
        (frzEnter f dst s)))) ∧
    (s.frzMoves f dst = false →
      exec (.frzStateWrite f dst) s =
        .next (settle (s.engines.foldl (fun t n => bump (permAddr (frzAddr n f)) t) s)))) ∧
  (∀ (f : Nat) (s : State), ((s.frz f).state = 0 ∨ (s.frz f).state = 2 → (s.frz f).gen = 0xFFFFFFFF →
      s.frzMoves f 1 = false) ∧ ((s.frz f).state = 1 ∨ (s.frz f).state = 2 → s.frzMoves f 0 = true) ∧
    ((s.frz f).state = 0 → s.frzMoves f 2 = false))

/-- Tide (R177 to R190): REKEY whose checks pass draws a key into the lowest EMPTY berth and queues its job; an engine takes
the oldest job that names it; a pace window sets its rate and credit; a turn that the credit pays for takes its line. -/
def Obligations.TideCommandsRun : Prop :=
  (∀ (s u v : State) (key : Bytes) (k : KmapEnt) (old : Berth) (ob b : Nat), MbReady lcAny s →
    strays (s.oper 0) 0xFF1FFF = false → u = mbOn 0x30 s → k = s.getKmap (bits 0 13 (s.oper 0)) →
    ob = (if k.altMask ≠ 0 ∧ bits 16 8 (s.oper 0) = k.altMask then k.alt else k.berth) → old = s.getBerth ob →
    ((rekeyStart (s.oper 0) u).1 ≠ .ok →
      exec .rekeyStart s = .next (settle (mbEnd (rekeyStart (s.oper 0) u).1 0 (rekeyStart (s.oper 0) u).2))) ∧
    ((rekeyStart (s.oper 0) u).1 = .ok → s.keys.rbFail = [] → drbg 32 u = some (key, v) → b = v.freeBerth.getD 0 →
      exec .rekeyStart s = .next (settle (mbEnd .ok 0 (queueJob (v.freeJob.getD 0)
        { kind := 1, keyid := bits 0 13 (s.oper 0), moor := (old.ten.bind tenMoor).getD 0
          mask := bits 16 8 (s.oper 0), oldBerth := ob, newBerth := b }
        (dropCopies b (v.setBerth b (tagged v b
          { key := key, masters := old.masters, world := old.world, tenant := old.tenant, lcmask := old.lcmask
            usage := 0, state := .valid })))))))) ∧
  (∀ (n : Nat) (s : State), s.power = .on → (s.tslice n).kind ≠ 0 → (s.pressed n = true →
      exec (.tidePaceWindow n) s = .next (s.setSlice n { s.tslice n with
        rate := s.tide.minPct, credit := s.tide.minPct * 24000, other := 0, press := false })) ∧
    (s.pressed n = false → (s.tslice n).press = false → (s.eng n).qlvl < s.tide.qlvlHi →
      exec (.tidePaceWindow n) s = .next (s.setSlice n { s.tslice n with
        rate := min s.tide.maxPct (max s.tide.basePct (100 - (s.tslice n).other * 100 / 2400000))
        credit := min s.tide.maxPct (max s.tide.basePct (100 - (s.tslice n).other * 100 / 2400000)) * 24000
        other := 0, press := false }))) ∧
  (∀ (n j : Nat) (x : TideJob) (s : State), s.power = .on → s.hasEng n = true → s.closedDom n = false →
    (s.tslice n).kind = 0 → s.mode = .normal → oldestJob n s.tide.jobs = some (j, x) → x.kind = 2 →
    ∃ u z, exec (.tideJobStart n) s = .next (settle (sliceCheck n u)) ∧ u.tslice n = z ∧ z.kind = 2 ∧ z.job = j ∧
      z.held = false ∧ z.credit = 0 ∧ z.moor = x.moor ∧ z.more = s.scrubIvs x.moor n ∧ z.next = z.tideLine ∧
      u.job j = { x with state := 2, began := x.began + 2 ^ n } ∧ u.lic = s.lic ∧ u.sess = s.sess) ∧
  (∀ (n : Nat) (s : State), s.power = .on → (s.tslice n).kind ≠ 0 →
    (s.tslice n).credit < s.turnCost n ((s.tslice n).pick 512 (s.tslice n).next) (decide ((s.tslice n).kind = 2)) →
    exec (.tideTurn n) s = .next (settle s)) ∧
  (∀ (n x a : Nat) (z : Slice) (s : State), s.power = .on → z = s.tslice n → z.kind = 2 → z.held = false →
    s.closedDom n = false → (s.job z.job).state ≠ 3 → x = z.pick 512 z.next → z.holds x = true → s.inFlight n < 512 →
    posIn z.ivs x < posIn z.ivs z.tideLine + 512 → s.turnCost n x true ≤ z.credit →
    (s.eng n).slotAddr x = some (false, a) →
    exec (.tideTurn n) s = .next (settle (advance n (acceptLine n
      { id := s.serial, org := .turn x true, kind := .scrub, pool := false, line := a / 128, dline := x, slot := x
        keyid := z.keyid, ten := z.moor, ctx := 0, key := (s.getBerth z.newBerth).key
        key2 := (s.getBerth z.newBerth).key, cls := s.classOf a, cyc := s.cyc }
      { s.setSlice n { z with next := nextIn z.ivs x, credit := z.credit - s.turnCost n x true } with
        serial := s.serial + 1 }))))

/-- A quay's transmit side: a flit packet that passes its checks is queued, and any other is refused with its status (R78);
a frame starts with a control frame that is due (R214); the acknowledgement delay, a retransmission and its limit, a move of
generation, a probe repeated and a buffer's flush time act as R216 to R236 say. -/
def Obligations.QuayTransmitSide : Prop :=
  (∀ (q : Nat) (p : Flit) (x : Session) (s : State), s.power = .on → s.runs (8 + q) = true →
    s.closedDom (8 + q) = false → p.framing = true → 0 < p.data.length → p.data.length ≤ 2048 → p.sess < 4096 →
    x = s.getSess p.sess → x.state = .opened → x.ten = p.ten → x.quay = q → x.seq < 2 ^ 63 →
    (p.typ = 0 → exec (.flitPacket q p) s = .next (settle (s.updQuay q (fun y => { y with flit := y.flit ++
      [{ sess := p.sess, typ := 0, data := p.data, ten := p.ten, ctx := p.ctx, org := .flit
         long := decide (256 < p.data.length) }] })))) ∧
    (p.typ ≠ 0 → p.typ ≠ 2 → exec (.flitPacket q p) s =
      .next (settle (bump (quayBase q + 0x128) (markLost p.ten p.ctx .eEncoding s))))) ∧
  (∀ (q : Nat) (p : Flit) (s : State), s.power = .on → s.runs (8 + q) = true → s.closedDom (8 + q) = true →
    exec (.flitPacket q p) s = .next (settle (bump (quayBase q + 0x128) (markLost p.ten p.ctx .eFenced s)))) ∧
  (∀ (q : Nat) (c : CtlDue) (l : List CtlDue) (s t : State), s.power = .on → s.quayTx q = true →
    ((orderHeads q s).getQuay q).ctl = c :: l → startCtl q c (orderHeads q s) = some t →
    exec (.frameStart q) s = .next (settle t)) ∧
  (∀ (i : Nat) (s : State), s.power = .on → (s.getSess i).state = .opened → 0 < (s.getSess i).unacked →
    exec (.ackDelayExpiry i) s = .next (settle (s.updQuay (s.getSess i).quay (fun x =>
      if x.ctl.contains (.ack i) then x else { x with ctl := x.ctl ++ [.ack i] })))) ∧
  (∀ (i seq q : Nat) (f : Replay) (x : Session) (s : State), s.power = .on → x = s.getSess i → q = x.quay →
    x.replay.find? (fun f => f.seq = seq) = some f → x.state = .opened → f.sack = false →
    (f.tries < (s.getQuay q).retxLimit → (s.getQuay q).retx.contains (i, seq) = false → f.gen = x.txGen →
      f.dest = x.dest → f.src = (s.getQuay q).addr → s.epochOk f.epoch = true →
      exec (.retransmission i seq) s = .next (settle (((bump (quayBase q + 0x108) s).updSess i (fun x =>
        { x with replay := x.replay.map (fun g => if g.seq = seq then { f with tries := f.tries + 1 } else g) })).updQuay q
        (fun y => { y with retx := y.retx ++ [(i, seq)] })))) ∧
    ((s.getQuay q).retxLimit ≤ f.tries →
      exec (.retransmissionLimit i seq) s = .next (settle (breakSess i .eAuth s)))) ∧
  (∀ (i : Nat) (x : Session) (cur nxt k : GenKey) (l : List GenKey) (s u : State), s.power = .on → x = s.getSess i →
    s.moveDue i = true → x.txKeys = cur :: nxt :: l → x.state = .opened → x.txGen ≤ x.peerRxGen →
    deriveGen i x.dir (x.txGen + 2) cur.berth s = (some k, u) →
    exec (.generationMove i) s = .next (settle (bump (quayBase x.quay + 0x120) (u.setSess i { x with
      txGen := x.txGen + 1, txKeys := [nxt, k], genFrames := 0, rot := false, at62 := false })))) ∧
  (∀ (i n : Nat) (x : Session) (s : State), s.power = .on → x = s.getSess i → x.probe = some n → x.state = .opened →
    (n < (s.getQuay x.quay).retxLimit → exec (.probeRepeat i) s =
      .next (settle (ctlDue x.quay (.probe i true) (s.setSess i { x with probe := some (n + 1) })))) ∧
    ((s.getQuay x.quay).retxLimit ≤ n → exec (.probeRepeat i) s = .next (settle (breakSess i .eAuth s)))) ∧
  (∀ (q i : Nat) (s : State), s.power = .on → (∃ b ∈ (s.getQuay q).gw, b.sess = i ∧ b.flush = false) →
    exec (.gwFlushTime q i) s = .next (settle (bump (quayBase q + 0x1B0) (s.setQuay q { s.getQuay q with
      gw := (s.getQuay q).gw.map (fun b => if b.sess = i && !b.flush then { b with flush := true } else b) }))))

/-- A quay's receive side: what a received frame meets, in the order of R217 and R220, up to a frame that decrypts under a
key of its generation; a released flit goes to the port (R222); a link that falls asks for its sessions to move to the spare
quay, and one that rises lets the quay serve again (R234); a write of CTRL by the owner (R205). -/
def Obligations.QuayReceiveSide : Prop :=
  (∀ (q : Nat) (fr : Bytes) (bad framing : Bool) (h : FrameHdr) (ok : Bool) (x : Session) (s : State), s.power = .on →
    s.runs (8 + q) = true → s.closedDom (8 + q) = false → (s.getQuay q).linkUp = true → frameHdr fr = (h, ok) →
    x = s.getSess h.sess →
    (bad = true → exec (.receivedFrame q fr bad framing) s = .next (settle (bump (quayBase q + 0x138) s))) ∧
    (bad = false → fr.length < 48 ∨ 2096 < fr.length ∨ framing = false →
      exec (.receivedFrame q fr bad framing) s = .next (settle (bump (quayBase q + 0x140) s))) ∧
    (bad = false → framing = true → 48 ≤ fr.length → fr.length ≤ 2096 →
      (h.dest ≠ (s.getQuay q).addr ∨ x.openOn q = false → exec (.receivedFrame q fr bad framing) s =
        .next (settle (bump (quayBase q + 0x158) (bump (quayBase q + 0x150) s)))) ∧
      (∀ (k : GenKey) (key d : Bytes) (u : State), h.dest = (s.getQuay q).addr → x.openOn q = true →
        instAddr h.src = instAddr x.dest → s.reasmUsed q + 8 ≤ 2048 → ok = true → h.version = 1 → h.typ = 0 →
        h.plen = fr.length - 48 → h.seq < 2 ^ 63 →
        x.rxKeys.find? (fun k => k.ready && decide (k.gen % 4 = h.kgen)) = some k → genKey x k s = (.ok, key, u) →
        gcmOpen key (frameIv k.salt h.seq) (fr.take 32) ((fr.drop 32).take (fr.length - 48))
          (fr.drop (32 + (fr.length - 48))) = some d →
        (u.epochOk h.epoch = true →
          exec (.receivedFrame q fr bad framing) s = .next (settle (authFrame q h.sess h k.gen d u))) ∧
        (u.epochOk h.epoch = false → exec (.receivedFrame q fr bad framing) s =
          .next (settle (bump (quayBase q + 0x160) (bump (quayBase q + 0x150) u))))))) ∧
  (∀ (i : Nat) (f : RxFrame) (x : Session) (s : State), s.power = .on → x = s.getSess i → x.state = .opened →
    s.runs (8 + x.quay) = true → s.closedDom (8 + x.quay) = false → x.rx.any (fun f => f.1 = x.rel + 1) = true →
    f = Tab.get ({ typ := 0, data := [], gen := 0 } : RxFrame) x.rx (x.rel + 1) → f.done = 0 → f.typ = 0 →
    x.fed = false → x.recv = none →
    ((s.getQuay x.quay).rxReady = true → exec (.releaseFrame i) s =
      .next (settle (advanceRel i (emit (.flRx x.quay i 0 x.ten f.data) s)))) ∧
    ((s.getQuay x.quay).rxReady = false → exec (.releaseFrame i) s = .next (settle s))) ∧
  (∀ (i : Nat) (x : Session) (k n : GenKey) (s u : State), s.power = .on → x = s.getSess i →
    x.rxKeys.find? (fun k => !k.ready) = some k → deriveGen i (1 - x.dir) k.gen k.berth s = (some n, u) →
    exec (.rxKeyDerived i) s = .next (settle (u.setSess i { x with
      rxKeys := x.rxKeys.filter (·.ready) ++ [n]
      ackHold := !((x.rxKeys.filter (·.ready)).length + 1 = x.rxKeys.length) }))) ∧
  (∀ (q : Nat) (s : State), s.power = .on → q < 16 →
    ((s.getQuay q).linkUp = true → exec (.linkDown q) s =
      .next (settle (migrAsk q (s.getQuay q).spare (s.updQuay q (fun x => { x with linkUp := false }))))) ∧
    exec (.linkUp q) s = .next (settle (s.updQuay q (fun x => { x with linkUp := true })))) ∧
  (∀ (i q q' : Nat) (x : Session) (s : State), s.power = .on → x = s.getSess i → s.migr = some (q, q') →
    x.state = .migrating → x.quay = q →
    ((s.getQuay q').linkUp = false → ∃ t, t = breakSess i .eNoRes s ∧ exec (.migrationMoveComplete i) s =
      .next (settle (if (t.homed q).any (fun p => decide (p.2.state = .migrating)) then t else migrDone t))) ∧
    ((s.getQuay q').linkUp = true → (s.homed q').length < 4096 →
      s.replayUsed q' + (x.replay.map (fun f => beatsOf f.data.length)).foldl (· + ·) 0 ≤ 2048 →
      ∃ t, t = raiseBoth .ok (8 + q') 7 x.ten 0 i q' (ctlDue q' (.probe i true) (rxMove i ((x.berths.foldl (fun s b =>
          (writeBerth b { s.getBerth b with masters := fld (mQuay q') 1 1 + fld mKdf 1 1 } s).2)
          (moveQueues q q' i s)).setSess i { x with
            state := .opened, quay := q', rx := [], replay := x.replay.map (fun f => { f with sack := false })
            probe := some 0 }))) ∧
        exec (.migrationMoveComplete i) s =
          .next (settle (if (t.homed q).any (fun p => decide (p.2.state = .migrating)) then t else migrDone t)))) ∧
  (∀ (q v : Nat) (x y : Quay) (s : State), s.power = .on → q < 16 → s.auditFull = false → s.isolated (8 + q) = false →
    x = s.getQuay q → y = x.withCtrl v → x ≠ y →
    (y.ctrlOk = true → x.gwEn = y.gwEn → exec (.quayCtrlWrite .pf q v) s = .next (settle
      (auditLog 1 .ok 0x10 1 0 (quayBase q) v (s.setQuay q y)))) ∧
    (y.ctrlOk = false → exec (.quayCtrlWrite .pf q v) s = .next (settle (bump (permAddr (quayBase q)) s))))

/-- The session commands (R208 to R233): SESSION_OPEN that ends with OK leaves the index OPEN on the quay named, under a serial
greater than every one before (R211, R212); SESSION_CLOSE closes an OPEN or BROKEN session; SESSION_MIGRATE starts the move,
SESSION_ROTATE asks for the next generation. A state that does not allow the command gives E_STATE. -/
def Obligations.SessionCommandsRun : Prop :=
  (∀ (i : Nat) (st : Status) (s t : State), MbReady lcAny s → s.sessOpenBad = false → s.normal = true →
    sessOpenRun (mbOn 0x40 s) = (some (st, 0), t) → i = bits 0 12 (s.oper 0) →
    exec .sessionOpen s = .next (settle (mbEnd st 0 t)) ∧
    (st = .ok → (s.getSess i).state = .closed ∧ (s.getSess i).serial < s.oper 2 ∧ (t.getSess i).state = .opened ∧
      (t.getSess i).quay = bits 16 4 (s.oper 0) ∧ (t.getSess i).ten = bits 20 9 (s.oper 0) ∧
      (t.getSess i).dest = bits 0 24 (s.oper 1) ∧ (t.getSess i).peerSess = bits 32 12 (s.oper 1) ∧
      (t.getSess i).serial = s.oper 2 ∧ (t.getSess i).seq = 1 ∧ (t.getSess i).ctl = 0)) ∧
  (∀ (i : Nat) (s : State), MbReady lcAny s → s.oper 0 = i → i < 4096 → s.normal = true →
    ((s.getSess i).state = .opened ∨ (s.getSess i).state = .broken →
      exec .sessionClose s = .next (settle (mbEnd .ok 0 (closeSess i (mbOn 0x41 s))))) ∧
    ((s.getSess i).state = .closed → exec .sessionClose s =
      .next (settle (mbEnd .eState 0 (mbRefuse 0x41 .eState (mbOn 0x41 s))))) ∧
    ((s.getSess i).state = .opened → exec .sessionRotate s = .next (settle (mbEnd .ok 0
      ((mbOn 0x43 s).setSess i { s.getSess i with rot := true })))) ∧
    ((s.getSess i).state ≠ .opened → exec .sessionRotate s =
      .next (settle (mbEnd .eState 0 (mbRefuse 0x43 .eState (mbOn 0x43 s)))))) ∧
  (∀ (q q' : Nat) (s t : State), MbReady lcAny s → s.oper 0 = q → s.oper 1 = q' → q < 16 → q' < 16 →
    s.normal = true → s.migr = none → s.migrWait = [] →
    (migrStart q q' (mbOn 0x42 s) = (true, t) → exec .sessionMigrate s =
      .next (settle (if t.migr.isNone then mbEnd .ok 0 t else t))) ∧
    (migrStart q q' (mbOn 0x42 s) = (false, t) → exec .sessionMigrate s = .next (settle (mbEnd .eNoRes 0 t))))

/-- Reduction (R250 to R263): a local operand that has been read is staged as a partial of the local rank; a stored chunk is
output; an operand or a store that ends with another status fails its slot with that status (R254). -/
def Obligations.ReductionChunksGoOn : Prop :=
  ∀ (n k : Nat) (x : Slot) (c : Chunk) (s : State), s.power = .on → x = s.getSlot n → x.armed = true → c = x.chunk k →
    (∀ r, c.opBack = some .ok → c.operand = some r → exec (.operandArrival n k) s = .next (settle (s.updChunk n k
      (fun y => { y with
        staged := y.staged ++ [{ first := x.localRank, count := 1,
                                 vals := decodeVals x.fmt (x.chunkLen k) c.opData r.buf }]
        loaded := true, operand := none, opData := [], opBack := none })))) ∧
    (∀ st, st ≠ .ok → c.opBack = some st → exec (.operandArrival n k) s = .next (settle (slotFail n st s))) ∧
    (c.opBack = none → exec (.operandArrival n k) s = .next (settle s)) ∧
    (c.storeBack = some .ok → exec (.chunkStoreDone n k) s = .next (settle (chunkOut n k s))) ∧
    (∀ st, st ≠ .ok → c.storeBack = some st → exec (.chunkStoreDone n k) s = .next (settle (slotFail n st s))) ∧
    (c.storeBack = none → exec (.chunkStoreDone n k) s = .next (settle s))

/-- The registers of a submission queue and ALLOC_DB: a doorbell writes TAIL, and is ignored and counted where the value does
not fit or EN is 0 (R292); setting EN checks the configuration first (R291); entries are fetched a line at a time (R293);
ALLOC_DB starts one request, and a second while PENDING is 1 is ignored and counted (R329); an object whose last reference
has gone is freed (R313). -/
def Obligations.QueueRegistersAct : Prop :=
  (∀ (v t k tail : Nat) (q : Nat) (x : SubQueue) (s : State), s.power = .on → s.auditFull = false →
    s.isolated 26 = false → s.vfMoor v true = some t → k < (s.getMoor t).adm.qCount → q = (s.getMoor t).adm.qFirst + k →
    x = s.getQueue q → tail < 0x10000 →
    (tail < x.slots → x.en = true → s.worldRuns x.ten = true →
      exec (.sqDoorbell (.vf v true) k tail) s = .next (settle (s.setQueue q { x with tail := tail }))) ∧
    (x.slots ≤ tail ∨ x.en = false →
      exec (.sqDoorbell (.vf v true) k tail) s = .next (settle (dbErr x.ten s)))) ∧
  (∀ (k value : Nat) (x y : SubQueue) (s : State), s.power = .on → s.auditFull = false → s.isolated 26 = false →
    k < 4096 → x = s.getQueue k → x.ten = 0x100 → x.en = false → bit1 26 value = true → x.size = bits 0 5 value →
    x.bad = false → y = { x with eq := bits 5 8 value, quay := bits 13 4 value } →
    (s.queueCheck y = .ok → exec (.queueEnable .pf k value) s = .next (settle (s.setQueue k
      { y with en := true, stopped := false, stopSt := 0, fetching := [] }))) ∧
    (s.queueCheck y ≠ .ok → exec (.queueEnable .pf k value) s = .next (settle (s.setQueue k
      { y with en := false, stopped := true, stopSt := (s.queueCheck y).code })))) ∧
  (∀ (q : Nat) (x : SubQueue) (s : State), s.power = .on → x = s.getQueue q → x.en = true → x.bad = false →
    x.fetching = [] →
    (x.pending ≠ 0 → exec (.ringFetch q) s = .next (settle (submitLine (.ring q) .read (x.base + x.head / 2 * 128)
      x.ten 0 none false (s.setQueue q { x with
        fetching := [(x.head, if x.head % 2 = 0 ∧ 2 ≤ x.pending then 2 else 1)] })))) ∧
    (x.pending = 0 → exec (.ringFetch q) s = .next (settle s))) ∧
  (∀ (v t value : Nat) (s : State), s.power = .on → s.auditFull = false → s.isolated 26 = false →
    s.tenantOf (.vf v true) = some t →
    ((s.getMoor t).win.allocPending = true → bit1 0 value = false →
      exec (.allocDbAlloc (.vf v true) value) s = .next (settle (dbErr t s))) ∧
    ((s.getMoor t).win.allocPending = true → bit1 0 value = true →
      exec (.allocDbFree (.vf v true) value) s = .next (settle (dbErr t s))) ∧
    (∀ r, (s.getMoor t).win.allocPending = false → bit1 0 value = false → 12 ≤ bits 2 5 value → bits 2 5 value ≤ 30 →
      r = startOp { own := .allocDb t, ten := t, ctx := bits 7 20 value, code := 7, body := .plain, counted := false }
        (s.updWin t (fun w => { w with allocPending := true })) →
      ∃ a, a = allocNow t (bits 7 20 value) (2 ^ bits 2 5 value) (bit1 1 value) r.2 ∧
        exec (.allocDbAlloc (.vf v true) value) s = .next (settle (finishOp r.1 a.1 a.2.1 a.2.2.1 a.2.2.2))) ∧
    (∀ r u, (s.getMoor t).win.allocPending = false → bit1 0 value = true →
      u = s.updWin t (fun w => { w with allocPending := true }) →
      (∀ c ∈ handleChecks [(bits 32 32 value, [.extent])] t u, c.1 = false) →
      r = startOp { own := .allocDb t, ten := t, ctx := bits 7 20 value, code := 8
                    body := .objFree (handleIdx (bits 32 32 value)), counted := false } u →
      exec (.allocDbFree (.vf v true) value) s =
        .next (settle (objFreeStart r.1 (handleIdx (bits 32 32 value)) r.2)))) ∧
  (∀ (i : Nat) (s : State), s.power = .on → (s.getObj i).state = .freeing → (s.getObj i).refs = 0 →
    (∀ id, (s.getObj i).waiter = some id → exec (.objectReferencesZero i) s =
      .next (settle (finishOp id .ok 0 0 (retireObj i s)))) ∧
    ((s.getObj i).waiter = none → exec (.objectReferencesZero i) s = .next (settle (retireObj i s))))

/-- The queue commands on objects, bollards and contexts: a command at the front of its queue whose decode passes begins, and
ends or goes on with its own effect (R302, R311 to R332). ADD on a bollard and the test of a WAIT are those of R317 and
R320. -/
def Obligations.QueueObjectCommandsBegin : Prop :=
  (∀ (q : Nat) (c : QCmd) (r : Nat × State) (s : State), QStarts q c 0 { mask := opMask 0 } s →
    r = qBegun q c { mask := opMask 0 } .plain s →
    exec (.nop q) s = .next (settle (finishOp r.1 .ok 0 0 r.2))) ∧
  (∀ (q : Nat) (c : QCmd) (n : QNeeds) (r : Nat × State) (s : State), n = regNeeds (s.getQueue q) c (qTaken q c s) →
    QStarts q c 1 n s → r = qBegun q c n .plain s →
    (c.op 0 = 0 → exec (.objRegisterMemory q) s = .next (settle (registerMemory r.1 c r.2))) ∧
    (c.op 2 ≠ 0 → r.2.keyOf (r.2.getOp r.1).ten (c.op 1) = true →
      r.2.inArena (r.2.getOp r.1).ten (c.op 1) (c.op 2) = true → r.2.objRoom (r.2.getOp r.1).ten = true →
      ∃ o, o = newObj (r.2.getOp r.1).ten { typ := .memory, addr := c.op 1, size := c.op 2 } r.2 ∧
        registerMemory r.1 c r.2 = finishOp r.1 .ok 0 (o.2.handleOf o.1) o.2) ∧
    (c.op 0 = 1 → r.2.freeBoll = none →
      exec (.objRegisterBollard q) s = .next (settle (finishOp r.1 .eNoRes 0 0 r.2))) ∧
    (∀ b, c.op 0 = 1 → r.2.freeBoll = some b → r.2.objRoom (r.2.getOp r.1).ten = true →
      ∃ o t, o = newObj (r.2.getOp r.1).ten { typ := .bollard, boll := b } r.2 ∧
        t = o.2.setBoll b { value := c.op 1, state := 1, ten := (r.2.getOp r.1).ten, noSig := bit1 20 (c.op 2)
                            obj := o.1, signaller := if bit1 20 (c.op 2) then 0 else c.op 2 % 2 ^ 20 } ∧
        exec (.objRegisterBollard q) s = .next (settle (finishOp r.1 .ok 0 (t.handleOf o.1) t)))) ∧
  (∀ (q : Nat) (c : QCmd) (n : QNeeds) (r : Nat × State) (s : State),
    r = qBegun q c n (.objFree (handleIdx (c.op 0))) s →
    (n = freeNeeds false (s.getQueue q) c (qTaken q c s) → QStarts q c 2 n s →
      exec (.objFree q) s = .next (settle (objFreeStart r.1 (handleIdx (c.op 0)) r.2))) ∧
    (n = freeNeeds true (s.getQueue q) c (qTaken q c s) → QStarts q c 8 n s →
      exec (.free q) s = .next (settle (objFreeStart r.1 (handleIdx (c.op 0)) r.2)))) ∧
  (∀ (q : Nat) (c : QCmd) (n : QNeeds) (r : Nat × State) (s : State), n = signalNeeds (s.getQueue q) c (qTaken q c s) →
    QStarts q c 5 n s → r = qBegun q c n .plain s →
    (bit1 0 (c.op 2) = false → ∃ a, a = signalAdd (handleIdx (c.op 0)) (c.op 1) r.2 ∧
      exec (.bollardSignalAdd q) s = .next (settle (finishOp r.1 a.1 a.2.1 0 a.2.2))) ∧
    (bit1 0 (c.op 2) = true → ∃ a, a = signalReset (handleIdx (c.op 0)) (c.op 1) r.2 ∧
      exec (.bollardSignalReset q) s = .next (settle (finishOp r.1 a.1 a.2.1 0 a.2.2)))) ∧
  (∀ (q : Nat) (c : QCmd) (n : QNeeds) (r : Nat × State) (s : State), n = waitNeeds (s.getQueue q) c (qTaken q c s) →
    QStarts q c 6 n s → r = qBegun q c n (.wait (handleIdx (c.op 0)) (c.op 1)) s →
    (r.2.waitTest (handleIdx (c.op 0)) (c.op 1) = none → exec (.bollardWait q) s = .next (settle r.2)) ∧
    (∀ e, r.2.waitTest (handleIdx (c.op 0)) (c.op 1) = some e →
      exec (.bollardWait q) s = .next (settle (finishOp r.1 e.1 e.2 0 r.2)))) ∧
  (∀ (q : Nat) (c : QCmd) (n : QNeeds) (r : Nat × State) (s : State), n = allocNeeds (s.getQueue q) c (qTaken q c s) →
    QStarts q c 7 n s → r = qBegun q c n .plain s → bit1 1 (c.op 1) = false →
    ∃ a, a = allocNow (s.getQueue q).ten c.ctx (c.op 0) (bit1 0 (c.op 1)) r.2 ∧
      exec (.alloc q) s = .next (settle (finishOp r.1 a.1 a.2.1 a.2.2.1 a.2.2.2))) ∧
  (∀ (q : Nat) (c : QCmd) (n : QNeeds) (r : Nat × State) (s : State), n = queryNeeds (s.getQueue q) c (qTaken q c s) →
    QStarts q c 13 n s → r = qBegun q c n .queryCtx s →
    exec (.queryContext q) s = .next (settle (ioWrite r.1 ((r.2.getObj (handleIdx (c.op 1))).addr + c.op 2)
      (ctxBytes32 (r.2.getCtx (s.getQueue q).ten (c.op 0)) r.2.now) r.2))) ∧
  (∀ (q : Nat) (c : QCmd) (n : QNeeds) (r b : Nat × State) (s : State),
    n = retireNeeds (s.getQueue q) c (qTaken q c s) → QStarts q c 14 n s → r = qBegun q c n (.retire (c.op 0) 0) s →
    b = retireBegin r.1 (s.getQueue q).ten (c.op 0) r.2 →
    exec (.contextRetire q) s = .next (settle
      (failSeals (fun o _ => decide (o.ten = (s.getQueue q).ten ∧ o.ctx = c.op 0)) .eAborted
        (failSlots (fun x => decide (x.ten = (s.getQueue q).ten ∧ x.ctx = c.op 0)) .eAborted
          (stopStrands (fun _ x => decide (x.ten = (s.getQueue q).ten ∧ x.ctx = c.op 0)) .eAborted
            (b.2.updOp r.1 (fun o => { o with body := .retire (c.op 0) b.1 }))))))) ∧
  (∀ (q : Nat) (c : QCmd) (n : QNeeds) (r : Nat × State) (st : Status) (s : State), s.power = .on →
    s.front q = some c → 0x0E < c.opcode → n = { mask := opMask 0, enc := true } → st ≠ .ok →
    qDecode (s.getQueue q).ten c n (qTaken q c s) = (st, false) →
    r = startOp { own := .queue q c.idx c.user c.quiet, ten := (s.getQueue q).ten, ctx := c.ctx, code := c.opcode
                  body := .plain, compl := complOf 0 (s.getQueue q).ten (qTaken q c s), counted := false }
          (qTaken q c s) →
    exec (.nop q) s = .next (settle (finishOp r.1 st 0 0 r.2)))

/-- The queue commands that start work: COPY reads its first line, or ends at once when nothing is left (R305, R306),
PROGRAM_LAUNCH starts its strand at the entry point with the two parameters (R307), SEAL_LOAD opens its region, SEAL_ABORT and
REGION_RELEASE empty it (R308), KEY_UNWRAP reads the wrapped key (R477). -/
def Obligations.QueueWorkCommandsBegin : Prop :=
  (∀ (q : Nat) (c : QCmd) (n : QNeeds) (r : Nat × State) (src dst : Nat) (s : State),
    n = copyNeeds (s.getQueue q) c (qTaken q c s) → QStarts q c 3 n s →
    src = ((qTaken q c s).getObj (handleIdx (c.op 0))).addr + c.op 1 →
    dst = ((qTaken q c s).getObj (handleIdx (c.op 2))).addr + c.op 3 →
    r = qBegun q c n (.copy (s.getQueue q).quay src dst (c.op 4) false) s → 0 < c.op 4 →
    exec (.copy q) s = .next (settle (ioRead r.1 src (min (128 - dst % 128) (c.op 4)) r.2))) ∧
  (∀ (q : Nat) (c : QCmd) (n : QNeeds) (r : Nat × State) (p k : Nat) (s u : State),
    n = launchNeeds (s.getQueue q) c (qTaken q c s) → QStarts q c 4 n s → p = c.op 2 % 16 → k = c.op 2 / 16 % 4 →
    r = qBegun q c n (.launch p k) s →
    u = trace (s.getQueue q).ten 1 (8 + p) 4 .ok c.ctx c.user (k * 16 + p) (r.2.updQuay p (fun x => { x with
      icache := x.icache.filter (fun l => l.obj ≠ handleIdx (c.op 0))
      ifetch := x.ifetch.filter (fun f => f.obj ≠ handleIdx (c.op 0)) })) →
    exec (.programLaunch q) s = .next (settle (ctxBegin (s.getQueue q).ten c.ctx (u.setStrand p k
      { state := .running, pc := c.op 1, launch := r.1, prog := c.op 0, ten := (s.getQueue q).ten, ctx := c.ctx
        g := Tab.set 0 (Tab.set 0 [] 1 (BitVec.ofNat 64 (c.op 3))) 2 (BitVec.ofNat 64 (c.op 4)) })))) ∧
  (∀ (q : Nat) (c : QCmd) (n : QNeeds) (r : Nat × State) (s : State), n = sealNeeds (s.getQueue q) c (qTaken q c s) →
    QStarts q c 9 n s → r = qBegun q c n .plain s →
    (∀ st k u, st ≠ .ok → sealCheck (r.2.getQueue q).quay (s.getQueue q).ten (sealArgs c.ops) r.2 = (st, k, u) →
      exec (.sealLoad q) s = .next (settle (finishOp r.1 st 0 0 u))) ∧
    (∀ k u, sealCheck (r.2.getQueue q).quay (s.getQueue q).ten (sealArgs c.ops) r.2 = (.ok, k, u) →
      u.frzMoves (sealArgs c.ops).region 1 = false →
      exec (.sealLoad q) s = .next (settle (finishOp r.1 .eState 0 0 u))) ∧
    (∀ k u v, sealCheck (r.2.getQueue q).quay (s.getQueue q).ten (sealArgs c.ops) r.2 = (.ok, k, u) →
      u.frzMoves (sealArgs c.ops).region 1 = true → frzWrite (sealArgs c.ops).region 1 u = (true, v) →
      ∃ z w, w = setModel (s.getQueue q).ten (sealArgs c.ops).region none v ∧ z.region = (sealArgs c.ops).region ∧
        z.key = k ∧ z.len = (sealArgs c.ops).len ∧ z.src = (w.getObj (handleIdx (sealArgs c.ops).src)).addr +
          (sealArgs c.ops).off ∧
        exec (.sealLoad q) s = .next (settle (w.updOp r.1 (fun o => { o with body := .sealLoad z }))))) ∧
  (∀ (q : Nat) (c : QCmd) (n : QNeeds) (r : Nat × State) (g : Nat) (s : State), g = c.op 0 % 64 →
    n = regionNeeds (s.getQueue q) c (qTaken q c s) → r = qBegun q c n .plain s →
    r.2.regionOf (s.getQueue q).ten g = true →
    (QStarts q c 10 n s → (r.2.frz g).state = 1 → r.2.sealOn g = none →
      exec (.sealAbort q) s = .next (settle (finishOp r.1 .ok 0 0 (frzWrite g 0 r.2).2))) ∧
    (QStarts q c 10 n s → (r.2.frz g).state ≠ 1 →
      exec (.sealAbort q) s = .next (settle (finishOp r.1 .eState 0 0 r.2))) ∧
    (∀ u, QStarts q c 11 n s → (r.2.frz g).state = 2 → r.2.jobFor (r.2.frz g).keyid 255 = false →
      frzWrite g 0 r.2 = (true, u) →
      exec (.regionRelease q) s =
        .next (settle (finishOp r.1 .ok 0 0 (setModel (s.getQueue q).ten g none u))))) ∧
  (∀ (q : Nat) (c : QCmd) (n : QNeeds) (r : Nat × State) (u s : State), n = unwrapNeeds (s.getQueue q) c (qTaken q c s) →
    QStarts q c 12 n s → r = qBegun q c n .plain s → u = r.2.updOp r.1 (fun o => { o with body := .unwrap [] [] }) →
    exec (.keyUnwrap q) s =
      .next (settle (ioRead r.1 ((u.getObj (handleIdx (c.op 0))).addr + c.op 1) 1816 u)))

/-- The register instructions (R357, R376, R343): gD takes the result modulo 2^64, a write of g0 is discarded, g0 reads zero,
and the strand goes on at the next word. -/
def Obligations.StrandRegisterInstructions : Prop :=
  ∀ (q k w : Nat) (s u : State) (x : Strand) (d a b n : Nat), Issues q k w s → wordReserved w = false → u = issued q k s →
    x = u.getStrand q k → d = w / 2 ^ 52 % 16 →
    a = w / 2 ^ 48 % 16 → b = w / 2 ^ 44 % 16 → n = (gX x w).toNat % 64 →
    (opcodeOf w = 0x00 → exec (.nopInstruction q k) s =
      .next (settle (u.setStrand q k { x with pc := (x.pc + 8) % 2 ^ 32, wait := .no }))) ∧
    (opcodeOf w = 0x10 → exec (.movi q k) s =
      .next (settle (gSet q k d ((BitVec.ofNat 48 w).signExtend 64 <<< (16 * (w / 2 ^ 48 % 4))) u))) ∧
    (opcodeOf w = 0x11 → exec (.addi q k) s = .next (settle (gSet q k d (gReg x a + gImm w) u))) ∧
    (opcodeOf w = 0x12 → exec (.add q k) s = .next (settle (gSet q k d (gReg x a + gReg x b) u))) ∧
    (opcodeOf w = 0x13 → exec (.sub q k) s = .next (settle (gSet q k d (gReg x a - gX x w) u))) ∧
    (opcodeOf w = 0x14 → exec (.and q k) s = .next (settle (gSet q k d (gReg x a &&& gX x w) u))) ∧
    (opcodeOf w = 0x15 → exec (.or q k) s = .next (settle (gSet q k d (gReg x a ||| gX x w) u))) ∧
    (opcodeOf w = 0x16 → exec (.xor q k) s = .next (settle (gSet q k d (gReg x a ^^^ gX x w) u))) ∧
    (opcodeOf w = 0x17 → exec (.shl q k) s = .next (settle (gSet q k d (gReg x a <<< n) u))) ∧
    (opcodeOf w = 0x18 → exec (.shr q k) s = .next (settle (gSet q k d (gReg x a >>> n) u))) ∧
    (opcodeOf w = 0x3C → exec (.tstamp q k) s = .next (settle (gSet q k d (BitVec.ofNat 64 u.now) u)))

/-- The control instructions (R345, R349, R350, R358, R359, R376): a taken branch goes to PC + 8 × DISP and leaves the loops that
do not hold the target, a target outside the object faults with E_BOUNDS, LOOP and ENDL keep the loop stack, HALT and FENCE
wait for what is outstanding, TRAP and a reserved opcode or bit fault; a fetched line is installed, and one that failed
faults the strands that wait for it (R348). -/
def Obligations.StrandControlInstructions : Prop :=
  (∀ (q k w : Nat) (s u : State) (x : Strand) (t : Int) (size pc n : Nat) (taken : Bool) (i : Instr),
    Issues q k w s → wordReserved w = false → u = issued q k s → x = u.getStrand q k →
    size = (u.getObj (handleIdx x.prog)).size → t = (x.pc : Int) + 8 * (BitVec.ofNat 32 w).toInt →
    pc = (t % 2 ^ 32).toNat → n = x.reg (w / 2 ^ 48 % 16) →
    (((opcodeOf w, i, taken) = (0x03, Instr.br q k, true) ∨
      (opcodeOf w, i, taken) = (0x04, .beq q k, gReg x (w / 2 ^ 48 % 16) == gReg x (w / 2 ^ 44 % 16)) ∨
      (opcodeOf w, i, taken) = (0x05, .bne q k, gReg x (w / 2 ^ 48 % 16) != gReg x (w / 2 ^ 44 % 16)) ∨
      (opcodeOf w, i, taken) = (0x06, .blt q k, (gReg x (w / 2 ^ 48 % 16)).slt (gReg x (w / 2 ^ 44 % 16)))) →
      (taken = true → 0 ≤ t → t < size → exec i s = .next (settle (u.setStrand q k { x with
        pc := pc, wait := .no
        loops := x.loops.dropWhile (fun e => decide (pc < e.body) || decide (e.endl < pc)) }))) ∧
      (taken = true → t < 0 ∨ size ≤ t → exec i s =
        .next (settle (strandFault q k .eBounds pc 0 0 (u.setStrand q k { x with pc := pc })))) ∧
      (taken = false → exec i s =
        .next (settle (u.setStrand q k { x with pc := (x.pc + 8) % 2 ^ 32, wait := .no })))) ∧
    (opcodeOf w = 0x07 →
      ((BitVec.ofNat 32 w).toInt ≤ 0 →
        exec (.loop q k) s = .next (settle (strandFault q k .eEncoding x.pc 7 0 u))) ∧
      (0 < (BitVec.ofNat 32 w).toInt → 2 ^ 20 ≤ n →
        exec (.loop q k) s = .next (settle (strandFault q k .eLength x.pc 7 0 u))) ∧
      (0 < (BitVec.ofNat 32 w).toInt → n = 0 → t + 8 < size →
        exec (.loop q k) s = .next (settle (u.setStrand q k { x with pc := ((t + 8) % 2 ^ 32).toNat, wait := .no }))) ∧
      (0 < (BitVec.ofNat 32 w).toInt → 0 < n → n < 2 ^ 20 → 4 ≤ x.loops.length →
        exec (.loop q k) s = .next (settle (strandFault q k .eNoRes x.pc 7 0 u))) ∧
      (0 < (BitVec.ofNat 32 w).toInt → 0 < n → n < 2 ^ 20 → x.loops.length < 4 →
        exec (.loop q k) s = .next (settle (insNext q k (u.setStrand q k { x with
          loops := { body := (x.pc + 8) % 2 ^ 32, endl := pc, count := n } :: x.loops }))))) ∧
    (opcodeOf w = 0x08 →
      (x.loops = [] → exec (.endl q k) s = .next (settle (strandFault q k .eEncoding x.pc 8 0 u))) ∧
      (∀ e l, x.loops = e :: l → e.endl ≠ x.pc →
        exec (.endl q k) s = .next (settle (strandFault q k .eEncoding x.pc 8 0 u))) ∧
      (∀ e l, x.loops = e :: l → e.endl = x.pc → 1 < e.count →
        exec (.endl q k) s = .next (settle (u.setStrand q k { x with
          pc := e.body, loops := { e with count := e.count - 1 } :: l }))) ∧
      (∀ e l, x.loops = e :: l → e.endl = x.pc → e.count ≤ 1 →
        exec (.endl q k) s = .next (settle (insNext q k (u.setStrand q k { x with loops := l }))))) ∧
    (opcodeOf w = 0x01 →
      (u.strandOps q k = [] → exec (.halt q k) s = .next (settle (strandEnd q k u))) ∧
      (u.strandOps q k ≠ [] → exec (.halt q k) s = .next (settle (u.setStrand q k { x with wait := .drain w })))) ∧
    (opcodeOf w = 0x3D →
      (u.strandOps q k = [] → exec (.fenceInstruction q k) s =
        .next (settle (u.setStrand q k { x with pc := (x.pc + 8) % 2 ^ 32, wait := .no }))) ∧
      (u.strandOps q k ≠ [] →
        exec (.fenceInstruction q k) s = .next (settle (u.setStrand q k { x with wait := .drain w })))) ∧
    (opcodeOf w = 0x02 →
      exec (.trap q k) s = .next (settle (strandFault q k .eAborted x.pc 2 (w % 2 ^ 24) u)))) ∧
  (∀ (q k w : Nat) (s u : State), Issues q k w s → insMask (opcodeOf w) = none → u = issued q k s →
    exec (.reservedInstruction q k) s =
      .next (settle (strandFault q k .eEncoding (u.getStrand q k).pc (opcodeOf w) 0 u))) ∧
  (∀ (q : Nat) (y : Quay) (f : ICFetch) (s u : State), s.power = .on → y = s.getQuay q →
    y.ifetch.find? (fun f => f.back.isSome) = some f →
    u = s.setQuay q { y with ifetch := y.ifetch.filter (fun e => e.id ≠ f.id) } →
    (∀ d, f.back = some (.ok, d) → exec (.ifetchLineReturn q) s = .next (settle (u.updQuay q (fun z => { z with
      icache := icInstall { obj := f.obj, gen := f.gen, line := f.line, data := d, ahead := f.ahead } z.icache })))) ∧
    (∀ st d, st ≠ .ok → f.back = some (st, d) →
      exec (.ifetchLineReturn q) s = .next (settle ((List.range 4).foldl (fun u k =>
        if (u.getStrand q k).state = .running ∧ (u.getStrand q k).wait = .fetch ∧
            handleIdx (u.getStrand q k).prog = f.obj ∧ (u.getStrand q k).pc / 128 = f.line then
          strandFault q k st (u.getStrand q k).pc 0 0 u
        else u) u))))

/-- The instructions that start work (R360 to R375): where the checks of R353 pass, each begins its operation with the addresses
and lengths that its registers give, or does its effect at once; where they fail, the strand faults with the status of the
first that fails (R354). -/
def Obligations.StrandWorkInstructions : Prop :=
  ∀ (q k w : Nat) (s u : State) (x : Strand), Issues q k w s → wordReserved w = false → u = issued q k s →
    x = u.getStrand q k →
    (∀ v r addr, insPasses q k (ldNeeds x w) u v → addr = (v.getObj (handleIdx (insA x w))).addr + insOffset x w →
      (opcodeOf w = 0x19 → r = strandOp q k w (.ld (w / 2 ^ 52 % 16)) true v →
        exec (.ld q k) s = .next (settle (ioRead r.1 addr 8 (insNext q k r.2)))) ∧
      (opcodeOf w = 0x1A → r = strandOp q k w .st true v →
        exec (.st q k) s =
          .next (settle (ioWrite r.1 addr (leBytes 8 (x.reg (w / 2 ^ 52 % 16))) (insNext q k r.2))))) ∧
    (∀ st b, st ≠ .ok → st ≠ .eSeq → insCheck q x (ldNeeds x w) u = (st, b) →
      (opcodeOf w = 0x19 → exec (.ld q k) s = .next (settle (strandFault q k st x.pc 0x19 0 u))) ∧
      (opcodeOf w = 0x1A → exec (.st q k) s = .next (settle (strandFault q k st x.pc 0x1A 0 u)))) ∧
    (∀ len a b v r, opcodeOf w = 0x20 → len = insLen x w → a = (u.getObj (handleIdx (blk x w 0))).addr + blk x w 1 →
      b = (u.getObj (handleIdx (blk x w 2))).addr + blk x w 3 →
      insPasses q k { enc := blkOver w, len := some (len, 2 ^ 31), handles := [(blk x w 0, anyMem), (blk x w 2, anyMem)]
                      ranges := [(blk x w 0, blk x w 1, len), (blk x w 2, blk x w 3, len)]
                      state := [(overlaps a b len, .eEncoding)] } u v →
      a = (v.getObj (handleIdx (blk x w 0))).addr + blk x w 1 →
      b = (v.getObj (handleIdx (blk x w 2))).addr + blk x w 3 → r = strandOp q k w (.copy q a b len false) true v →
      exec (.copyInstruction q k) s = .next (settle (copyNext r.1 a b len (insNext q k r.2)))) ∧
    (∀ len v loc, len = insLen x w →
      insPasses q k { enc := blkOver w || decide (2 ^ 32 ≤ blk x w 3), len := some (len, 2 ^ 31)
                      handles := [(blk x w 1, anyMem)], ranges := [(blk x w 1, blk x w 2, len)]
                      sess := some (blk x w 0) } u v →
      loc = (v.getObj (handleIdx (blk x w 1))).addr + blk x w 2 →
      (opcodeOf w = 0x21 → exec (.put q k) s = .next (settle
        (insNext q k (strandOp q k w (.put loc (blk x w 0) (blk x w 3) (blk x w 4) len []) false v).2))) ∧
      (∀ r, opcodeOf w = 0x22 → r = strandOp q k w (.get (blk x w 0) [] []) false v → exec (.get q k) s =
        .next (settle (getPrepare r.1 loc (blk x w 0) (blk x w 3) (blk x w 4) len (insNext q k r.2))))) ∧
    (∀ len v loc, opcodeOf w = 0x23 → len = insLen x w →
      insPasses q k { enc := blkOver w, len := some (len, 2 ^ 31), handles := [(blk x w 1, anyMem)]
                      ranges := [(blk x w 1, blk x w 2, len)], sess := some (blk x w 0) } u v →
      loc = (v.getObj (handleIdx (blk x w 1))).addr + blk x w 2 →
      exec (.send q k) s = .next (settle (insNext q k (strandOp q k w (.send (blk x w 0) loc len 0) false v).2))) ∧
    (∀ len v loc r, opcodeOf w = 0x24 → len = insLen x w →
      insPasses q k { enc := blkOver w, len := some (len, 2 ^ 31), handles := [(blk x w 1, anyMem)]
                      ranges := [(blk x w 1, blk x w 2, len)], sess := some (blk x w 0), sends := false
                      state := [((u.getSess (blk x w 0)).recv.isSome, .eState)] } u v →
      loc = (v.getObj (handleIdx (blk x w 1))).addr + blk x w 2 →
      r = strandOp q k w (.recv (blk x w 0) loc len 0 []) true v →
      exec (.recv q k) s =
        .next (settle (insNext q k (r.2.updSess (blk x w 0) (fun y => { y with recv := some r.1 }))))) ∧
    (∀ z v, opcodeOf w = 0x28 ∨ opcodeOf w = 0x29 → z = insSlot x w u → armCheck x w z u = .ok →
      v = slotArm (x.reg (w / 2 ^ 44 % 16) % 1024) z (insNext q k (z.refs.foldl (fun u o => strandRef q k o u) u)) →
      (opcodeOf w = 0x28 → exec (.reduce q k) s = .next (settle v)) ∧
      (opcodeOf w = 0x29 → exec (.rfwd q k) s = .next (settle v))) ∧
    (∀ typ v r, opcodeOf w = 0x2C → typ = w / 2 ^ 44 % 4 → typ ≠ 3 → w / 2 ^ 46 % 4 ≠ 3 → w.testBit 43 = true →
      blk x w 2 % (if typ = 1 then 8 else 4) = 0 → blk x w 1 < 2 ^ 32 →
      insPasses q k { enc := blkOver w, sess := some (blk x w 0) } u v →
      r = strandOp q k w (.atom (blk x w 0) (w / 2 ^ 52 % 16) true typ) false v →
      exec (.atomInstruction q k) s = .next (settle (insNext q k (insPacket r.1 3 (w / 2 ^ 46 % 4 + 4 * typ + 16)
        (blk x w 1) (blk x w 2) (leBytes 8 (blk x w 3) ++ leBytes 8 0) r.2)))) ∧
    (∀ v r, opcodeOf w = 0x32 →
      insPasses q k { enc := blkOver w || decide (2 ^ 32 ≤ blk x w 1), sess := some (blk x w 0) } u v →
      r = strandOp q k w (.rsig (blk x w 0)) false v → exec (.rsigb q k) s = .next (settle (insNext q k
        (insPacket r.1 4 0 (blk x w 1) 0 (leBytes 8 (x.reg (w / 2 ^ 44 % 16))) r.2)))) ∧
    (∀ v, opcodeOf w = 0x30 → insPasses q k { handles := [(insA x w, [.bollard])] } u v → exec (.waitb q k) s =
      .next (settle (waitbTest q k w (handleIdx (insA x w)) (x.reg (w / 2 ^ 44 % 16)) v))) ∧
    (∀ v, opcodeOf w = 0x31 → insPasses q k { handles := [(insA x w, [.bollard])] } u v →
      (v.strandOps q k = [] → exec (.sigb q k) s = .next (settle (sigbApply q k w v))) ∧
      (v.strandOps q k ≠ [] →
        exec (.sigb q k) s = .next (settle (v.updStrand q k (fun x => { x with wait := .drain w }))))) ∧
    (∀ v, opcodeOf w = 0x39 → insPasses q k { handles := [(insA x w, [.extent])] } u v →
      (v.strandOps q k = [] → exec (.freeInstruction q k) s = .next (settle (freeApply q k w v))) ∧
      (v.strandOps q k ≠ [] →
        exec (.freeInstruction q k) s = .next (settle (v.updStrand q k (fun x => { x with wait := .drain w }))))) ∧
    (∀ d h, opcodeOf w = 0x38 → d = w / 2 ^ 52 % 16 → h = w / 2 ^ 44 % 16 →
      (2 ^ 30 < insA x w → exec (.allocInstruction q k) s = .next (settle (strandFault q k .eLength x.pc 0x38 0 u))) ∧
      (insA x w = 0 →
        exec (.allocInstruction q k) s = .next (settle (insNext q k (setReg q k h 0 (setReg q k d 0 u))))) ∧
      (∀ r, 0 < insA x w → insA x w ≤ 2 ^ 30 → r = strandOp q k w (.alloc d h) true u →
        exec (.allocInstruction q k) s = .next (settle (allocRun r.1 (insA x w) (w.testBit 43) (w.testBit 42) d h
          (r.2.updStrand q k (fun x => { x with wait := .op r.1 })))))) ∧
    (∀ a v r, opcodeOf w = 0x3A → a = sealArgs ((List.range 5).map (fun i => blk x w i)) →
      insPasses q k { enc := blkOver w || (tenMoor x.ten).isNone ||
                        (List.zipWith strays ((List.range 5).map (fun i => blk x w i)) sealMask).any id
                      len := some (a.len, 2 ^ 31), handles := a.handles, ranges := [(a.src, a.off, a.len)] } u v →
      v.engines.any v.closedDom = false → r = strandOp q k w .plain true v →
      exec (.sealld q k) s = .next (settle (sealStart r.1 q a (insNext q k r.2))))

/-- Remote memory (R388 to R406): the request at the front of a running quay's memory path is taken. A WRITE, READ or ATOM that
passes the checks of R390 goes to Lichen at the object's address plus OFFSET, a SIGNAL to its bollard, a pool request to the
lines of the store; one that fails is answered with the status of its check; a replayed ATOM reads its record (R401). A
reply ends the piece or the operation that its RID names, or goes to the flit receive port. -/
def Obligations.RemoteMemoryPackets : Prop :=
  (∀ (q : Nat) (m : MemPkt) (h : MemHdr) (s v : State) (ser addr : Nat), MemFirst q m h s →
    memAdmitted q m h s v → ser = (v.getSess m.sess).serial →
    addr = (v.getObj (handleIdx h.handle)).addr + h.off →
    (∀ r, v.tgtChecks (v.getSess m.sess).ten h = .ok →
      (h.kind = 1 → s.partsRoom ((s.getObj (handleIdx h.handle)).addr + h.off) h.len = true →
        r = tgtStart m.sess (m.data.take 32) .tgtWrite [handleIdx h.handle] v →
        exec (.write q) s = .next (settle (ioWrite r.1 addr (((m.data.drop 32)).take h.len) r.2))) ∧
      (h.kind = 2 → r = tgtStart m.sess (m.data.take 32) .tgtRead [handleIdx h.handle] v →
        exec (.read q) s = .next (settle (ioRead r.1 addr h.len r.2))) ∧
      (∀ w, h.kind = 3 → s.partsRoom ((s.getObj (handleIdx h.handle)).addr + h.off) 1 = true →
        w = (if h.attr / 4 % 4 = 1 then 8 else 4) →
        r = tgtStart m.sess (m.data.take 32) (.tgtAtom (h.attr % 4) (h.attr / 4 % 4) (addr % 128)
          (leNat (slice 0 w (m.data.drop 32))) (leNat (slice 8 w (m.data.drop 32))) 0) [handleIdx h.handle] v →
        exec (.atom q) s = .next (settle (ioWrite r.1 addr (zeros w) r.2))) ∧
      (h.kind = 4 → r = tgtStart m.sess (m.data.take 32) (.tgtSignal (handleIdx h.handle)
          (leNat (slice 0 8 (m.data.drop 32))) (v.recvMark m.sess)) [handleIdx h.handle] v →
        exec (.signal q) s = .next (settle r.2))) ∧
    (∀ st, st ≠ .ok → s.tgtChecks (s.getSess m.sess).ten h = st → v.tgtChecks (v.getSess m.sess).ten h = st →
      (h.kind = 1 → exec (.write q) s = .next (settle (answer m.sess ser h st 0 [] v))) ∧
      (h.kind = 2 → exec (.read q) s = .next (settle (answer m.sess ser h st 0 [] v))) ∧
      (h.kind = 3 → exec (.atom q) s = .next (settle (answer m.sess ser h st 8 (zeros 8) v))) ∧
      (h.kind = 4 → exec (.signal q) s = .next (settle (answer m.sess ser h st 8 (zeros 8) v)))) ∧
    (∀ p n, h.kind = 5 ∨ h.kind = 6 → p = v.fed.reg.pstore → n = h.len / 136 →
      (p.valid = false ∨ tenMoor (v.getSess m.sess).ten ≠ none →
        exec (if h.kind = 5 then .poolRead q else .poolWrite q) s =
          .next (settle (reply m.sess ser h .ePermission 0 [] v))) ∧
      (p.valid = true → tenMoor (v.getSess m.sess).ten = none → p.lines < h.off + n →
        exec (if h.kind = 5 then .poolRead q else .poolWrite q) s =
          .next (settle (reply m.sess ser h .eBounds 0 [] v))) ∧
      (∀ r, p.valid = true → tenMoor (v.getSess m.sess).ten = none → h.off + n ≤ p.lines →
        (h.kind = 5 → r = tgtStart m.sess (m.data.take 32) (.tgtPoolRead ((List.range n).map (h.off + ·)) [] []) [] v →
          exec (.poolRead q) s =
            .next (settle (ioRead r.1 (p.keyid % 2 ^ 13 * 2 ^ 51 + p.base + 128 * h.off) 128 r.2))) ∧
        (h.kind = 6 → r = tgtStart m.sess (m.data.take 32) (.tgtPoolWrite ((List.range n).map (fun k =>
            (h.off + k, slice (136 * k) 136 (m.data.drop 32)))) true) [] v →
          exec (.poolWrite q) s = .next (settle (ioWrite r.1 (p.keyid % 2 ^ 13 * 2 ^ 51 + p.base + 128 * h.off)
            (slice 0 128 (m.data.drop 32)) r.2)))))) ∧
  (∀ (q : Nat) (m : MemPkt) (h : MemHdr) (s u : State) (i : Instr), MemFirst q m h s →
    u = packetTaken m.sess (bump (fedBase + 0x4900) (memGone q s)) →
    (h.kind, i) ∈ [(1, Instr.write q), (2, .read q), (5, .poolRead q)] →
    (h.kind = 1 → s.partsRoom ((s.getObj (handleIdx h.handle)).addr + h.off) h.len = true) →
    (u.closedDom (8 + q) = true →
      exec i s = .next (settle (reply m.sess (s.getSess m.sess).serial h .eFenced 0 [] u))) ∧
    (u.closedDom (8 + q) = false → h.bad (m.data.drop 32).length = true →
      exec i s = .next (settle (reply m.sess (s.getSess m.sess).serial h .eEncoding 0 [] u)))) ∧
  (∀ (q : Nat) (m : MemPkt) (h : MemHdr) (s u : State) (id : Nat) (op : Op) (st : Status), MemFirst q m h s →
    h.flags.testBit 0 = true → st = Status.ofCode h.status → u = memGone q s → u.awaiting m.sess h.rid = some id →
    op = u.getOp id →
    (∀ loc j hd off len rids, h.kind = 0x81 → op.body = .put loc j hd off len rids →
      exec (.writeAck q) s = .next (settle (packetTaken m.sess (putNext id (u.setOp id { op with
        body := .put loc j hd off len (rids.erase h.rid), st := if op.st = .ok then st else op.st }))))) ∧
    (∀ j pieces writes p, h.kind = 0x82 → op.body = .get j pieces writes →
      pieces.find? (fun e => e.1 = h.rid) = some p → st = .ok →
      exec (.readData q) s = .next (settle (packetTaken m.sess (writesNext id (ctxBytes op.ten op.ctx p.2.2 (u.setOp id
        { op with
          body := .get j (pieces.filter (fun e => e.1 ≠ h.rid)) (writes ++ [(p.2.1, slice 0 p.2.2 (m.data.drop 32))])
          st := if op.st = .ok then .ok else op.st })))))) ∧
    (∀ t, t = (takePend q m.sess h.anum u).2 → t.awaiting m.sess h.rid = some id →
      (∀ j d fetch typ, h.kind = 0x83 → (t.getOp id).body = .atom j d fetch typ →
        exec (.atomRsp q) s = .next (settle (packetTaken m.sess
          (finishOp id (if st = .eAtomLost ∧ fetch = false then .ok else st) (leNat (slice 0 8 (m.data.drop 32))) 0
            t)))) ∧
      (∀ j, h.kind = 0x84 → (t.getOp id).body = .rsig j →
        exec (.signalRsp q) s = .next (settle (packetTaken m.sess (finishOp id st 0 0 t))))) ∧
    (∀ n j wr lines, op.body = .poolReq n j wr lines → h.status ≠ 0 →
      (h.kind = 0x85 → wr = false → exec (.poolData q) s = .next (settle (packetTaken m.sess
        (poolEnd id (u.updOp id (fun o => { o with st := st })))))) ∧
      (h.kind = 0x86 → wr = true → exec (.poolAck q) s = .next (settle (packetTaken m.sess
        (poolEnd id (u.updOp id (fun o => { o with st := st })))))))) ∧
  (∀ (q : Nat) (m : MemPkt) (h : MemHdr) (s : State), MemFirst q m h s → h.flags.testBit 0 = false →
    (s.getQuay q).rxReady = true →
    (h.kind = 0x82 → exec (.readData q) s = .next (settle (packetTaken m.sess
      (emit (.flRx q m.sess 2 (s.getSess m.sess).ten m.data) (memGone q s)))))) ∧
  (∀ (q : Nat) (s : State), s.power = .on → (s.getQuay q).memIn = [] → ∀ i ∈ [Instr.write q, .read q, .atom q,
    .signal q, .poolRead q, .poolWrite q, .writeAck q, .readData q, .atomRsp q, .signalRsp q, .poolData q, .poolAck q],
    exec i s = .next (settle s))

/-- SPDM (R455 to R463): GET_VERSION begins the connection anew, and the requests of a connection are answered in its order; a
CHALLENGE and a GET_MEASUREMENTS are signed over the transcript; KEY_EXCHANGE adds a session of the world of its channel,
and FINISH with the right proof puts it in use; HEARTBEAT, KEY_UPDATE and END_SESSION act on it; a request out of order is
answered UnexpectedRequest, and any request not listed UnsupportedRequest. -/
def Obligations.SpdmRequestsAnswered : Prop :=
  (∀ (h : SpdmHdr) (s u : State) (c : SpdmConn), SpdmOutside h s u → c = u.conn h.ch →
    (∀ rsp, rsp = ([0x10, 4, 0, 0, 0, 2] : Bytes) ++ leBytes 2 0x1200 ++ leBytes 2 0x1300 →
      exec (.getVersion h) s = .next (spdmAnswer h rsp (noteVca h 1 [0x10, 0x84, 0, 0] rsp
        (setConn h.ch { c with vca := [], m1 := [], l1 := [] } u)))) ∧
    (1 ≤ c.stage → ∃ e req u', exec (.getCapabilities h) s = .next (spdmAnswer h
      (spdmMsg 0x61 0 0 ([0, e, 0, 0] ++ leBytes 4 0x73F6 ++ leBytes 4 4096 ++ leBytes 4 4096)) (noteVca h 2 req
        (spdmMsg 0x61 0 0 ([0, e, 0, 0] ++ leBytes 4 0x73F6 ++ leBytes 4 4096 ++ leBytes 4 4096)) u')) ∧
      { u' with freeIdx := u.freeIdx } = u) ∧
    (2 ≤ c.stage → ∃ rsp req u', exec (.negotiateAlgorithms h) s = .next (spdmAnswer h rsp (noteVca h 3 req rsp u')) ∧
      rsp.take 4 = [0x13, 0x63, 4, 0] ∧ { u' with freeIdx := u.freeIdx } = u) ∧
    (3 ≤ c.stage → ∀ rsp, rsp = spdmMsg 1 0 3 (sha384 (u.chain 0) ++ sha384 (u.chain 1)) →
      exec (.getDigests h) s = .next (spdmAnswer h rsp (setConn h.ch
        { c with m1 := c.m1 ++ [0x13, 0x81, 0, 0] ++ rsp } u))) ∧
    (3 ≤ c.stage → ∀ slot off len part rsp, slot < 2 → off < (u.chain slot).length → off < 65536 → len < 65536 →
      part = ((u.chain slot).drop off).take (min len 3840) →
      rsp = spdmMsg 2 slot 0 (leBytes 2 part.length ++ leBytes 2 ((u.chain slot).length - off - part.length) ++ part) →
      exec (.getCertificate h slot off len) s = .next (spdmAnswer h rsp (setConn h.ch { c with
        m1 := c.m1 ++ [0x13, 0x82, BitVec.ofNat 8 slot, 0] ++ leBytes 2 off ++ leBytes 2 len ++ rsp } u))) ∧
    (3 ≤ c.stage → ∀ nonce mine v head sig w, nonce.length = 32 → drbg 32 u = some (mine, v) →
      v.follower = true ∨ v.att.store.valid = true →
      head = spdmMsg 3 0 1 (sha384 (v.chain 0) ++ mine ++ leBytes 2 0) →
      signEc (sha384 ((v.conn h.ch).vca ++ (v.conn h.ch).m1 ++ ([0x13, 0x83, 0, 0] ++ nonce) ++ head)) v = some (sig, w) →
      exec (.challenge h 0 nonce) s =
        .next (spdmAnswer h (head ++ sig) (setConn h.ch { w.conn h.ch with m1 := [] } w))) ∧
    (3 ≤ c.stage → ∀ nonce mine v head sig w blocks, nonce.length = 32 → drbg 32 u = some (mine, v) →
      v.follower = true ∨ v.att.store.valid = true → blocks = (v.measures.map measureBlock).flatten →
      head = spdmMsg 0x60 0 0 ([5] ++ leBytes 3 blocks.length ++ blocks ++ mine ++ leBytes 2 0) →
      signEc (sha384 ((v.conn h.ch).vca ++ (v.conn h.ch).l1 ++ ([0x13, 0xE0, 1, 0xFF] ++ nonce ++ [0]) ++ head)) v =
        some (sig, w) →
      exec (.getMeasurements h 0xFF nonce) s =
        .next (spdmAnswer h (head ++ sig) (setConn h.ch { w.conn h.ch with l1 := [] } w))) ∧
    (3 ≤ c.stage → 4 ≤ c.sess.length → ∀ r, exec (.keyExchange h r) s = .next (spdmError h 0x0A 0 [] u)) ∧
    (3 ≤ c.stage → c.sess.length < 4 → ∀ r seed v rand w dhe, u.follower = true ∨ u.att.store.valid = true →
      drbg 48 u = some (seed, v) → drbg 32 v = some (rand, w) → Config.ecShared seed ([4] ++ r.exchange) = some dhe →
      (∀ m, ∃ sig z, signEc m { w with freeIdx := w.freeIdx + 1 } = some (sig, z)) →
      ∃ rsp x z, exec (.keyExchange h r) s = .next (spdmAnswer h rsp (setConn h.ch { z.conn h.ch with
          sess := (z.conn h.ch).sess ++ [x], nextId := c.nextId + 1 } z)) ∧
        x.id = c.nextId ∧ x.world = w.sessWorld h.ch r.leafHash ∧ x.stage = 0 ∧ x.pq = 0 ∧ x.seqReq = 0 ∧ x.seqRsp = 0 ∧
        x.master = hmac384 (spdmExpand (hmac384 (zeros 48) dhe) "derived" [] 48) (zeros 48)) ∧
    (c.stage < 3 → ∀ r, exec (.getDigests h) s = .next (spdmError h 4 0 [] u) ∧
      exec (.keyExchange h r) s = .next (spdmError h 4 0 [] u)) ∧
    exec (.finish h []) s = .next (spdmError h 4 0 [] u)) ∧
  (∀ (h : SpdmHdr) (id : Nat) (x y : SpdmSess) (verify : Bytes) (s u : State), SpdmInside h id 0 x s u →
    u.spdmSess h = some y →
    (verify = hmac384 (spdmExpand y.hsReq "finished" [] 48) (sha384 (y.transcript ++ [0x13, 0xE5, 0, 0])) →
      ∃ f : SpdmSess → SpdmSess, exec (.finish h verify) s = .next (spdmAnswer h (spdmMsg 0x65 0 0 []) (updSess h f u)) ∧
        (f y).stage = 1 ∧ (f y).seqReq = 0 ∧ (f y).seqRsp = 0 ∧ (f y).world = y.world ∧ (f y).hsReq = [] ∧
        (f y).secReq = spdmExpand y.master "req app data"
          (sha384 (y.transcript ++ [0x13, 0xE5, 0, 0] ++ verify ++ spdmMsg 0x65 0 0 [])) 48) ∧
    (verify ≠ hmac384 (spdmExpand y.hsReq "finished" [] 48) (sha384 (y.transcript ++ [0x13, 0xE5, 0, 0])) →
      exec (.finish h verify) s = .next (spdmError h 6 0 [] (dropSess h u)))) ∧
  (∀ (h : SpdmHdr) (id : Nat) (x : SpdmSess) (s u : State), SpdmInside h id 1 x s u →
    exec (.spdmHeartbeat h) s = .next (spdmAnswer h (spdmMsg 0x68 0 0 []) u) ∧
    exec (.keyUpdate h false) s = .next (spdmAnswer h (spdmMsg 0x69 1 0 []) (updSess h (fun x => { x with
      secReq := spdmExpand x.secReq "traffic upd" [] 48, seqReq := 0 }) u)) ∧
    exec (.keyUpdate h true) s = .next (spdmAnswer h (spdmMsg 0x69 2 0 []) (updSess h (fun x => { x with
      secReq := spdmExpand x.secReq "traffic upd" [] 48, seqReq := 0
      secRsp := spdmExpand x.secRsp "traffic upd" [] 48, seqRsp := 0 }) u)) ∧
    exec (.endSession h) s = .next (dropSess h (spdmAnswer h (spdmMsg 0x6C 0 0 []) u)) ∧
    exec (.getVersion h) s = .next (spdmError h 4 0 [] u)) ∧
  (∀ (h : SpdmHdr) (code : Nat) (s : State), s.power = .on → s.spdmServes h = true →
    exec (.unsupportedRequest h code) s = .next (spdmError h 7 code [] s))

/-- The vendor requests, TDISP, IDE key management and the DOE mailbox (R91, R96 to R100, R458 to R463, R472, R474): a held
object is answered from; PQ_BIND replaces the application secrets; SET_OWNER_KEY of a bound owner session starts the six
register writes; MBOX starts its command; a TDI goes from unlocked to locked to run; a key command goes to the IDE engine
and its acknowledgement back to the requester. -/
def Obligations.VendorTdispIdeRequests : Prop :=
  (∀ (h : SpdmHdr) (id : Nat) (x y : SpdmSess) (s u : State), SpdmInside h id 1 x s u → u.spdmSess h = some y →
    (∀ (r : ObjReq) (o : HeldObj), r.obj = 3 → r.nonce = zeros 32 → 0 < r.length → r.length ≤ 3840 →
      y.held.find? (fun o => decide (o.obj = r.obj ∧ o.nonce = r.nonce)) = some o →
      (o.data.length ≤ r.offset → exec (.getObject h r) s = .next (vendorStatus h .eBounds u)) ∧
      (∀ part, r.offset < o.data.length → part = (o.data.drop r.offset).take r.length →
        exec (.getObject h r) s =
          .next (vendorAnswer h ([0] ++ leBytes 4 o.data.length ++ leBytes 2 part.length ++ part) u))) ∧
    (∀ ct : Bytes, ct.length = 1568 →
      (y.pq = 1 → exec (.pqBind h ct) s = .next (updSess h (fun x => { x with
        pq := 2, pqSeed := [], seqReq := 0, seqRsp := 0
        secReq := kmac x.secReq (Config.kemDecap y.pqSeed ct ++ sha384 (y.pqEk ++ ct)) 48 "ODLAHA PQBIND"
        secRsp := kmac x.secRsp (Config.kemDecap y.pqSeed ct ++ sha384 (y.pqEk ++ ct)) 48 "ODLAHA PQBIND" })
        (vendorStatus h .ok u))) ∧
      (y.pq ≠ 1 → exec (.pqBind h ct) s = .next (vendorStatus h .eState u))) ∧
    (∀ hash : Bytes, hash.length = 48 →
      (y.pq = 2 → y.world = .owner → u.att.ownerSet = none → (∀ i < 6, (pregPush (2 + i) 0 false u).1 = .ok) →
        ∃ t, exec (.setOwnerKey h hash) s = .next { t with att := { t.att with ownerSet := some h } } ∧
          t = (List.range 6).foldl (fun s i => (pregPush (2 + i) (beNat (slice (8 * i) 8 hash)) false s).2) u) ∧
      (y.pq ≠ 2 → ∃ side, exec (.setOwnerKey h hash) s = .next (vendorStatus h .ePermission
        (auditLog 2 .ePermission side (if y.world = .owner then 1 else 0) 0 3 0 u)))) ∧
    (∀ r : MboxReq, h.ch = .sideband → y.world = .owner → y.pq = 2 → r.cmd < 256 → r.opers.length ≤ 8 →
      r.data.length ≤ 3584 →
      (u.mbox.busy = true → exec (.vendorMbox h r) s = .next (settle (vendorStatus h .eBusy u))) ∧
      (u.mbox.busy = false → u.auditFull = false → ∃ v, exec (.vendorMbox h r) s = .next (settle
          (spdmError h 0x42 0 [15, 0xFE, 0, 10] (updSess h (fun x => { x with mbox := true }) (mbCmd r.cmd v)))) ∧
        v.mbox.sess = h.sess ∧ v.mbox.dataLen = r.data.length ∧ v.keys = u.keys ∧ v.sess = u.sess)) ∧
    (y.mbox = true → u.mbox.busy = false → exec (.respondIfReady h) s =
      .next (vendorAnswer h (mboxPayload u) (updSess h (fun x => { x with mbox := false }) u))) ∧
    (y.mbox = false → exec (.respondIfReady h) s = .next (spdmError h 4 0 [] u)) ∧
    (∀ vf, h.ch = .doe .pf → vf < 4096 →
      exec (.getTdispVersion h vf) s = .next (tdispAnswer h 1 vf [1, 0x10] u) ∧
      exec (.getTdispCapabilities h vf) s =
        .next (tdispAnswer h 2 vf (zeros 4 ++ leBytes 16 0xFE ++ leBytes 2 1 ++ zeros 3 ++ [52, 1, 0]) u) ∧
      (∀ stream noFw nonce v, (u.tdi vf).state = .unlocked →
        u.moor.any (fun p => decide (p.2.vf = some vf ∧ p.2.state = .active)) = true → stream < u.straps.ideStreams →
        Tab.get 0 u.att.ideUse stream ≠ 0 → drbg 32 u = some (nonce, v) →
        exec (.lockInterfaceRequest h vf stream noFw) s = .next (tdispAnswer h 3 vf nonce
          (setTdi vf { state := .locked, nonce := nonce, stream := stream, noFw := noFw } v))) ∧
      ((u.tdi vf).state = .locked ∨ (u.tdi vf).state = .run → ∃ d, d = u.ifReport vf ∧
        exec (.getDeviceInterfaceReport h vf) s =
          .next (tdispAnswer h 4 vf (leBytes 2 d.length ++ leBytes 2 0 ++ d) u)) ∧
      exec (.getDeviceInterfaceState h vf) s =
        .next (tdispAnswer h 5 vf [BitVec.ofNat 8 (u.tdi vf).state.code] u) ∧
      (∀ nonce, ((u.tdi vf).state = .locked → (u.tdi vf).nonce = nonce → exec (.startInterfaceRequest h vf nonce) s =
          .next (tdispAnswer h 6 vf [] (setTdi vf { u.tdi vf with state := .run } u))) ∧
        ((u.tdi vf).nonce ≠ nonce → exec (.startInterfaceRequest h vf nonce) s = .next (tdispError h vf 4 u))) ∧
      ((u.tdi vf).state ≠ .unlocked → exec (.stopInterfaceRequest h vf) s =
        .next (tdispAnswer h 7 vf [] (setTdi vf {} u))) ∧
      ((u.tdi vf).state = .unlocked → exec (.stopInterfaceRequest h vf) s = .next (tdispError h vf 4 u)) ∧
      exec (.tdispUnsupported h vf) s = .next (tdispError h vf 7 u)) ∧
    (∀ k : IdeKm, y.world = .owner → k.stream < u.straps.ideStreams → k.port = 0 → u.att.ideQ = [] →
      exec (.ideKmQuery h 0) s =
        .next (pciAnswer h 0 [1, 0, 0, 0, 0, 0, 0, BitVec.ofNat 8 (u.straps.ideStreams - 1)] u) ∧
      exec (.keyProg h k) s = .next (emit (.idek 0 k) { u with att := { u.att with ideQ := [⟨0, k, h⟩] } }) ∧
      exec (.kSetGo h k) s = .next (emit (.idek 1 { k with key := 0, ifv := 0 })
        { u with att := { u.att with ideQ := [⟨1, { k with key := 0, ifv := 0 }, h⟩] } }) ∧
      exec (.kSetStop h k) s = .next (emit (.idek 2 { k with key := 0, ifv := 0 })
        { u with att := { u.att with ideQ := [⟨2, { k with key := 0, ifv := 0 }, h⟩] } })) ∧
    (∀ k : IdeKm, y.world ≠ .owner → exec (.keyProg h k) s = .next (spdmError h 4 0 [] u))) ∧
  (∀ (k : IdeKm) (h : SpdmHdr) (s u : State), s.power = .on → u = raiseHm 10 { s with att := { s.att with ideQ := [] } } →
    (s.att.ideQ = [⟨0, k, h⟩] → exec (.idekAck 0) s = .next (kpAck h k 0 u)) ∧
    (s.att.ideQ = [⟨1, k, h⟩] → ∃ t, t = goStopAck h k u ∧ exec (.idekAck 0) s =
      .next { t with att := { t.att with ideUse := Tab.set 0 t.att.ideUse k.stream (k.kset + 1) } })) ∧
  (∀ (f : Fn) (dw : List Nat) (s : State), s.power = .on →
    (4096 < dw.length → exec (.doeObject f dw) s = .next (emit (.doeErr f) s)) ∧
    (f = .pf → dw.length ≤ 4096 → s.att.doeHeld.contains 1 = false → dw.headD 0 % 2 ^ 24 ≠ 1 →
      exec (.doeObject f dw) s = .next (raiseHm 7 { s with att := { s.att with doeHeld := s.att.doeHeld ++ [1] } }))) ∧
  (∀ (a : Nat) (s : State), s.power = .on →
    exec (.dynamicAddressAssignment (some a)) s =
      .next { s with att := { s.att with sbAddr := some (a % 128) } } ∧
    exec (.dynamicAddressAssignment none) s =
      .next { s with att := { s.att with sbAddr := some (s.straps.sbSaddr % 128) } })

/-- Moorings (R487, R488, R505, R506, R512): TENANT_ADMIT whose record is refused ends with the status of its check, and one
that passes opens the mooring, makes its keys and begins the zero fill; TENANT_REMOVE of an ACTIVE mooring begins its
removal, which a window's end and the end of Lichen's draining carry on; a DOMAIN_CHANGE of the anchor is queued. -/
def Obligations.TenantCommandsRun : Prop :=
  (∀ (d : Bytes) (t : Nat) (a : Admission) (s u : State), MbReady [3, 4] s → s.mode = .normal → u = mbOn 0x20 s →
    d = s.mbData 0 (128 + 16 * 64) → t = (admRecord d).1 → a = (admRecord d).2.2 →
    admBad s d s.mbox.dataLen = false → admState s t (admRecord d).2.1 a = false →
    (admRes u t a = true → exec .tenantAdmit s =
      .next (settle (mbEnd .eNoRes 0 (u.updMoor t (fun m => { m with lastSt := Status.eNoRes.code }))))) ∧
    (∀ b v o, admRes u t a = false → b = { a with policy := policyByte a.policy } →
      steps ([admKey t b.keyL] ++ (if b.keyP = 0 then [] else [admKey t b.keyP]) ++
        [admDerive t 1 3 b (fun i m => { m with dkey := some i }), admDerive t 2 1 b (fun i m => { m with link := some i })])
        (u.setMoor t { state := .admitting, adm := b }) = (true, v) →
      o = startOp { own := .block, ten := t, ctx := 0, code := 0xFF, body := .admitFill t b.metaBase b.metaSize
                    counted := false } v →
      exec .tenantAdmit s = .next (settle (ioWrite o.1 b.metaBase (zeros 128) o.2)))) ∧
  (∀ (t : Nat) (s u : State), MbReady lcAny s → s.running = true → s.oper 0 = t → t < 256 →
    (s.getMoor t).state = .active → bit1 1 (s.getMoor t).adm.policy = false → u = mbOn 0x21 s →
    (∀ v, v = removeBegin t false u → (v.mode ≠ .normal ∨ v.fed.state ≠ .member) → exec .tenantRemove s =
      .next (settle (v.updMoor t (fun m => { m with alone := true })))) ∧
    (∀ v, v = removeBegin t false u → v.mode = .normal → v.fed.state = .member → v.isAnchor = false →
      exec .tenantRemove s = .next (settle (sendUp (v.fedBytes 3 0 0 ([5, 0] ++ leBytes 2 0 ++ zeros 4 ++
        slice 0 32 (s.getMoor t).adm.tenantId ++ leBytes 8 (s.getMoor t).adm.tserial)) v)))) ∧
  (∀ (t : Nat) (s : State), MbReady lcAny s → s.oper 0 = t → t < 256 → (s.getMoor t).state ≠ .admitting →
    (s.getMoor t).state ≠ .active →
    exec .tenantRemove s = .next (settle (mbEnd .eState 0 (mbRefuse 0x21 .eState (mbOn 0x21 s))))) ∧
  (∀ (t : Nat) (s : State), s.power = .on →
    exec (.drainWindowEnd t) s = .next (settle (revokePoint t s)) ∧
    ((s.getMoor t).state ≠ .removing ∨ (s.getMoor t).revoked = true →
      exec (.drainWindowEnd t) s = .next (settle s)) ∧
    ((s.getMoor t).state = .removing → (s.getMoor t).revoked = true → (s.getMoor t).drained = false →
      ∃ v, exec (.lichenDrainEnd t) s = .next (settle (revokePump (moorPump v))) ∧ (v.getMoor t).drained = true)) ∧
  (∀ (k w : Nat) (i : Instr) (s : State), MbReady lcAny s → s.mode = .normal → s.isAnchor = true → s.fed.state = .member →
    s.fed.chgState = 0 → s.fed.queue = [] → s.fed.running = none → s.oper 0 = k → s.oper 1 = w →
    (k, i) ∈ [(1, Instr.domainChangeCipher), (2, .domainChangeDebug), (3, .domainChangeBwater), (4, .domainChangeInj)] →
    (k = 1 → w < 128 ∧ 20 ≤ w % 64 ∧ w % 64 ≤ 40) → (k = 2 → w < 4) →
    ∃ u, u = mbOn 0x28 s ∧ exec i s = .next (settle { u with fed := { u.fed with
      queue := [{ kind := k, mine := true, body :=
        [BitVec.ofNat 8 k] ++ zeros 7 ++ (if k ≤ 2 then leBytes 8 w else zeros 8) ++ zeros 32 }] } }))

/-- Formation and the ports of the federation (R110, R496 to R500): a die-to-die message whose tag fails is counted and
dropped, and a federation message with a good tag joins the inbox; FORM at the anchor makes the package and domain secrets; a
join message that fails its checks is refused and logged, and a JOIN_REQ that passes is answered; the relay's parts come in
and go out. -/
def Obligations.FederationForms : Prop :=
  (∀ (src : Nat) (msg : Bytes) (s : State), s.power = .on →
    (s.d2dKey (decide ((msg.headD 0).toNat = 0x12)) = none →
      exec (.d2dMessage src msg) s = .next (settle (bump (fedBase + 0x420) s))) ∧
    (∀ key d k, s.d2dKey (decide ((msg.headD 0).toNat = 0x12)) = some key → 17 ≤ msg.length → msg.length ≤ 256 →
      d = msg.take (msg.length - 16) → k = (msg.headD 0).toNat →
      (msg.drop (msg.length - 16) ≠ d2dTag key d →
        exec (.d2dMessage src msg) s = .next (settle (bump (fedBase + 0x420) s))) ∧
      (msg.drop (msg.length - 16) = d2dTag key d → 1 ≤ k → k ≤ 0x0B →
        exec (.d2dMessage src msg) s = .next (settle (fedArrive none src (d.take 64) (raiseHm 8 s)))))) ∧
  (∀ (v : Nat) (sec dom id : Bytes) (s a b c d : State), s.power = .on → s.auditFull = false → s.isolated 26 = false →
    s.fed.state = .alone → s.strapFault = false → s.drbgReady = true → s.straps.pilotSel = true →
    bit1 11 v = true → bit1 24 v = true → v % 2 ^ 24 = s.fed.reg.pkg + 2 ^ 11 * b2n s.fed.reg.anchor + 2 ^ 12 * s.fed.reg.fsess →
    s.fed.reg.pkg < 2 ^ 11 → s.fed.reg.fsess < 2 ^ 12 → s.keys.rbFail = [] →
    drbg 32 s = some (sec, a) → b = takePkgSecret sec a → b.isAnchor = true → drbg 32 b = some (dom, c) →
    drbg 32 c = some (id, d) →
    ∃ e, e = { d with fed := { d.fed with domainId := id, members := Tab.put [] d.fed.reg.pkg d.devid } } ∧
      exec (.form .pf v) s = .next (settle (takeDomSecret dom
        { e with fed := { e.fed with mode := firstImage e.membersHash id, epoch := 0 } }))) ∧
  (∀ (m : Master) (v : Nat) (s : State), s.power = .on → s.auditFull = false → s.isolated 26 = false →
    m ≠ .pf ∨ s.fed.state ≠ .alone → exec (.form m v) s = .next (settle (bump (permAddr fedBase) s))) ∧
  (∀ (src : Nat) (b : Bytes) (rest : List (Nat × Nat × Bytes)) (s u : State), s.power = .on → s.straps.pilotSel = true →
    s.fed.joined = (src, 0x10, b) :: rest → u = { s with fed := { s.fed with joined := rest } } →
    (readJoin true (decide (src = 8)) b = none →
      exec .joinReq s = .next (settle (relayTake (joinRefuse 0x10 u)))) ∧
    (∀ m i dev rsp v, src ≠ 8 → readJoin true false b = some m → s.fed.pkgSecret = some i →
      joinChecks m [] u = some dev → joinRespond false b m (u.getBerth i).key u = some (rsp, v) →
      ∃ w, w = joinSend src rsp v ∧ exec .joinReq s = .next (settle (relayTake (giveSecret src { w with fed := { w.fed with
        dies := (w.fed.dies.filter (· ≠ src) ++ [src]).mergeSort (fun a b => decide (a ≤ b)) } })))) ∧
    (∀ m i, src ≠ 8 → readJoin true false b = some m → s.fed.pkgSecret = some i → joinChecks m [] u = none →
      exec .joinReq s = .next (settle (relayTake (joinRefuse 0x10 u))))) ∧
  (∀ (src : Nat) (b : Bytes) (rest : List (Nat × Nat × Bytes)) (s u : State), s.power = .on →
    s.fed.joined = (src, 0x11, b) :: rest → u = { s with fed := { s.fed with joined := rest } } →
    (s.fed.join = none → exec .joinRsp s = .next (settle (relayTake (joinRefuse 0x11 u)))) ∧
    (∀ (j : Join) m ok ssE sec, src ≠ 8 → s.fed.join = some j → j.domain = false → readJoin false false b = some m →
      joinChecks m (sha384 j.request) u = some ok → Config.ecShared j.dhSeed m.epk = some ssE → m.nonce = j.nonce →
      gcmOpen (joinKek (Config.kemDecap j.kemSeed m.kem) ssE j.request m.epk m.kem) m.iv [] m.wrap m.tag = some sec →
      ∃ v, v = takePkgSecret sec { u with fed := { u.fed with join := none } } ∧
        exec .joinRsp s = .next (settle (relayTake { v with fed := { v.fed with
          state := .package, pilotDie := some src, pilotChains := (m.c0, m.c1) } })))) ∧
  (∀ (s : State), s.power = .on → s.auditFull = false → s.isolated 26 = false → s.fed.reg.inFull = false →
    ∃ r u, r = { s.fed.reg with inLast := false, inLen := 16384, inFull := true } ∧
      u = raiseHm 11 { s with fed := { s.fed with reg := r } } ∧
      exec (.relayInPush .pf (2 + 2 ^ 32 * 16384)) s = .next (settle (relayPump (relayTake u)))) ∧
  (∀ (s : State), s.power = .on → s.auditFull = false → s.isolated 26 = false → s.fed.reg.inFull = false →
    s.fed.reg.inLast = false → s.fed.reg.inLen = 0 →
    exec (.relayOutTaken .pf) s = .next (settle (relayPump
      { s with fed := { s.fed with reg := { s.fed.reg with outReady := false } } })))

/-- Epochs and the federation's messages (R502 to R514): a member commits a prepared change on COMMIT or on a HEARTBEAT of the
next epoch, discards it on ABORT, answers PREPARE and HEARTBEAT; the anchor gathers acknowledgements, starts the next change,
aborts one that a member cannot take or that runs out of time; FAULT and a lost heartbeat fault the member. -/
def Obligations.FederationMessagesAct : Prop :=
  (∀ (m : FedMsg) (s u : State), FedFirst 1 m s u → u.fromAbove m = true → u.fed.state = .member →
    u.straps.pilotSel = false → u.fed.prepared = none → m.epoch = u.fed.epoch → m.body = u.policyMeas →
    ∃ v, v = { u with fed := { u.fed with hbSeen := true, hbNow := true, hbDie := [] } } ∧
      exec .heartbeat s = .next (settle (sendUp (v.fedBytes 2 0 0 v.policyMeas) v))) ∧
  (∀ (m : FedMsg) (d : Nat) (s u : State), FedFirst 2 m s u → u.fromDie m = some d →
    exec .hbAck s = .next (settle (pilotHb { u with fed := { u.fed with
      hbDie := Tab.put u.fed.hbDie d (m.epoch + 1) } }))) ∧
  (∀ (m : FedMsg) (s u : State), FedFirst 3 m s u → (u.fromDie m).isSome = true →
    (u.isAnchor = false → exec .request s = .next (settle (sendUp m.data u))) ∧
    (u.isAnchor = true → u.fed.state = .member → (m.body.headD 0).toNat = 5 → u.fed.queue = [] → u.fed.running = none →
      exec .request s = .next (settle { u with fed := { u.fed with queue := [{ kind := 5, body := m.body }] } }))) ∧
  (∀ (m : FedMsg) (c : Change) (s u v : State), FedFirst 4 m s u → u.fromAbove m = true → u.fed.state = .member →
    u.straps.pilotSel = false → m.epoch = u.fed.epoch → u.fed.prepared = none →
    c = { kind := (m.body.headD 0).toNat, body := m.body, num := m.chg } → u.applies c = true →
    v = prepareLocal c { u with fed := { u.fed with acksDie := [], ackSelf := false } } → v.straps.pilotSel = false →
    exec .prepare s = .next (settle (sendUp (v.fedBytes 5 0 m.chg v.policyMeas) v))) ∧
  (∀ (m : FedMsg) (d : Nat) (s u : State), FedFirst 5 m s u → u.fromDie m = some d → u.isAnchor = true →
    (u.fed.running.map (·.num) = some m.chg → exec .prepAck s = .next (settle (pilotAck { u with fed := { u.fed with
      acksDie := d :: u.fed.acksDie.filter (· ≠ d) } }))) ∧
    (u.fed.running.map (·.num) ≠ some m.chg → exec .prepAck s = .next (settle u))) ∧
  (∀ (m : FedMsg) (s u : State), FedFirst 6 m s u → u.fromAbove m = false → (u.fromDie m).isSome = true →
    (u.isAnchor = true → u.fed.running.map (·.num) = some m.chg →
      exec .prepNak s = .next (settle (abortChange (m.f 5 1) u))) ∧
    (u.isAnchor = false → exec .prepNak s = .next (settle (sendUp m.data u)))) ∧
  (∀ (m : FedMsg) (s u : State), FedFirst 7 m s u → u.fromAbove m = true → u.fed.state = .member →
    u.straps.pilotSel = false →
    (u.fed.prepared.map (·.num) = some m.chg →
      exec .commit s = .next (settle (revokePump (commitLocal false u)))) ∧
    (u.fed.prepared.map (·.num) ≠ some m.chg → exec .commit s = .next (settle u))) ∧
  (∀ (m : FedMsg) (s u : State), FedFirst 8 m s u → u.fromAbove m = true → u.fed.state = .member →
    u.straps.pilotSel = false → u.fed.prepared.map (·.num) = some m.chg →
    exec .abort s = .next (settle { u with fed := { u.fed with prepared := none } })) ∧
  (∀ (m : FedMsg) (d : Nat) (s u : State), FedFirst 9 m s u → u.fromDie m = some d →
    exec .drained s = .next (settle (revokePump { u with fed := { u.fed with
      revokes := u.fed.revokes.map (fun r =>
        if r.num = m.chg then { r with dies := d :: r.dies.filter (· ≠ d) } else r) } }))) ∧
  (∀ (m : FedMsg) (s u : State), FedFirst 10 m s u → u.fromAbove m = true →
    exec .fault s = .next (settle (domainFault (m.f 5 1) u))) ∧
  (∀ (m : FedMsg) (s u : State), FedFirst 11 m s u → u.fromAbove m = true → u.straps.pilotSel = false →
    m.chg = u.fed.image.length → u.fed.image.length < 5 →
    exec .image s = .next (settle { u with fed := { u.fed with image := u.fed.image ++ [m.body] } })) ∧
  (∀ (c : Change) (rest : List Change) (s u : State), s.power = .on → s.fed.queue = c :: rest → s.isAnchor = true →
    s.fed.state = .member → s.fed.chgState = 0 →
    u = { s with fed := { s.fed with
      queue := rest, running := some { c with num := (s.fed.num + 1) % 65536 }, num := (s.fed.num + 1) % 65536
      chgState := 1, acksPkg := [], acksDie := [], ackSelf := false } } →
    ∃ v, v = sendAll (u.fedBytes 4 0 ((s.fed.num + 1) % 65536) c.body) u ∧
      (v.applies { c with num := (s.fed.num + 1) % 65536 } = true → ∃ w,
        w = prepareLocal { c with num := (s.fed.num + 1) % 65536 } v ∧
        exec .changeStart s =
          .next (settle (anchorCheck { w with fed := { w.fed with ackSelf := true } })))) ∧
  (∀ s : State, s.power = .on → s.fed.state = .member → s.isAnchor = true →
    (∃ v, v = { s with fed := { s.fed with hbDie := [] } } ∧
      exec .heartbeatTimer s = .next (settle (caughtUp (sendAll (v.fedBytes 1 0 0 v.policyMeas) v)))) ∧
    exec .prepareTimeout s = .next (settle (abortChange Status.eEpoch.code s)) ∧
    (s.fed.chgState = 2 →
      exec .catchupTimeout s = .next (settle (domainFault Status.eEpoch.code s)))) ∧
  (∀ s : State, s.power = .on → s.fed.state = .member → s.isAnchor = false → s.fed.hbSeen = true →
    exec .heartbeatLoss s = .next (settle (domainFault (Config.freeValue s.freeIdx % 256)
      { s with freeIdx := s.freeIdx + 1 })) ∧
    exec .prepareTimeout s = .next (settle s) ∧ exec .catchupTimeout s = .next (settle s))
end

