-- ==== Sys2Proof/Laws/Tab.lean ====
section
/-! SUPPORT. Sparse tables: what a write does to a read, and that every operation keeps the canonical form. -/

namespace Sys2Proof

variable {α : Type}

@[simp] theorem Tab.get_nil (d : α) (i : Nat) : Tab.get d [] i = d := rfl

@[simp] theorem Tab.get_put_same (d : α) (i : Nat) (x : α) : ∀ t : Tab α, Tab.get d (Tab.put t i x) i = x
  | [] => by simp [Tab.put, Tab.get]
  | (j, v) :: t => by
    have ih := Tab.get_put_same d i x t
    unfold Tab.put
    split
    · simp [Tab.get]
    · split
      · simp [Tab.get]
      · rename_i h1 h2; simp [Tab.get, h1, ih]

theorem Tab.get_put_other (d : α) {i k : Nat} (x : α) (h : k ≠ i) : ∀ t : Tab α,
    Tab.get d (Tab.put t i x) k = Tab.get d t k
  | [] => by simp [Tab.put, Tab.get, h]
  | (j, v) :: t => by
    have ih := Tab.get_put_other d x h t
    unfold Tab.put
    split
    · rename_i h1; subst h1; simp [Tab.get, h]
    · split <;> simp [Tab.get, h, ih]

/-- Every index of a table is above a bound. -/
def Tab.above (b : Nat) (t : Tab α) : Prop := ∀ p ∈ t, b < p.1

theorem Tab.sorted_cons {i : Nat} {v : α} {t : Tab α} : Tab.sorted ((i, v) :: t) = true ↔ Tab.above i t ∧ Tab.sorted t = true := by
  induction t generalizing i v with
  | nil => simp [Tab.sorted, Tab.above]
  | cons p t ih =>
    obtain ⟨j, w⟩ := p
    simp only [Tab.sorted, Bool.and_eq_true, decide_eq_true_eq]
    constructor
    · intro h
      refine ⟨fun p hp => ?_, h.2⟩
      rcases List.mem_cons.mp hp with rfl | hp
      · exact h.1
      · exact Nat.lt_trans h.1 ((ih.mp h.2).1 p hp)
    · intro h
      exact ⟨h.1 _ List.mem_cons_self, h.2⟩

theorem Tab.mem_put {i : Nat} {x : α} {p : Nat × α} : ∀ {t : Tab α}, p ∈ Tab.put t i x → p = (i, x) ∨ p ∈ t
  | [], h => .inl (by simpa [Tab.put] using h)
  | (j, v) :: t, h => by
    unfold Tab.put at h
    split at h
    · rcases List.mem_cons.mp h with h | h
      · exact .inl h
      · exact .inr (List.mem_cons_of_mem _ h)
    · split at h
      · exact List.mem_cons.mp h
      · rcases List.mem_cons.mp h with h | h
        · exact .inr (h ▸ List.mem_cons_self)
        · exact (Tab.mem_put h).imp_right (List.mem_cons_of_mem _)

theorem Tab.mem_erase {i : Nat} {p : Nat × α} {t : Tab α} (h : p ∈ Tab.erase t i) : p ∈ t := List.mem_of_mem_filter h

theorem Tab.put_sorted {i : Nat} {x : α} : ∀ {t : Tab α}, Tab.sorted t = true → Tab.sorted (Tab.put t i x) = true
  | [], _ => rfl
  | (j, v) :: t, h => by
    have hc := Tab.sorted_cons.mp h
    unfold Tab.put
    split
    · rename_i e; subst e; exact Tab.sorted_cons.mpr hc
    · split
      · rename_i h2
        refine Tab.sorted_cons.mpr ⟨fun p hp => ?_, h⟩
        rcases List.mem_cons.mp hp with rfl | hp
        · exact h2
        · exact Nat.lt_trans h2 (hc.1 p hp)
      · rename_i h1 h2
        refine Tab.sorted_cons.mpr ⟨fun p hp => ?_, Tab.put_sorted hc.2⟩
        rcases Tab.mem_put hp with rfl | hp
        · show j < i; omega
        · exact hc.1 p hp

theorem Tab.filter_sorted {f : Nat × α → Bool} : ∀ {t : Tab α}, Tab.sorted t = true → Tab.sorted (t.filter f) = true
  | [], _ => rfl
  | (j, v) :: t, h => by
    have hc := Tab.sorted_cons.mp h
    rw [List.filter_cons]
    split
    · exact Tab.sorted_cons.mpr ⟨fun p hp => hc.1 p (List.mem_of_mem_filter hp), Tab.filter_sorted hc.2⟩
    · exact Tab.filter_sorted hc.2

theorem Tab.erase_sorted {i : Nat} {t : Tab α} (h : Tab.sorted t = true) : Tab.sorted (Tab.erase t i) = true :=
  Tab.filter_sorted h

theorem Tab.get_erase_other (d : α) {i k : Nat} (h : k ≠ i) : ∀ t : Tab α, Tab.get d (Tab.erase t i) k = Tab.get d t k
  | [] => rfl
  | (j, v) :: t => by
    have ih := Tab.get_erase_other d h t
    unfold Tab.erase at *
    rw [List.filter_cons]
    split
    · simp only [Tab.get, ih]
    · rename_i e
      have : j = i := by simpa using e
      subst this
      simp only [Tab.get, if_neg h, ih]

theorem Tab.get_erase_same (d : α) {i : Nat} : ∀ t : Tab α, Tab.get d (Tab.erase t i) i = d
  | [] => rfl
  | (j, v) :: t => by
    have ih := Tab.get_erase_same d (i := i) t
    unfold Tab.erase at *
    rw [List.filter_cons]
    split
    · rename_i e
      have : i ≠ j := fun h => by subst h; simp at e
      simp only [Tab.get, if_neg this, ih]
    · exact ih

section
variable [DecidableEq α] {d : α}

theorem Tab.wf_iff {t : Tab α} : Tab.wf d t = true ↔ Tab.sorted t = true ∧ ∀ p ∈ t, p.2 ≠ d := by
  simp [Tab.wf]

/-- A write keeps the canonical form. -/
theorem Tab.set_wf {t : Tab α} {i : Nat} {x : α} (h : Tab.wf d t = true) : Tab.wf d (Tab.set d t i x) = true := by
  rw [Tab.wf_iff] at *
  unfold Tab.set
  split
  · exact ⟨Tab.erase_sorted h.1, fun p hp => h.2 p (Tab.mem_erase hp)⟩
  · rename_i hx
    refine ⟨Tab.put_sorted h.1, fun p hp => ?_⟩
    rcases Tab.mem_put hp with rfl | hp
    · exact hx
    · exact h.2 p hp

/-- Taking entries out keeps the canonical form. -/
theorem Tab.filter_wf {t : Tab α} {f : Nat × α → Bool} (h : Tab.wf d t = true) : Tab.wf d (t.filter f) = true := by
  rw [Tab.wf_iff] at *
  exact ⟨Tab.filter_sorted h.1, fun p hp => h.2 p (List.mem_of_mem_filter hp)⟩

theorem Tab.mem_set {t : Tab α} {i : Nat} {x : α} {p : Nat × α} (h : p ∈ Tab.set d t i x) : p = (i, x) ∨ p ∈ t := by
  unfold Tab.set at h
  split at h
  · exact .inr (Tab.mem_erase h)
  · exact Tab.mem_put h

/-- A read after a write to the same index gives the value written. -/
@[simp] theorem Tab.get_set_same (t : Tab α) (i : Nat) (x : α) : Tab.get d (Tab.set d t i x) i = x := by
  unfold Tab.set
  split
  · rename_i e; rw [Tab.get_erase_same, e]
  · exact Tab.get_put_same d i x t

/-- A write leaves every other index alone. -/
theorem Tab.get_set_other (e : α) (t : Tab α) {i k : Nat} (x : α) (h : k ≠ i) :
    Tab.get e (Tab.set d t i x) k = Tab.get e t k := by
  unfold Tab.set
  split
  · exact Tab.get_erase_other e h t
  · exact Tab.get_put_other e x h t

end

end Sys2Proof
end

