-- ==== Sys2Proof/Laws/Follows.lean ====
section
/-! SUPPORT. What every operation of the block leaves alone, and what it only ever adds to: one relation between the
state before and the state after, which every operation but the sampling of the straps and the removal of power
keeps. -/

namespace Sys2Proof.Machine

/-- What the life cycle keeps until the next release from reset (R441, R442, R417): its state in force, a pending
transition, a token lock; the token failures count up, and the sixteenth locks; the root secret is not read again. -/
structure LcKept (a b : LifeCycle) : Prop where
  state   : b.state = a.state
  pending : a.pending = true → b.pending = true
  lock    : a.tokenLock = true → b.tokenLock = true
  fails   : a.tokenFails ≤ b.tokenFails
  locked  : (16 ≤ a.tokenFails → a.tokenLock = true) → 16 ≤ b.tokenFails → b.tokenLock = true
  root    : b.root = a.root ∨ b.root = []

/-- A state that the block reaches by itself, or by a command of a running block: the queue, the power, the straps
and the life-cycle state in force stand; the timebase, the identifiers and the audit ring's head never go back; what
was sent stays sent; start-up is not entered again; a closed OTP gate stays closed and a granted scan granted; and the
counters keep their form. -/
structure Follows (a b : State) : Prop where
  pending : b.pending = a.pending
  power   : b.power = a.power
  mask    : b.mask = a.mask
  straps  : b.straps = a.straps
  strapFault : b.strapFault = a.strapFault
  lc      : LcKept a.lc b.lc
  time    : a.time.ns ≤ b.time.ns
  serial  : a.serial ≤ b.serial
  freeIdx : a.freeIdx ≤ b.freeIdx
  head    : a.audit.headSeq ≤ b.audit.headSeq
  sent    : a.sent <:+ b.sent
  mode    : b.mode = .starting → a.mode = .starting
  gate    : b.keys.gate = true → a.keys.gate = true
  scan    : a.fault.scanAck = true → b.fault.scanAck = true
  sealed  : (a.fault.scanAck = true → a.keys.gate = false) → b.fault.scanAck = true → b.keys.gate = false
  cnt     : countersOk a.cnt → countersOk b.cnt

theorem countersOk_set {t : Tab Nat} {a v : Nat} (h : countersOk t) (hv : v ≤ max64) : countersOk (Tab.set 0 t a v) :=
  ⟨Tab.set_wf h.1, fun p hp => (Tab.mem_set hp).elim (fun e => e ▸ hv) (h.2 p)⟩

theorem countersOk_filter {t : Tab Nat} {f : Nat × Nat → Bool} (h : countersOk t) : countersOk (t.filter f) :=
  ⟨Tab.filter_wf h.1, fun p hp => h.2 p (List.mem_of_mem_filter hp)⟩

theorem countersOk_zeros : ∀ (l : List Nat) {t : Tab Nat}, countersOk t →
    countersOk (l.foldl (fun t a => Tab.set 0 t a 0) t)
  | [], _, h => h
  | _ :: l, _, h => countersOk_zeros l (countersOk_set h (Nat.zero_le _))

variable {z s t : State} {α β γ : Type}

theorem LcKept.refl (a : LifeCycle) : LcKept a a := ⟨rfl, id, id, Nat.le_refl _, id, .inl rfl⟩

theorem LcKept.trans {a b c : LifeCycle} (h : LcKept a b) (g : LcKept b c) : LcKept a c where
  state := g.state.trans h.state
  pending := fun e => g.pending (h.pending e)
  lock := fun e => g.lock (h.lock e)
  fails := Nat.le_trans h.fails g.fails
  locked := fun e => g.locked (h.locked e)
  root := g.root.elim (fun e => h.root.imp e.trans e.trans) .inr

theorem Follows.refl (s : State) : Follows s s where
  pending := rfl
  power := rfl
  mask := rfl
  straps := rfl
  strapFault := rfl
  lc := .refl _
  time := Nat.le_refl _
  serial := Nat.le_refl _
  freeIdx := Nat.le_refl _
  head := Nat.le_refl _
  sent := List.suffix_refl _
  mode := id
  gate := id
  scan := id
  sealed := id
  cnt := id

theorem Follows.trans (h : Follows z s) (g : Follows s t) : Follows z t where
  pending := g.pending.trans h.pending
  power := g.power.trans h.power
  mask := g.mask.trans h.mask
  straps := g.straps.trans h.straps
  strapFault := g.strapFault.trans h.strapFault
  lc := h.lc.trans g.lc
  time := Nat.le_trans h.time g.time
  serial := Nat.le_trans h.serial g.serial
  freeIdx := Nat.le_trans h.freeIdx g.freeIdx
  head := Nat.le_trans h.head g.head
  sent := h.sent.trans g.sent
  mode := fun e => h.mode (g.mode e)
  gate := fun e => h.gate (g.gate e)
  scan := fun e => g.scan (h.scan e)
  sealed := fun e => g.sealed (h.sealed e)
  cnt := fun e => g.cnt (h.cnt e)

/-- What the relation sees of five parts of the state. -/
abbrev seen (t : TimeSt) (l : LifeCycle) (a : Audit) (k : KeyUnit) (f : FaultUnit) :
    Nat × Nat × Bool × Bool × Nat × Bytes × Nat × Bool × Bool :=
  (t.ns, l.state, l.pending, l.tokenLock, l.tokenFails, l.root, a.headSeq, k.gate, f.scanAck)

section
variable {ta tb : TimeSt} {la lb : LifeCycle} {aa ab : Audit} {ka kb : KeyUnit} {fa fb : FaultUnit}

theorem seen_time (e : seen ta la aa ka fa = seen tb lb ab kb fb) : tb.ns = ta.ns := (congrArg (·.1) e).symm
theorem seen_head (e : seen ta la aa ka fa = seen tb lb ab kb fb) : ab.headSeq = aa.headSeq :=
  (congrArg (·.2.2.2.2.2.2.1) e).symm
theorem seen_gate (e : seen ta la aa ka fa = seen tb lb ab kb fb) : kb.gate = ka.gate :=
  (congrArg (·.2.2.2.2.2.2.2.1) e).symm
theorem seen_scan (e : seen ta la aa ka fa = seen tb lb ab kb fb) : fb.scanAck = fa.scanAck :=
  (congrArg (·.2.2.2.2.2.2.2.2) e).symm
theorem seen_lc (e : seen ta la aa ka fa = seen tb lb ab kb fb) : LcKept lb la where
  state := congrArg (·.2.1) e
  pending := (congrArg (·.2.2.1) e).trans
  lock := (congrArg (·.2.2.2.1) e).trans
  fails := Nat.le_of_eq (congrArg (·.2.2.2.2.1) e).symm
  locked := fun h g => (congrArg (·.2.2.2.1) e).trans (h (Nat.le_trans g (Nat.le_of_eq (congrArg (·.2.2.2.2.1) e))))
  root := .inl (congrArg (·.2.2.2.2.2.1) e)
end

/-- A record update that leaves the fields of the relation alone. -/
theorem Follows.put {time : TimeSt} {lc : LifeCycle} {audit : Audit} {keys : KeyUnit} {fault : FaultUnit}
    {sound lic bw tide quay sess migr migrWait red ctx queue rrQueue obj boll mbox moor ent att fed ev fw ops done
      shadow}
    (h : Follows z s) (e : seen time lc audit keys fault = seen s.time s.lc s.audit s.keys s.fault) :
    Follows z ⟨s.pending, s.sent, s.power, s.mode, s.mask, s.straps, s.strapFault, time, fault, sound, lic, bw, tide,
      quay, sess, migr, migrWait, red, ctx, queue, rrQueue, obj, boll, mbox, moor, keys, lc, ent, att, fed, ev, audit,
      fw, ops, done, s.cnt, shadow, s.serial, s.freeIdx⟩ where
  pending := h.pending
  power := h.power
  mask := h.mask
  straps := h.straps
  strapFault := h.strapFault
  lc := h.lc.trans (seen_lc e)
  time := (seen_time e) ▸ h.time
  serial := h.serial
  freeIdx := h.freeIdx
  head := (seen_head e) ▸ h.head
  sent := h.sent
  mode := h.mode
  gate := fun g => h.gate (seen_gate e ▸ g)
  scan := fun g => seen_scan e ▸ h.scan g
  sealed := fun g k => seen_gate e ▸ h.sealed g (seen_scan e ▸ k)
  cnt := h.cnt


/-- A record update that gives the counters a new table, which keeps their form. -/
theorem Follows.putCnt {time : TimeSt} {lc : LifeCycle} {audit : Audit} {keys : KeyUnit} {fault : FaultUnit} {cnt : Tab Nat}
    {sound lic bw tide quay sess migr migrWait red ctx queue rrQueue obj boll mbox moor ent att fed ev fw ops done
      shadow}
    (h : Follows z s) (hc : countersOk s.cnt → countersOk cnt) (e : seen time lc audit keys fault = seen s.time s.lc s.audit s.keys s.fault) :
    Follows z ⟨s.pending, s.sent, s.power, s.mode, s.mask, s.straps, s.strapFault, time, fault, sound, lic, bw, tide,
      quay, sess, migr, migrWait, red, ctx, queue, rrQueue, obj, boll, mbox, moor, keys, lc, ent, att, fed, ev, audit,
      fw, ops, done, cnt, shadow, s.serial, s.freeIdx⟩ where
  pending := h.pending
  power := h.power
  mask := h.mask
  straps := h.straps
  strapFault := h.strapFault
  lc := h.lc.trans (seen_lc e)
  time := (seen_time e) ▸ h.time
  serial := h.serial
  freeIdx := h.freeIdx
  head := (seen_head e) ▸ h.head
  sent := h.sent
  mode := h.mode
  gate := fun g => h.gate (seen_gate e ▸ g)
  scan := fun g => seen_scan e ▸ h.scan g
  sealed := fun g k => seen_gate e ▸ h.sealed g (seen_scan e ▸ k)
  cnt := fun e => hc (h.cnt e)


/-- A record update that leaves start-up or moves between normal service and keeper mode. -/
theorem Follows.putMode {time : TimeSt} {lc : LifeCycle} {audit : Audit} {keys : KeyUnit} {fault : FaultUnit} {mode : Mode}
    {sound lic bw tide quay sess migr migrWait red ctx queue rrQueue obj boll mbox moor ent att fed ev fw ops done
      shadow}
    (h : Follows z s) (hm : mode = .normal ∨ mode = .keeper) (e : seen time lc audit keys fault = seen s.time s.lc s.audit s.keys s.fault) :
    Follows z ⟨s.pending, s.sent, s.power, mode, s.mask, s.straps, s.strapFault, time, fault, sound, lic, bw, tide,
      quay, sess, migr, migrWait, red, ctx, queue, rrQueue, obj, boll, mbox, moor, keys, lc, ent, att, fed, ev, audit,
      fw, ops, done, s.cnt, shadow, s.serial, s.freeIdx⟩ where
  pending := h.pending
  power := h.power
  mask := h.mask
  straps := h.straps
  strapFault := h.strapFault
  lc := h.lc.trans (seen_lc e)
  time := (seen_time e) ▸ h.time
  serial := h.serial
  freeIdx := h.freeIdx
  head := (seen_head e) ▸ h.head
  sent := h.sent
  mode := fun e => by rcases hm with rfl | rfl <;> cases e
  gate := fun g => h.gate (seen_gate e ▸ g)
  scan := fun g => seen_scan e ▸ h.scan g
  sealed := fun g k => seen_gate e ▸ h.sealed g (seen_scan e ▸ k)
  cnt := h.cnt


theorem Follows.ite {c : Prop} [Decidable c] {a b : State} (ha : Follows z a) (hb : Follows z b) :
    Follows z (if c then a else b) := by split <;> assumption

theorem Follows.fold {f : State → α → State} (hf : ∀ s x, Follows z s → Follows z (f s x)) :
    ∀ (l : List α) {s : State}, Follows z s → Follows z (l.foldl f s)
  | [], _, h => h
  | x :: l, s, h => Follows.fold hf l (hf s x h)

theorem Follows.foldP {f : β × State → α → β × State} (hf : ∀ a x, Follows z a.2 → Follows z (f a x).2) :
    ∀ (l : List α) {a : β × State}, Follows z a.2 → Follows z (l.foldl f a).2
  | [], _, h => h
  | x :: l, a, h => Follows.foldP hf l (hf a x h)

/-- A result that carries a state that follows. -/
def FollowsP (z : State) (p : α × State) : Prop := Follows z p.2
def FollowsP2 (z : State) (p : α × β × State) : Prop := Follows z p.2.2
def FollowsP3 (z : State) (p : α × β × γ × State) : Prop := Follows z p.2.2.2

/-- Where there is a result, its state follows. -/
structure FollowsO (z : State) (o : Option State) : Prop where
  of : ∀ t, o = some t → Follows z t
structure FollowsOP (z : State) (o : Option (α × State)) : Prop where
  of : ∀ p, o = some p → Follows z p.2

theorem FollowsP.mk {x : α} (h : Follows z s) : FollowsP z (x, s) := h
theorem FollowsP.ite {c : Prop} [Decidable c] {a b : α × State} (ha : FollowsP z a) (hb : FollowsP z b) :
    FollowsP z (if c then a else b) := by split <;> assumption
theorem FollowsP2.mk {x : α} {y : β} (h : Follows z s) : FollowsP2 z (x, y, s) := h
theorem FollowsP3.mk {x : α} {y : β} {w : γ} (h : Follows z s) : FollowsP3 z (x, y, w, s) := h
theorem FollowsP.snd {p : α × State} (h : FollowsP z p) : Follows z p.2 := h
theorem FollowsP2.snd {p : α × β × State} (h : FollowsP2 z p) : Follows z p.2.2 := h
theorem FollowsP3.snd {p : α × β × γ × State} (h : FollowsP3 z p) : Follows z p.2.2.2 := h
theorem FollowsP.eq {p : α × State} {x : α} (e : p = (x, t)) (h : FollowsP z p) : Follows z t := by subst e; exact h
theorem FollowsP2.eq {p : α × β × State} {x : α} {y : β} (e : p = (x, y, t)) (h : FollowsP2 z p) : Follows z t := by
  subst e; exact h
theorem FollowsO.none : FollowsO z none := ⟨fun _ e => nomatch e⟩
theorem FollowsO.some (h : Follows z s) : FollowsO z (some s) := ⟨fun _ e => Option.some.inj e ▸ h⟩
theorem FollowsO.eq {o : Option State} (e : o = .some t) (h : FollowsO z o) : Follows z t := h.of t e
theorem FollowsO.getD {o : Option State} (h : FollowsO z o) (hs : Follows z s) : Follows z (o.getD s) := by
  cases o with
  | none => exact hs
  | some t => exact h.of t rfl
theorem FollowsO.orElse {a b : Option State} (ha : FollowsO z a) (hb : FollowsO z b) : FollowsO z (a.or b) := by
  cases a with
  | none => exact hb
  | some t => exact ha
theorem FollowsO.map {f : α → State} {o : Option α} (hf : ∀ x, Follows z (f x)) : FollowsO z (o.map f) := by
  cases o with
  | none => exact FollowsO.none
  | some x => exact FollowsO.some (hf x)
theorem FollowsOP.none : FollowsOP z (none : Option (α × State)) := ⟨fun _ e => nomatch e⟩
theorem FollowsOP.some {p : α × State} (h : Follows z p.2) : FollowsOP z (some p) := ⟨fun _ e => Option.some.inj e ▸ h⟩
theorem FollowsOP.eq {o : Option (α × State)} {x : α} (e : o = .some (x, t)) (h : FollowsOP z o) : Follows z t := h.of _ e
theorem FollowsOP.eqp {o : Option (α × State)} {p : α × State} (e : o = .some p) (h : FollowsOP z o) : Follows z p.2 :=
  h.of _ e
theorem FollowsOP.getD {o : Option (α × State)} {x : α} (h : FollowsOP z o) (hs : Follows z s) :
    Follows z (o.getD (x, s)).2 := by
  cases o with
  | none => exact hs
  | some p => exact h.of p rfl
theorem FollowsOP.mapP {f : β × State → α × State} {o : Option (β × State)} (ho : FollowsOP z o)
    (hf : ∀ x, Follows z x.2 → Follows z (f x).2) : FollowsOP z (o.map f) := by
  cases o with
  | none => exact FollowsOP.none
  | some x => exact FollowsOP.some (hf x (ho.of x rfl))
theorem FollowsOP.map {f : α → β × State} {o : Option α} (hf : ∀ x, Follows z (f x).2) : FollowsOP z (o.map f) := by
  cases o with
  | none => exact FollowsOP.none
  | some x => exact FollowsOP.some (hf x)

theorem firstStart_follows {f : α → Option State} (hf : ∀ x, FollowsO z (f x)) : ∀ l, FollowsO z (firstStart f l)
  | [] => FollowsO.none
  | x :: l => by
    have h := hf x
    unfold firstStart
    split
    · rename_i e; exact e ▸ h
    · exact firstStart_follows hf l

/-- Steps in a row, each of which follows. -/
structure FollowsL (z : State) (l : List (State → β × State)) : Prop where
  of : ∀ f ∈ l, ∀ u, Follows z u → FollowsP z (f u)

theorem FollowsL.nil : FollowsL z ([] : List (State → β × State)) := ⟨fun _ h => nomatch h⟩
theorem FollowsL.cons {f : State → β × State} {l} (hf : ∀ u, Follows z u → FollowsP z (f u)) (hl : FollowsL z l) :
    FollowsL z (f :: l) := ⟨fun g hg => (List.mem_cons.mp hg).elim (fun e => e ▸ hf) (hl.of g)⟩
theorem FollowsL.append {a b : List (State → β × State)} (ha : FollowsL z a) (hb : FollowsL z b) : FollowsL z (a ++ b) :=
  ⟨fun g hg => (List.mem_append.mp hg).elim (ha.of g) (hb.of g)⟩
theorem FollowsL.map {f : α → State → β × State} {l : List α} (hf : ∀ x u, Follows z u → FollowsP z (f x u)) :
    FollowsL z (l.map f) := ⟨fun _ hg => (List.mem_map.mp hg).elim fun x e => e.2 ▸ hf x⟩
theorem FollowsL.flatMap {f : α → List (State → β × State)} {l : List α} (hf : ∀ x, FollowsL z (f x)) :
    FollowsL z (l.flatMap f) := ⟨fun g hg => (List.mem_flatMap.mp hg).elim fun x e => (hf x).of g e.2⟩
theorem FollowsL.ite {c : Prop} [Decidable c] {a b : List (State → β × State)} (ha : FollowsL z a) (hb : FollowsL z b) :
    FollowsL z (if c then a else b) := by split <;> assumption

end Sys2Proof.Machine
end

