-- ==== Sys2Proof/Laws/FollowsOps.lean ====
section
/-! SUPPORT. The operations of Machine/Ops.lean follow. -/

namespace Sys2Proof.Machine

variable {z s : State}

theorem State.setEng_follows {a1} {a2} (h : Follows z s) :
    Follows z (State.setEng s a1 a2) := by
  unfold State.setEng
  try dsimp only
  repeat' first
    | (intro _)
    | fail_if_no_progress with_reducible refine Follows.put ?_ rfl
    | with_reducible assumption

theorem State.updEng_follows {a1} {a2} (h : Follows z s) :
    Follows z (State.updEng s a1 a2) := by
  unfold State.updEng
  try dsimp only
  repeat' first
    | (intro _)
    | fail_if_no_progress with_reducible refine Follows.put ?_ rfl
    | with_reducible assumption
    | with_reducible apply State.setEng_follows

theorem State.setQuay_follows {a1} {a2} (h : Follows z s) :
    Follows z (State.setQuay s a1 a2) := by
  unfold State.setQuay
  try dsimp only
  repeat' first
    | (intro _)
    | fail_if_no_progress with_reducible refine Follows.put ?_ rfl
    | with_reducible assumption

theorem State.updQuay_follows {a1} {a2} (h : Follows z s) :
    Follows z (State.updQuay s a1 a2) := by
  unfold State.updQuay
  try dsimp only
  repeat' first
    | (intro _)
    | fail_if_no_progress with_reducible refine Follows.put ?_ rfl
    | with_reducible assumption
    | with_reducible apply State.setQuay_follows

theorem State.setSess_follows {a1} {a2} (h : Follows z s) :
    Follows z (State.setSess s a1 a2) := by
  unfold State.setSess
  try dsimp only
  repeat' first
    | (intro _)
    | fail_if_no_progress with_reducible refine Follows.put ?_ rfl
    | with_reducible assumption

theorem State.updSess_follows {a1} {a2} (h : Follows z s) :
    Follows z (State.updSess s a1 a2) := by
  unfold State.updSess
  try dsimp only
  repeat' first
    | (intro _)
    | fail_if_no_progress with_reducible refine Follows.put ?_ rfl
    | with_reducible assumption
    | with_reducible apply State.setSess_follows

theorem State.setMoor_follows {a1} {a2} (h : Follows z s) :
    Follows z (State.setMoor s a1 a2) := by
  unfold State.setMoor
  try dsimp only
  repeat' first
    | (intro _)
    | fail_if_no_progress with_reducible refine Follows.put ?_ rfl
    | with_reducible assumption

theorem State.updMoor_follows {a1} {a2} (h : Follows z s) :
    Follows z (State.updMoor s a1 a2) := by
  unfold State.updMoor
  try dsimp only
  repeat' first
    | (intro _)
    | fail_if_no_progress with_reducible refine Follows.put ?_ rfl
    | with_reducible assumption
    | with_reducible apply State.setMoor_follows

theorem State.updWin_follows {a1} {a2} (h : Follows z s) :
    Follows z (State.updWin s a1 a2) := by
  unfold State.updWin
  try dsimp only
  repeat' first
    | (intro _)
    | fail_if_no_progress with_reducible refine Follows.put ?_ rfl
    | with_reducible assumption
    | with_reducible apply State.updMoor_follows

theorem State.setQueue_follows {a1} {a2} (h : Follows z s) :
    Follows z (State.setQueue s a1 a2) := by
  unfold State.setQueue
  try dsimp only
  repeat' first
    | (intro _)
    | fail_if_no_progress with_reducible refine Follows.put ?_ rfl
    | with_reducible assumption

theorem State.updQueue_follows {a1} {a2} (h : Follows z s) :
    Follows z (State.updQueue s a1 a2) := by
  unfold State.updQueue
  try dsimp only
  repeat' first
    | (intro _)
    | fail_if_no_progress with_reducible refine Follows.put ?_ rfl
    | with_reducible assumption
    | with_reducible apply State.setQueue_follows

theorem State.setObj_follows {a1} {a2} (h : Follows z s) :
    Follows z (State.setObj s a1 a2) := by
  unfold State.setObj
  try dsimp only
  repeat' first
    | (intro _)
    | fail_if_no_progress with_reducible refine Follows.put ?_ rfl
    | with_reducible assumption

theorem State.updObj_follows {a1} {a2} (h : Follows z s) :
    Follows z (State.updObj s a1 a2) := by
  unfold State.updObj
  try dsimp only
  repeat' first
    | (intro _)
    | fail_if_no_progress with_reducible refine Follows.put ?_ rfl
    | with_reducible assumption
    | with_reducible apply State.setObj_follows

theorem State.setBoll_follows {a1} {a2} (h : Follows z s) :
    Follows z (State.setBoll s a1 a2) := by
  unfold State.setBoll
  try dsimp only
  repeat' first
    | (intro _)
    | fail_if_no_progress with_reducible refine Follows.put ?_ rfl
    | with_reducible assumption

theorem State.updBoll_follows {a1} {a2} (h : Follows z s) :
    Follows z (State.updBoll s a1 a2) := by
  unfold State.updBoll
  try dsimp only
  repeat' first
    | (intro _)
    | fail_if_no_progress with_reducible refine Follows.put ?_ rfl
    | with_reducible assumption
    | with_reducible apply State.setBoll_follows

theorem State.setBerth_follows {a1} {a2} (h : Follows z s) :
    Follows z (State.setBerth s a1 a2) := by
  unfold State.setBerth
  try dsimp only
  repeat' first
    | (intro _)
    | fail_if_no_progress with_reducible refine Follows.put ?_ rfl
    | with_reducible assumption

theorem State.setKmap_follows {a1} {a2} (h : Follows z s) :
    Follows z (State.setKmap s a1 a2) := by
  unfold State.setKmap
  try dsimp only
  repeat' first
    | (intro _)
    | fail_if_no_progress with_reducible refine Follows.put ?_ rfl
    | with_reducible assumption

theorem State.setEq_follows {a1} {a2} (h : Follows z s) :
    Follows z (State.setEq s a1 a2) := by
  unfold State.setEq
  try dsimp only
  repeat' first
    | (intro _)
    | fail_if_no_progress with_reducible refine Follows.put ?_ rfl
    | with_reducible assumption

theorem State.updEq_follows {a1} {a2} (h : Follows z s) :
    Follows z (State.updEq s a1 a2) := by
  unfold State.updEq
  try dsimp only
  repeat' first
    | (intro _)
    | fail_if_no_progress with_reducible refine Follows.put ?_ rfl
    | with_reducible assumption
    | with_reducible apply State.setEq_follows

theorem State.setBank_follows {a1} {a2} (h : Follows z s) :
    Follows z (State.setBank s a1 a2) := by
  unfold State.setBank
  try dsimp only
  repeat' first
    | (intro _)
    | fail_if_no_progress with_reducible refine Follows.put ?_ rfl
    | with_reducible assumption

theorem State.setSlot_follows {a1} {a2} (h : Follows z s) :
    Follows z (State.setSlot s a1 a2) := by
  unfold State.setSlot
  try dsimp only
  repeat' first
    | (intro _)
    | fail_if_no_progress with_reducible refine Follows.put ?_ rfl
    | with_reducible assumption

theorem State.updSlot_follows {a1} {a2} (h : Follows z s) :
    Follows z (State.updSlot s a1 a2) := by
  unfold State.updSlot
  try dsimp only
  repeat' first
    | (intro _)
    | fail_if_no_progress with_reducible refine Follows.put ?_ rfl
    | with_reducible assumption
    | with_reducible apply State.setSlot_follows

theorem State.setDom_follows {a1} {a2} (h : Follows z s) :
    Follows z (State.setDom s a1 a2) := by
  unfold State.setDom
  try dsimp only
  repeat' first
    | (intro _)
    | fail_if_no_progress with_reducible refine Follows.put ?_ rfl
    | with_reducible assumption

theorem State.setIsland_follows {a1} {a2} (h : Follows z s) :
    Follows z (State.setIsland s a1 a2) := by
  unfold State.setIsland
  try dsimp only
  repeat' first
    | (intro _)
    | fail_if_no_progress with_reducible refine Follows.put ?_ rfl
    | with_reducible assumption

theorem State.updIsland_follows {a1} {a2} (h : Follows z s) :
    Follows z (State.updIsland s a1 a2) := by
  unfold State.updIsland
  try dsimp only
  repeat' first
    | (intro _)
    | fail_if_no_progress with_reducible refine Follows.put ?_ rfl
    | with_reducible assumption
    | with_reducible apply State.setIsland_follows

theorem State.setOp_follows {a1} {a2} (h : Follows z s) :
    Follows z (State.setOp s a1 a2) := by
  unfold State.setOp
  try dsimp only
  repeat' first
    | (intro _)
    | fail_if_no_progress with_reducible refine Follows.put ?_ rfl
    | with_reducible assumption

theorem State.dropOp_follows {a1} (h : Follows z s) :
    Follows z (State.dropOp s a1) := by
  unfold State.dropOp
  try dsimp only
  repeat' first
    | (intro _)
    | fail_if_no_progress with_reducible refine Follows.put ?_ rfl
    | with_reducible assumption

theorem State.updOp_follows {a1} {a2} (h : Follows z s) :
    Follows z (State.updOp s a1 a2) := by
  unfold State.updOp
  try dsimp only
  repeat' first
    | (intro _)
    | fail_if_no_progress with_reducible refine Follows.put ?_ rfl
    | with_reducible assumption
    | with_reducible apply State.setOp_follows
    | with_reducible apply Follows.ite

theorem State.setStrand_follows {a1} {a2} {a3} (h : Follows z s) :
    Follows z (State.setStrand s a1 a2 a3) := by
  unfold State.setStrand
  try dsimp only
  repeat' first
    | (intro _)
    | fail_if_no_progress with_reducible refine Follows.put ?_ rfl
    | with_reducible assumption
    | with_reducible apply State.updQuay_follows

theorem State.updStrand_follows {a1} {a2} {a3} (h : Follows z s) :
    Follows z (State.updStrand s a1 a2 a3) := by
  unfold State.updStrand
  try dsimp only
  repeat' first
    | (intro _)
    | fail_if_no_progress with_reducible refine Follows.put ?_ rfl
    | with_reducible assumption
    | with_reducible apply State.setStrand_follows

theorem State.fresh_follows (h : Follows z s) :
    FollowsP z (State.fresh s) := by
  exact { h with serial := Nat.le_succ_of_le h.serial }

theorem State.free_follows (h : Follows z s) :
    FollowsP z (State.free s) := by
  exact { h with freeIdx := Nat.le_succ_of_le h.freeIdx }

theorem emit_follows {a1} (h : Follows z s) :
    Follows z (emit a1 s) := by
  exact { h with sent := h.sent.trans (List.suffix_cons _ _) }

theorem bumpBy_follows {a1} {a2} (h : Follows z s) :
    Follows z (bumpBy a1 a2 s) := by
  exact { h with cnt := fun e => countersOk_set (h.cnt e) (Nat.min_le_left _ _) }

theorem bump_follows {a1} (h : Follows z s) :
    Follows z (bump a1 s) := by
  unfold bump
  try dsimp only
  repeat' first
    | (intro _)
    | fail_if_no_progress with_reducible refine Follows.put ?_ rfl
    | with_reducible assumption
    | with_reducible apply bumpBy_follows

theorem bumpIf_follows {a1} {a2} (h : Follows z s) :
    Follows z (bumpIf a1 a2 s) := by
  unfold bumpIf
  try dsimp only
  repeat' first
    | (intro _)
    | fail_if_no_progress with_reducible refine Follows.put ?_ rfl
    | with_reducible assumption
    | with_reducible apply bump_follows
    | with_reducible apply Follows.ite

theorem permFault_follows {a1} (h : Follows z s) :
    Follows z (permFault a1 s) := by
  unfold permFault
  try dsimp only
  repeat' first
    | (intro _)
    | fail_if_no_progress with_reducible refine Follows.put ?_ rfl
    | with_reducible assumption
    | with_reducible apply bump_follows

theorem bumpTen_follows {a1} {a2} {a3} (h : Follows z s) :
    Follows z (bumpTen a1 a2 a3 s) := by
  unfold bumpTen
  try dsimp only
  repeat' first
    | (intro _)
    | fail_if_no_progress with_reducible refine Follows.put ?_ rfl
    | with_reducible assumption
    | with_reducible apply bumpBy_follows
    | with_reducible apply Follows.ite
    | with_reducible apply Follows.fold
    | split

theorem beat_follows {a1} (h : Follows z s) :
    Follows z (beat a1 s) := by
  unfold beat
  try dsimp only
  repeat' first
    | (intro _)
    | fail_if_no_progress with_reducible refine Follows.put ?_ rfl
    | with_reducible assumption
    | with_reducible apply State.setIsland_follows
    | with_reducible apply Follows.ite

theorem putRecord_follows {a1} (h : Follows z s) :
    Follows z (putRecord a1 s) := by
  unfold putRecord
  try dsimp only
  repeat' first
    | (intro _)
    | fail_if_no_progress with_reducible refine Follows.put ?_ rfl
    | with_reducible assumption
    | with_reducible apply bump_follows
    | with_reducible apply Follows.ite

theorem raiseTo_follows {a1} {a2} (h : Follows z s) :
    Follows z (raiseTo a1 a2 s) := by
  unfold raiseTo
  try dsimp only
  repeat' first
    | (intro _)
    | fail_if_no_progress with_reducible refine Follows.put ?_ rfl
    | with_reducible assumption
    | with_reducible apply putRecord_follows
    | with_reducible apply bump_follows
    | with_reducible apply Follows.ite

theorem raiseOwner_follows {a1} {a2} {a3} {a4} {a5} {a6} (h : Follows z s) :
    Follows z (raiseOwner a1 a2 a3 a4 a5 a6 s) := by
  unfold raiseOwner
  try dsimp only
  repeat' first
    | (intro _)
    | fail_if_no_progress with_reducible refine Follows.put ?_ rfl
    | with_reducible assumption
    | with_reducible apply raiseTo_follows

theorem raiseTenant_follows {a1} {a2} {a3} {a4} {a5} {a6} {a7} {a8} (h : Follows z s) :
    Follows z (raiseTenant a1 a2 a3 a4 a5 a6 a7 a8 s) := by
  unfold raiseTenant
  try dsimp only
  repeat' first
    | (intro _)
    | fail_if_no_progress with_reducible refine Follows.put ?_ rfl
    | with_reducible assumption
    | with_reducible apply raiseTo_follows

theorem raiseBoth_follows {a1} {a2} {a3} {a4} {a5} {a6} {a7} (h : Follows z s) :
    Follows z (raiseBoth a1 a2 a3 a4 a5 a6 a7 s) := by
  unfold raiseBoth
  try dsimp only
  repeat' first
    | (intro _)
    | fail_if_no_progress with_reducible refine Follows.put ?_ rfl
    | with_reducible assumption
    | with_reducible apply raiseTenant_follows
    | with_reducible apply raiseOwner_follows
    | with_reducible apply Follows.ite
    | with_reducible apply Follows.fold
    | split

theorem raisePriv_follows {a1} {a2} {a3} {a4} {a5} {a6} (h : Follows z s) :
    Follows z (raisePriv a1 a2 a3 a4 a5 a6 s) := by
  unfold raisePriv
  try dsimp only
  repeat' first
    | (intro _)
    | fail_if_no_progress with_reducible refine Follows.put ?_ rfl
    | with_reducible assumption
    | with_reducible apply putRecord_follows

theorem raisePrivOpen_follows {a1} {a2} {a3} {a4} {a5} (h : Follows z s) :
    Follows z (raisePrivOpen a1 a2 a3 a4 a5 s) := by
  unfold raisePrivOpen
  try dsimp only
  repeat' first
    | (intro _)
    | fail_if_no_progress with_reducible refine Follows.put ?_ rfl
    | with_reducible assumption
    | with_reducible apply raisePriv_follows
    | with_reducible apply State.free_follows
    | with_reducible apply Follows.ite
    | with_reducible apply Follows.fold
    | with_reducible apply FollowsP.ite
    | with_reducible apply FollowsP.mk
    | with_reducible refine FollowsP.snd (State.free_follows ?_)

theorem setHmPend_follows {a1} {a2} (h : Follows z s) :
    Follows z (setHmPend a1 a2 s) := by
  unfold setHmPend
  try dsimp only
  repeat' first
    | (intro _)
    | fail_if_no_progress with_reducible refine Follows.put ?_ rfl
    | with_reducible assumption

theorem raiseHm_follows {a1} (h : Follows z s) :
    Follows z (raiseHm a1 s) := by
  unfold raiseHm
  try dsimp only
  repeat' first
    | (intro _)
    | fail_if_no_progress with_reducible refine Follows.put ?_ rfl
    | with_reducible assumption
    | with_reducible apply setHmPend_follows

theorem nvPush_follows {a1} (h : Follows z s) :
    Follows z (nvPush a1 s) := by
  unfold nvPush
  try dsimp only
  repeat' first
    | (intro _)
    | fail_if_no_progress with_reducible refine Follows.put ?_ rfl
    | with_reducible assumption
    | with_reducible apply emit_follows
    | with_reducible apply Follows.ite

theorem otpPush_follows {a1} (h : Follows z s) :
    Follows z (otpPush a1 s) := by
  unfold otpPush
  try dsimp only
  repeat' first
    | (intro _)
    | fail_if_no_progress with_reducible refine Follows.put ?_ rfl
    | with_reducible assumption
    | with_reducible apply emit_follows
    | with_reducible apply Follows.ite

theorem auditWords_follows {a1} {a2} (h : Follows z s) :
    Follows z (auditWords a1 a2 s) := by
  unfold auditWords
  try dsimp only
  repeat' first
    | (intro _)
    | fail_if_no_progress with_reducible refine Follows.put ?_ rfl
    | with_reducible assumption
    | with_reducible apply nvPush_follows
    | with_reducible apply Follows.ite
    | with_reducible apply Follows.fold

theorem auditMirror_follows {a1} (h : Follows z s) :
    Follows z (auditMirror a1 s) := by
  unfold auditMirror
  try dsimp only
  repeat' first
    | (intro _)
    | fail_if_no_progress with_reducible refine Follows.put ?_ rfl
    | with_reducible assumption
    | with_reducible apply emit_follows
    | with_reducible apply Follows.ite

theorem auditLog_follows {a1} {a2} {a3} {a4} {a5} {a6} {a7} (h : Follows z s) :
    Follows z (auditLog a1 a2 a3 a4 a5 a6 a7 s) := by
  unfold auditLog
  dsimp only
  apply auditMirror_follows
  apply auditWords_follows
  exact { h with head := Nat.le_succ_of_le h.head }

theorem readBack_follows (h : Follows z s) :
    FollowsP z (readBack s) := by
  unfold readBack
  try dsimp only
  repeat' first
    | (intro _)
    | fail_if_no_progress with_reducible refine Follows.put ?_ rfl
    | with_reducible assumption
    | with_reducible apply Follows.ite
    | with_reducible apply Follows.fold
    | with_reducible apply FollowsP.ite
    | with_reducible apply FollowsP.mk
    | split

theorem readBackFails_follows (h : Follows z s) :
    FollowsP z (readBackFails s) := by
  unfold readBackFails
  try dsimp only
  repeat' first
    | (intro _)
    | fail_if_no_progress with_reducible refine Follows.put ?_ rfl
    | with_reducible assumption
    | with_reducible apply readBack_follows
    | with_reducible apply Follows.ite
    | with_reducible apply Follows.fold
    | with_reducible apply FollowsP.ite
    | with_reducible apply FollowsP.mk
    | with_reducible refine FollowsP.snd (readBack_follows ?_)

theorem regGuard_follows {a1} {a2} {a3 : State → State} (h : Follows z s) (ha3 : ∀ u, Follows z u → Follows z (a3 u)) :
    Follows z (regGuard a1 a2 a3 s) := by
  unfold regGuard
  try dsimp only
  repeat' first
    | (intro _)
    | fail_if_no_progress with_reducible refine Follows.put ?_ rfl
    | with_reducible assumption
    | with_reducible apply ha3
    | with_reducible apply permFault_follows
    | with_reducible apply bump_follows
    | with_reducible apply Follows.ite

theorem policyWrite_follows {a1} {a2} {a3} {a4} {a5 : State → State} (h : Follows z s) (ha5 : ∀ u, Follows z u → Follows z (a5 u)) :
    Follows z (policyWrite a1 a2 a3 a4 a5 s) := by
  unfold policyWrite
  try dsimp only
  repeat' first
    | (intro _)
    | fail_if_no_progress with_reducible refine Follows.put ?_ rfl
    | with_reducible assumption
    | with_reducible apply ha5
    | with_reducible apply readBackFails_follows
    | with_reducible apply auditLog_follows
    | with_reducible apply Follows.ite
    | with_reducible apply Follows.fold
    | with_reducible apply FollowsP.ite
    | with_reducible apply FollowsP.mk
    | with_reducible refine FollowsP.snd (readBackFails_follows ?_)
    | split

theorem State.setCtx_follows {a1} {a2} {a3} (h : Follows z s) :
    Follows z (State.setCtx s a1 a2 a3) := by
  unfold State.setCtx
  try dsimp only
  repeat' first
    | (intro _)
    | fail_if_no_progress with_reducible refine Follows.put ?_ rfl
    | with_reducible assumption

theorem markLost_follows {a1} {a2} {a3} (h : Follows z s) :
    Follows z (markLost a1 a2 a3 s) := by
  unfold markLost
  try dsimp only
  repeat' first
    | (intro _)
    | fail_if_no_progress with_reducible refine Follows.put ?_ rfl
    | with_reducible assumption
    | with_reducible apply State.setCtx_follows
    | with_reducible apply State.updWin_follows
    | with_reducible apply Follows.ite
    | with_reducible apply Follows.fold
    | split

theorem ctxBegin_follows {a1} {a2} (h : Follows z s) :
    Follows z (ctxBegin a1 a2 s) := by
  unfold ctxBegin
  try dsimp only
  repeat' first
    | (intro _)
    | fail_if_no_progress with_reducible refine Follows.put ?_ rfl
    | with_reducible assumption
    | with_reducible apply State.setCtx_follows
    | with_reducible apply Follows.ite

theorem ctxEnd_follows {a1} {a2} (h : Follows z s) :
    Follows z (ctxEnd a1 a2 s) := by
  unfold ctxEnd
  try dsimp only
  repeat' first
    | (intro _)
    | fail_if_no_progress with_reducible refine Follows.put ?_ rfl
    | with_reducible assumption
    | with_reducible apply State.setCtx_follows
    | with_reducible apply Follows.ite

theorem ctxBytes_follows {a1} {a2} {a3} (h : Follows z s) :
    Follows z (ctxBytes a1 a2 a3 s) := by
  unfold ctxBytes
  try dsimp only
  repeat' first
    | (intro _)
    | fail_if_no_progress with_reducible refine Follows.put ?_ rfl
    | with_reducible assumption
    | with_reducible apply State.setCtx_follows
    | with_reducible apply Follows.ite

theorem addRef_follows {a1} (h : Follows z s) :
    Follows z (addRef a1 s) := by
  unfold addRef
  try dsimp only
  repeat' first
    | (intro _)
    | fail_if_no_progress with_reducible refine Follows.put ?_ rfl
    | with_reducible assumption
    | with_reducible apply State.updObj_follows

theorem dropRef_follows {a1} (h : Follows z s) :
    Follows z (dropRef a1 s) := by
  unfold dropRef
  try dsimp only
  repeat' first
    | (intro _)
    | fail_if_no_progress with_reducible refine Follows.put ?_ rfl
    | with_reducible assumption
    | with_reducible apply State.updObj_follows

theorem addRefs_follows {a1} (h : Follows z s) :
    Follows z (addRefs a1 s) := by
  unfold addRefs
  try dsimp only
  repeat' first
    | (intro _)
    | fail_if_no_progress with_reducible refine Follows.put ?_ rfl
    | with_reducible assumption
    | with_reducible apply addRef_follows
    | with_reducible apply Follows.ite
    | with_reducible apply Follows.fold

theorem dropRefs_follows {a1} (h : Follows z s) :
    Follows z (dropRefs a1 s) := by
  unfold dropRefs
  try dsimp only
  repeat' first
    | (intro _)
    | fail_if_no_progress with_reducible refine Follows.put ?_ rfl
    | with_reducible assumption
    | with_reducible apply dropRef_follows
    | with_reducible apply Follows.ite
    | with_reducible apply Follows.fold

theorem breakBoll_follows {a1} (h : Follows z s) :
    Follows z (breakBoll a1 s) := by
  unfold breakBoll
  try dsimp only
  repeat' first
    | (intro _)
    | fail_if_no_progress with_reducible refine Follows.put ?_ rfl
    | with_reducible assumption
    | with_reducible apply State.setBoll_follows
    | with_reducible apply Follows.ite

theorem signalAdd_follows {a1} {a2} (h : Follows z s) :
    FollowsP2 z (signalAdd a1 a2 s) := by
  unfold signalAdd
  try dsimp only
  repeat' first
    | (intro _)
    | fail_if_no_progress with_reducible refine Follows.put ?_ rfl
    | with_reducible assumption
    | with_reducible apply State.setBoll_follows
    | with_reducible apply Follows.ite
    | with_reducible apply Follows.fold
    | with_reducible apply FollowsP2.mk
    | split

theorem signalReset_follows {a1} {a2} (h : Follows z s) :
    FollowsP2 z (signalReset a1 a2 s) := by
  unfold signalReset
  try dsimp only
  repeat' first
    | (intro _)
    | fail_if_no_progress with_reducible refine Follows.put ?_ rfl
    | with_reducible assumption
    | with_reducible apply State.setBoll_follows
    | with_reducible apply Follows.ite
    | with_reducible apply Follows.fold
    | with_reducible apply FollowsP2.mk
    | split

theorem signalCompl_follows {a1} {a2} (h : Follows z s) :
    FollowsP z (signalCompl a1 a2 s) := by
  unfold signalCompl
  try dsimp only
  repeat' first
    | (intro _)
    | fail_if_no_progress with_reducible refine Follows.put ?_ rfl
    | with_reducible assumption
    | with_reducible apply signalAdd_follows
    | with_reducible apply breakBoll_follows
    | with_reducible apply Follows.ite
    | with_reducible apply Follows.fold
    | with_reducible apply FollowsP.ite
    | with_reducible apply FollowsP.mk
    | with_reducible refine FollowsP2.snd (signalAdd_follows ?_)

theorem reapObj_follows {a1} (h : Follows z s) :
    Follows z (reapObj a1 s) := by
  unfold reapObj
  try dsimp only
  repeat' first
    | (intro _)
    | fail_if_no_progress with_reducible refine Follows.put ?_ rfl
    | with_reducible assumption
    | with_reducible apply State.setBoll_follows
    | with_reducible apply State.setObj_follows
    | with_reducible apply State.updMoor_follows
    | with_reducible apply Follows.ite
    | with_reducible apply Follows.fold
    | split

theorem freeingObj_follows {a1} {a2} (h : Follows z s) :
    Follows z (freeingObj a1 a2 s) := by
  unfold freeingObj
  try dsimp only
  repeat' first
    | (intro _)
    | fail_if_no_progress with_reducible refine Follows.put ?_ rfl
    | with_reducible assumption
    | with_reducible apply breakBoll_follows
    | with_reducible apply State.setObj_follows
    | with_reducible apply Follows.ite

theorem traceTo_follows {a1} {a2} (h : Follows z s) :
    Follows z (traceTo a1 a2 s) := by
  unfold traceTo
  try dsimp only
  repeat' first
    | (intro _)
    | fail_if_no_progress with_reducible refine Follows.put ?_ rfl
    | with_reducible assumption
    | with_reducible apply State.updWin_follows
    | with_reducible apply Follows.ite

theorem trace_follows {a1} {a2} {a3} {a4} {a5} {a6} {a7} {a8} (h : Follows z s) :
    Follows z (trace a1 a2 a3 a4 a5 a6 a7 a8 s) := by
  unfold trace
  try dsimp only
  repeat' first
    | (intro _)
    | fail_if_no_progress with_reducible refine Follows.put ?_ rfl
    | with_reducible assumption
    | with_reducible apply traceTo_follows
    | with_reducible apply Follows.ite
    | with_reducible apply Follows.fold
    | split

theorem reseed_follows (h : Follows z s) :
    FollowsO z (reseed s) := by
  unfold reseed
  try dsimp only
  repeat' first
    | (intro _)
    | fail_if_no_progress with_reducible refine Follows.put ?_ rfl
    | with_reducible assumption
    | with_reducible apply bump_follows
    | with_reducible apply Follows.ite
    | with_reducible apply Follows.fold
    | with_reducible exact FollowsO.none
    | with_reducible apply FollowsO.some
    | with_reducible apply FollowsO.getD
    | with_reducible apply FollowsO.orElse
    | with_reducible apply FollowsO.map
    | split

theorem drbg_follows {a1} (h : Follows z s) :
    FollowsOP z (drbg a1 s) := by
  unfold drbg
  try dsimp only
  repeat' first
    | (intro _)
    | fail_if_no_progress with_reducible refine Follows.put ?_ rfl
    | with_reducible assumption
    | with_reducible apply reseed_follows
    | with_reducible apply Follows.ite
    | with_reducible apply Follows.fold
    | with_reducible exact FollowsO.none
    | with_reducible apply FollowsO.some
    | with_reducible apply FollowsO.getD
    | with_reducible apply FollowsO.orElse
    | with_reducible apply FollowsO.map
    | with_reducible exact FollowsOP.none
    | with_reducible apply FollowsOP.some
    | with_reducible apply FollowsOP.getD
    | with_reducible apply FollowsOP.mapP
    | with_reducible apply FollowsOP.map
    | split
    | refine FollowsO.eq (by assumption) ?_

theorem postCompl_follows {a1} {a2} {a3} {a4} {a5} {a6} {a7} {a8} {a9} {a10} (h : Follows z s) :
    Follows z (postCompl a1 a2 a3 a4 a5 a6 a7 a8 a9 a10 s) := by
  unfold postCompl
  try dsimp only
  repeat' first
    | (intro _)
    | fail_if_no_progress with_reducible refine Follows.put ?_ rfl
    | with_reducible assumption
    | with_reducible apply putRecord_follows
    | with_reducible apply bumpTen_follows
    | with_reducible apply State.setQueue_follows
    | with_reducible apply Follows.ite

theorem markEnd_follows {a1} {a2} {a3} {a4} (h : Follows z s) :
    Follows z (markEnd a1 a2 a3 a4 s) := by
  unfold markEnd
  try dsimp only
  repeat' first
    | (intro _)
    | fail_if_no_progress with_reducible refine Follows.put ?_ rfl
    | with_reducible assumption
    | with_reducible apply markLost_follows
    | with_reducible apply Follows.ite

end Sys2Proof.Machine
end

