-- ==== Sys2Proof/Laws/FollowsKeyOps.lean ====
section
/-! SUPPORT. The operations of Machine/KeyOps.lean follow. -/

namespace Sys2Proof.Machine

variable {z s : State}

theorem dropCopies_follows {a1} (h : Follows z s) :
    Follows z (dropCopies a1 s) := by
  unfold dropCopies
  try dsimp only
  repeat' first
    | (intro _)
    | fail_if_no_progress with_reducible refine Follows.put ?_ rfl
    | with_reducible assumption

theorem makeBad_follows {a1} (h : Follows z s) :
    Follows z (makeBad a1 s) := by
  unfold makeBad
  try dsimp only
  repeat' first
    | (intro _)
    | fail_if_no_progress with_reducible refine Follows.put ?_ rfl
    | with_reducible assumption
    | with_reducible apply dropCopies_follows
    | with_reducible apply raiseBoth_follows
    | with_reducible apply bump_follows
    | with_reducible apply State.setBerth_follows

theorem berthLoad_follows {a1} {a2} {a3} {a4} (h : Follows z s) :
    FollowsP2 z (berthLoad a1 a2 a3 a4 s) := by
  unfold berthLoad
  try dsimp only
  repeat' first
    | (intro _)
    | fail_if_no_progress with_reducible refine Follows.put ?_ rfl
    | with_reducible assumption
    | with_reducible apply makeBad_follows
    | with_reducible apply raisePriv_follows
    | with_reducible apply bump_follows
    | with_reducible apply Follows.ite
    | with_reducible apply Follows.fold
    | with_reducible apply FollowsP2.mk
    | split

theorem writeBerth_follows {a1} {a2} (h : Follows z s) :
    FollowsP z (writeBerth a1 a2 s) := by
  unfold writeBerth
  try dsimp only
  repeat' first
    | (intro _)
    | fail_if_no_progress with_reducible refine Follows.put ?_ rfl
    | with_reducible assumption
    | with_reducible apply makeBad_follows
    | with_reducible apply dropCopies_follows
    | with_reducible apply readBackFails_follows
    | with_reducible apply State.setBerth_follows
    | with_reducible apply Follows.ite
    | with_reducible apply Follows.fold
    | with_reducible apply FollowsP.ite
    | with_reducible apply FollowsP.mk
    | with_reducible refine FollowsP.snd (readBackFails_follows ?_)

theorem emptyBerth_follows {a1} (h : Follows z s) :
    Follows z (emptyBerth a1 s) := by
  unfold emptyBerth
  try dsimp only
  repeat' first
    | (intro _)
    | fail_if_no_progress with_reducible refine Follows.put ?_ rfl
    | with_reducible assumption
    | with_reducible apply dropCopies_follows
    | with_reducible apply State.setBerth_follows

theorem zeroiseBerth_follows {a1} (h : Follows z s) :
    Follows z (zeroiseBerth a1 s) := by
  unfold zeroiseBerth
  try dsimp only
  repeat' first
    | (intro _)
    | fail_if_no_progress with_reducible refine Follows.put ?_ rfl
    | with_reducible assumption
    | with_reducible apply emptyBerth_follows
    | with_reducible apply Follows.ite

theorem revokeBerth_follows {a1} (h : Follows z s) :
    Follows z (revokeBerth a1 s) := by
  unfold revokeBerth
  try dsimp only
  repeat' first
    | (intro _)
    | fail_if_no_progress with_reducible refine Follows.put ?_ rfl
    | with_reducible assumption
    | with_reducible apply dropCopies_follows
    | with_reducible apply State.setBerth_follows
    | with_reducible apply Follows.ite

theorem quarantineBerth_follows {a1} (h : Follows z s) :
    Follows z (quarantineBerth a1 s) := by
  unfold quarantineBerth
  try dsimp only
  repeat' first
    | (intro _)
    | fail_if_no_progress with_reducible refine Follows.put ?_ rfl
    | with_reducible assumption
    | with_reducible apply State.setBerth_follows
    | with_reducible apply Follows.ite

theorem releaseBerth_follows {a1} (h : Follows z s) :
    Follows z (releaseBerth a1 s) := by
  unfold releaseBerth
  try dsimp only
  repeat' first
    | (intro _)
    | fail_if_no_progress with_reducible refine Follows.put ?_ rfl
    | with_reducible assumption
    | with_reducible apply emptyBerth_follows
    | with_reducible apply Follows.ite

theorem fillBerth_follows {a1} {a2} {a3} {a4} {a5} {a6} {a7} (h : Follows z s) :
    FollowsP z (fillBerth a1 a2 a3 a4 a5 a6 a7 s) := by
  unfold fillBerth
  try dsimp only
  repeat' first
    | (intro _)
    | fail_if_no_progress with_reducible refine Follows.put ?_ rfl
    | with_reducible assumption
    | with_reducible apply writeBerth_follows

end Sys2Proof.Machine
end

