-- ==== Sys2Proof/Laws/FollowsBwaterOps.lean ====
section
/-! SUPPORT. The operations of Machine/BwaterOps.lean follow. -/

namespace Sys2Proof.Machine

variable {z s : State}

theorem State.setBwReg_follows {a1} {a2} {a3} (h : Follows z s) :
    Follows z (State.setBwReg s a1 a2 a3) := by
  unfold State.setBwReg
  try dsimp only
  repeat' first
    | (intro _)
    | fail_if_no_progress with_reducible refine Follows.put ?_ rfl
    | with_reducible assumption

theorem bwSample_follows {a1} {a2} (h : Follows z s) :
    Follows z (bwSample a1 a2 s) := by
  unfold bwSample
  try dsimp only
  repeat' first
    | (intro _)
    | fail_if_no_progress with_reducible refine Follows.put ?_ rfl
    | with_reducible assumption
    | with_reducible apply State.setBwReg_follows
    | with_reducible apply bumpIf_follows
    | with_reducible apply Follows.ite
    | with_reducible apply Follows.fold
    | split

theorem bwCharge_follows {a1} {a2} (h : Follows z s) :
    Follows z (bwCharge a1 a2 s) := by
  unfold bwCharge
  try dsimp only
  repeat' first
    | (intro _)
    | fail_if_no_progress with_reducible refine Follows.put ?_ rfl
    | with_reducible assumption
    | with_reducible apply State.setBwReg_follows
    | with_reducible apply bumpBy_follows
    | with_reducible apply Follows.ite

theorem bwCommit_follows (h : Follows z s) :
    Follows z (bwCommit s) := by
  unfold bwCommit
  try dsimp only
  repeat' first
    | (intro _)
    | fail_if_no_progress with_reducible refine Follows.put ?_ rfl
    | with_reducible assumption
    | with_reducible apply State.setBwReg_follows
    | with_reducible apply Follows.ite
    | with_reducible apply Follows.fold

end Sys2Proof.Machine
end

