-- ==== Sys2Proof/Laws/FollowsLichenOps.lean ====
section
/-! SUPPORT. The operations of Machine/LichenOps.lean follow. -/

namespace Sys2Proof.Machine

variable {z s : State}

theorem ctrLookup_follows {a1} {a2} (h : Follows z s) :
    FollowsP z (ctrLookup a1 a2 s) := by
  unfold ctrLookup
  try dsimp only
  repeat' first
    | (intro _)
    | fail_if_no_progress with_reducible refine Follows.put ?_ rfl
    | with_reducible assumption
    | with_reducible apply bump_follows
    | with_reducible apply bumpBy_follows
    | with_reducible apply State.setEng_follows
    | with_reducible apply Follows.ite
    | with_reducible apply Follows.fold
    | with_reducible apply FollowsP.ite
    | with_reducible apply FollowsP.mk

theorem ctrNeed_follows {a1} {a2} (h : Follows z s) :
    Follows z (ctrNeed a1 a2 s) := by
  unfold ctrNeed
  try dsimp only
  repeat' first
    | (intro _)
    | fail_if_no_progress with_reducible refine Follows.put ?_ rfl
    | with_reducible assumption
    | with_reducible apply State.setEng_follows
    | with_reducible apply Follows.ite

theorem ctrInstall_follows {a1} {a2} {a3} {a4} (h : Follows z s) :
    Follows z (ctrInstall a1 a2 a3 a4 s) := by
  unfold ctrInstall
  try dsimp only
  repeat' first
    | (intro _)
    | fail_if_no_progress with_reducible refine Follows.put ?_ rfl
    | with_reducible assumption
    | with_reducible apply State.setEng_follows

theorem ctrSet_follows {a1} {a2} {a3} (h : Follows z s) :
    Follows z (ctrSet a1 a2 a3 s) := by
  unfold ctrSet
  try dsimp only
  repeat' first
    | (intro _)
    | fail_if_no_progress with_reducible refine Follows.put ?_ rfl
    | with_reducible assumption
    | with_reducible apply State.updEng_follows

theorem putLine_follows {a1} {a2} (h : Follows z s) :
    Follows z (putLine a1 a2 s) := by
  unfold putLine
  try dsimp only
  repeat' first
    | (intro _)
    | fail_if_no_progress with_reducible refine Follows.put ?_ rfl
    | with_reducible assumption
    | with_reducible apply State.updEng_follows

theorem lineEvent_follows {a1} {a2} {a3} {a4} (h : Follows z s) :
    Follows z (lineEvent a1 a2 a3 a4 s) := by
  unfold lineEvent
  try dsimp only
  repeat' first
    | (intro _)
    | fail_if_no_progress with_reducible refine Follows.put ?_ rfl
    | with_reducible assumption
    | with_reducible apply raiseBoth_follows

theorem poisonCount_follows {a1} {a2} (h : Follows z s) :
    Follows z (poisonCount a1 a2 s) := by
  unfold poisonCount
  try dsimp only
  repeat' first
    | (intro _)
    | fail_if_no_progress with_reducible refine Follows.put ?_ rfl
    | with_reducible assumption
    | with_reducible apply State.updEng_follows

theorem noteFail_follows {a1} {a2} {a3} (h : Follows z s) :
    Follows z (noteFail a1 a2 a3 s) := by
  unfold noteFail
  try dsimp only
  repeat' first
    | (intro _)
    | fail_if_no_progress with_reducible refine Follows.put ?_ rfl
    | with_reducible assumption
    | with_reducible apply bumpTen_follows
    | with_reducible apply bumpIf_follows
    | with_reducible apply State.updEng_follows
    | with_reducible apply Follows.ite

theorem noteLine_follows {a1} {a2} (h : Follows z s) :
    Follows z (noteLine a1 a2 s) := by
  unfold noteLine
  try dsimp only
  repeat' first
    | (intro _)
    | fail_if_no_progress with_reducible refine Follows.put ?_ rfl
    | with_reducible assumption
    | with_reducible apply bumpTen_follows
    | with_reducible apply bumpIf_follows
    | with_reducible apply bump_follows
    | with_reducible apply Follows.ite
    | with_reducible apply Follows.fold
    | split

theorem flushJob_follows {a1} {a2} {a3} {a4} (h : Follows z s) :
    FollowsP z (flushJob a1 a2 a3 a4 s) := by
  induction a3 generalizing s a4 with
  | zero =>
    unfold flushJob
    try dsimp only
    repeat' first
      | (intro _)
      | fail_if_no_progress with_reducible refine Follows.put ?_ rfl
      | with_reducible assumption
      | with_reducible apply bwSample_follows
      | with_reducible apply beat_follows
      | with_reducible apply emit_follows
      | with_reducible apply Follows.ite
      | with_reducible apply Follows.fold
      | with_reducible apply FollowsP.ite
      | with_reducible apply FollowsP.mk
  | succ n ih =>
    unfold flushJob
    try dsimp only
    repeat' first
      | (intro _)
      | fail_if_no_progress with_reducible refine Follows.put ?_ rfl
      | with_reducible apply ih
      | with_reducible refine FollowsP.snd (ih ?_)
      | with_reducible assumption
      | with_reducible apply bwSample_follows
      | with_reducible apply beat_follows
      | with_reducible apply emit_follows
      | with_reducible apply Follows.ite
      | with_reducible apply Follows.fold
      | with_reducible apply FollowsP.ite
      | with_reducible apply FollowsP.mk
      | split

theorem flushJobs_follows {a1} {a2} {a3} {a4} {a5} (h : Follows z s) :
    FollowsP z (flushJobs a1 a2 a3 a4 a5 s) := by
  induction a3 generalizing s a4 a5 with
  | nil =>
    unfold flushJobs
    try dsimp only
    repeat' first
      | (intro _)
      | fail_if_no_progress with_reducible refine Follows.put ?_ rfl
      | with_reducible assumption
      | with_reducible apply flushJob_follows
      | with_reducible apply Follows.ite
      | with_reducible apply Follows.fold
      | with_reducible apply FollowsP.ite
      | with_reducible apply FollowsP.mk
  | cons x l ih =>
    unfold flushJobs
    try dsimp only
    repeat' first
      | (intro _)
      | fail_if_no_progress with_reducible refine Follows.put ?_ rfl
      | with_reducible apply ih
      | with_reducible refine FollowsP.snd (ih ?_)
      | with_reducible assumption
      | with_reducible apply flushJob_follows
      | with_reducible apply Follows.ite
      | with_reducible apply Follows.fold
      | with_reducible apply FollowsP.ite
      | with_reducible apply FollowsP.mk
      | with_reducible refine FollowsP.snd (flushJob_follows ?_)

theorem flushLane_follows {a1} {a2} (h : Follows z s) :
    Follows z (flushLane a1 a2 s) := by
  unfold flushLane
  try dsimp only
  repeat' first
    | (intro _)
    | fail_if_no_progress with_reducible refine Follows.put ?_ rfl
    | with_reducible assumption
    | with_reducible apply flushJobs_follows
    | with_reducible apply State.updEng_follows
    | with_reducible apply Follows.ite
    | with_reducible apply Follows.fold
    | with_reducible apply FollowsP.ite
    | with_reducible apply FollowsP.mk
    | with_reducible refine FollowsP.snd (flushJobs_follows ?_)

theorem deliver_follows {a1} {a2} {a3} {a4} {a5} (h : Follows z s) :
    Follows z (deliver a1 a2 a3 a4 a5 s) := by
  unfold deliver
  try dsimp only
  repeat' first
    | (intro _)
    | fail_if_no_progress with_reducible refine Follows.put ?_ rfl
    | with_reducible assumption
    | with_reducible apply flushLane_follows
    | with_reducible apply bwSample_follows
    | with_reducible apply markLost_follows
    | with_reducible apply beat_follows
    | with_reducible apply State.updEng_follows
    | with_reducible apply Follows.ite
    | with_reducible apply Follows.fold
    | split

theorem removeLine_follows {a1} {a2} (h : Follows z s) :
    Follows z (removeLine a1 a2 s) := by
  unfold removeLine
  try dsimp only
  repeat' first
    | (intro _)
    | fail_if_no_progress with_reducible refine Follows.put ?_ rfl
    | with_reducible assumption
    | with_reducible apply State.updEng_follows

theorem endLine_follows {a1} {a2} {a3} {a4} {a5} (h : Follows z s) :
    Follows z (endLine a1 a2 a3 a4 a5 s) := by
  unfold endLine
  try dsimp only
  repeat' first
    | (intro _)
    | fail_if_no_progress with_reducible refine Follows.put ?_ rfl
    | with_reducible assumption
    | with_reducible apply removeLine_follows
    | with_reducible apply deliver_follows
    | with_reducible apply noteLine_follows
    | with_reducible apply noteFail_follows

theorem readFailed_follows {a1} {a2} (h : Follows z s) :
    Follows z (readFailed a1 a2 s) := by
  unfold readFailed
  try dsimp only
  repeat' first
    | (intro _)
    | fail_if_no_progress with_reducible refine Follows.put ?_ rfl
    | with_reducible assumption
    | with_reducible apply lineEvent_follows
    | with_reducible apply bump_follows
    | with_reducible apply State.updEng_follows
    | with_reducible apply Follows.ite
    | with_reducible apply Follows.fold
    | split

theorem endRead_follows {a1} {a2} {a3} {a4} (h : Follows z s) :
    Follows z (endRead a1 a2 a3 a4 s) := by
  unfold endRead
  try dsimp only
  repeat' first
    | (intro _)
    | fail_if_no_progress with_reducible refine Follows.put ?_ rfl
    | with_reducible assumption
    | with_reducible apply readFailed_follows
    | with_reducible apply endLine_follows
    | with_reducible apply Follows.ite
    | with_reducible apply Follows.fold

theorem endWrite_follows {a1} {a2} {a3} (h : Follows z s) :
    Follows z (endWrite a1 a2 a3 s) := by
  unfold endWrite
  try dsimp only
  repeat' first
    | (intro _)
    | fail_if_no_progress with_reducible refine Follows.put ?_ rfl
    | with_reducible assumption
    | with_reducible apply endLine_follows
    | with_reducible apply Follows.ite
    | with_reducible apply Follows.fold

theorem endTurn_follows {a1} {a2} {a3} (h : Follows z s) :
    Follows z (endTurn a1 a2 a3 s) := by
  unfold endTurn
  try dsimp only
  repeat' first
    | (intro _)
    | fail_if_no_progress with_reducible refine Follows.put ?_ rfl
    | with_reducible assumption
    | with_reducible apply endLine_follows
    | with_reducible apply State.updEng_follows

theorem exhaustLine_follows {a1} {a2} (h : Follows z s) :
    Follows z (exhaustLine a1 a2 s) := by
  unfold exhaustLine
  try dsimp only
  repeat' first
    | (intro _)
    | fail_if_no_progress with_reducible refine Follows.put ?_ rfl
    | with_reducible assumption
    | with_reducible apply poisonCount_follows
    | with_reducible apply lineEvent_follows
    | with_reducible apply ctrSet_follows

theorem tagEdit_follows {a1} {a2} {a3} {a4} {a5} (h : Follows z s) :
    Follows z (tagEdit a1 a2 a3 a4 a5 s) := by
  unfold tagEdit
  try dsimp only
  repeat' first
    | (intro _)
    | fail_if_no_progress with_reducible refine Follows.put ?_ rfl
    | with_reducible assumption
    | with_reducible apply State.updEng_follows

theorem poisonLine_follows {a1} {a2} {a3} {a4} (h : Follows z s) :
    Follows z (poisonLine a1 a2 a3 a4 s) := by
  unfold poisonLine
  try dsimp only
  repeat' first
    | (intro _)
    | fail_if_no_progress with_reducible refine Follows.put ?_ rfl
    | with_reducible assumption
    | with_reducible apply tagEdit_follows
    | with_reducible apply poisonCount_follows
    | with_reducible apply lineEvent_follows
    | with_reducible apply putLine_follows
    | with_reducible apply ctrSet_follows
    | with_reducible apply State.setEng_follows
    | with_reducible apply Follows.ite

theorem readDue_follows {a1} {a2} (h : Follows z s) :
    Follows z (readDue a1 a2 s) := by
  unfold readDue
  try dsimp only
  repeat' first
    | (intro _)
    | fail_if_no_progress with_reducible refine Follows.put ?_ rfl
    | with_reducible assumption
    | with_reducible apply State.setEng_follows
    | with_reducible apply Follows.ite

theorem dropReads_follows {a1} {a2} (h : Follows z s) :
    Follows z (dropReads a1 a2 s) := by
  unfold dropReads
  try dsimp only
  repeat' first
    | (intro _)
    | fail_if_no_progress with_reducible refine Follows.put ?_ rfl
    | with_reducible assumption
    | with_reducible apply State.updEng_follows

theorem writeDue_follows {a1} {a2} (h : Follows z s) :
    Follows z (writeDue a1 a2 s) := by
  unfold writeDue
  try dsimp only
  repeat' first
    | (intro _)
    | fail_if_no_progress with_reducible refine Follows.put ?_ rfl
    | with_reducible assumption
    | with_reducible apply putLine_follows
    | with_reducible apply State.updEng_follows

theorem writeAfter_follows {a1} {a2} {a3} (h : Follows z s) :
    Follows z (writeAfter a1 a2 a3 s) := by
  unfold writeAfter
  try dsimp only
  repeat' first
    | (intro _)
    | fail_if_no_progress with_reducible refine Follows.put ?_ rfl
    | with_reducible assumption
    | with_reducible apply writeDue_follows
    | with_reducible apply exhaustLine_follows
    | with_reducible apply endWrite_follows
    | with_reducible apply Follows.ite

theorem mergeEntry_follows {a1} {a2} (h : Follows z s) :
    Follows z (mergeEntry a1 a2 s) := by
  unfold mergeEntry
  try dsimp only
  repeat' first
    | (intro _)
    | fail_if_no_progress with_reducible refine Follows.put ?_ rfl
    | with_reducible assumption
    | with_reducible apply writeAfter_follows
    | with_reducible apply endWrite_follows
    | with_reducible apply putLine_follows
    | with_reducible apply Follows.ite
    | with_reducible apply Follows.fold
    | split

theorem earlyBeat_follows {a1} {a2} (h : Follows z s) :
    FollowsO z (earlyBeat a1 a2 s) := by
  unfold earlyBeat
  try dsimp only
  repeat' first
    | (intro _)
    | fail_if_no_progress with_reducible refine Follows.put ?_ rfl
    | with_reducible assumption
    | with_reducible apply dropReads_follows
    | with_reducible apply endLine_follows
    | with_reducible apply putLine_follows
    | with_reducible apply State.updEng_follows
    | with_reducible apply Follows.ite
    | with_reducible apply Follows.fold
    | with_reducible exact FollowsO.none
    | with_reducible apply FollowsO.some
    | with_reducible apply FollowsO.getD
    | with_reducible apply FollowsO.orElse
    | with_reducible apply FollowsO.map
    | split

theorem progressFull_follows {a1} {a2} (h : Follows z s) :
    Follows z (progressFull a1 a2 s) := by
  unfold progressFull
  try dsimp only
  repeat' first
    | (intro _)
    | fail_if_no_progress with_reducible refine Follows.put ?_ rfl
    | with_reducible assumption
    | with_reducible apply writeAfter_follows
    | with_reducible apply endWrite_follows
    | with_reducible apply putLine_follows
    | with_reducible apply State.setEng_follows
    | with_reducible apply Follows.ite
    | with_reducible apply Follows.fold
    | split

theorem recordRead_follows {a1} {a2} {a3} {a4} (h : Follows z s) :
    Follows z (recordRead a1 a2 a3 a4 s) := by
  unfold recordRead
  try dsimp only
  repeat' first
    | (intro _)
    | fail_if_no_progress with_reducible refine Follows.put ?_ rfl
    | with_reducible assumption
    | with_reducible apply writeDue_follows
    | with_reducible apply exhaustLine_follows
    | with_reducible apply endWrite_follows
    | with_reducible apply Follows.ite

theorem progressPart_follows {a1} {a2} (h : Follows z s) :
    Follows z (progressPart a1 a2 s) := by
  unfold progressPart
  try dsimp only
  repeat' first
    | (intro _)
    | fail_if_no_progress with_reducible refine Follows.put ?_ rfl
    | with_reducible assumption
    | with_reducible apply mergeEntry_follows
    | with_reducible apply dropReads_follows
    | with_reducible apply poisonLine_follows
    | with_reducible apply endWrite_follows
    | with_reducible apply lineEvent_follows
    | with_reducible apply putLine_follows
    | with_reducible apply bump_follows
    | with_reducible apply Follows.ite
    | with_reducible apply Follows.fold
    | split

theorem progressRead_follows {a1} {a2} (h : Follows z s) :
    Follows z (progressRead a1 a2 s) := by
  unfold progressRead
  try dsimp only
  repeat' first
    | (intro _)
    | fail_if_no_progress with_reducible refine Follows.put ?_ rfl
    | with_reducible assumption
    | with_reducible apply endRead_follows
    | with_reducible apply Follows.ite
    | with_reducible apply Follows.fold
    | split

theorem progressRekey_follows {a1} {a2} (h : Follows z s) :
    Follows z (progressRekey a1 a2 s) := by
  unfold progressRekey
  try dsimp only
  repeat' first
    | (intro _)
    | fail_if_no_progress with_reducible refine Follows.put ?_ rfl
    | with_reducible assumption
    | with_reducible apply writeDue_follows
    | with_reducible apply readDue_follows
    | with_reducible apply poisonLine_follows
    | with_reducible apply endTurn_follows
    | with_reducible apply lineEvent_follows
    | with_reducible apply ctrSet_follows
    | with_reducible apply bump_follows
    | with_reducible apply State.updEng_follows
    | with_reducible apply Follows.ite
    | with_reducible apply Follows.fold
    | split

theorem progressScrub_follows {a1} {a2} (h : Follows z s) :
    Follows z (progressScrub a1 a2 s) := by
  unfold progressScrub
  try dsimp only
  repeat' first
    | (intro _)
    | fail_if_no_progress with_reducible refine Follows.put ?_ rfl
    | with_reducible assumption
    | with_reducible apply writeDue_follows
    | with_reducible apply Follows.ite
    | with_reducible apply Follows.fold
    | split

theorem progress_follows {a1} {a2} (h : Follows z s) :
    Follows z (progress a1 a2 s) := by
  unfold progress
  try dsimp only
  repeat' first
    | (intro _)
    | fail_if_no_progress with_reducible refine Follows.put ?_ rfl
    | with_reducible assumption
    | with_reducible apply progressScrub_follows
    | with_reducible apply progressRekey_follows
    | with_reducible apply progressRead_follows
    | with_reducible apply progressPart_follows
    | with_reducible apply progressFull_follows
    | with_reducible apply earlyBeat_follows
    | with_reducible apply writeDue_follows
    | with_reducible apply Follows.ite
    | with_reducible apply Follows.fold
    | with_reducible exact FollowsO.none
    | with_reducible apply FollowsO.some
    | with_reducible apply FollowsO.getD
    | with_reducible apply FollowsO.orElse
    | with_reducible apply FollowsO.map
    | split
    | refine FollowsO.eq (by assumption) ?_

theorem beginSeal_follows {a1} {a2} (h : Follows z s) :
    Follows z (beginSeal a1 a2 s) := by
  unfold beginSeal
  try dsimp only
  repeat' first
    | (intro _)
    | fail_if_no_progress with_reducible refine Follows.put ?_ rfl
    | with_reducible assumption
    | with_reducible apply writeDue_follows
    | with_reducible apply endWrite_follows
    | with_reducible apply Follows.ite
    | with_reducible apply Follows.fold
    | split

theorem beginLine_follows {a1} {a2} (h : Follows z s) :
    Follows z (beginLine a1 a2 s) := by
  unfold beginLine
  try dsimp only
  repeat' first
    | (intro _)
    | fail_if_no_progress with_reducible refine Follows.put ?_ rfl
    | with_reducible assumption
    | with_reducible apply beginSeal_follows
    | with_reducible apply progress_follows
    | with_reducible apply readDue_follows
    | with_reducible apply endRead_follows
    | with_reducible apply putLine_follows
    | with_reducible apply ctrLookup_follows
    | with_reducible apply Follows.ite
    | with_reducible apply Follows.fold
    | with_reducible apply FollowsP.ite
    | with_reducible apply FollowsP.mk
    | with_reducible refine FollowsP.snd (ctrLookup_follows ?_)
    | split

theorem startLine_follows {a1} {a2} (h : Follows z s) :
    Follows z (startLine a1 a2 s) := by
  unfold startLine
  try dsimp only
  repeat' first
    | (intro _)
    | fail_if_no_progress with_reducible refine Follows.put ?_ rfl
    | with_reducible assumption
    | with_reducible apply beginLine_follows
    | with_reducible apply putLine_follows
    | with_reducible apply Follows.ite
    | with_reducible apply Follows.fold
    | split

theorem stepLine_follows {a1} {a2} (h : Follows z s) :
    Follows z (stepLine a1 a2 s) := by
  unfold stepLine
  try dsimp only
  repeat' first
    | (intro _)
    | fail_if_no_progress with_reducible refine Follows.put ?_ rfl
    | with_reducible assumption
    | with_reducible apply startLine_follows
    | with_reducible apply progress_follows
    | with_reducible apply mergeEntry_follows
    | with_reducible apply putLine_follows
    | with_reducible apply ctrNeed_follows
    | with_reducible apply Follows.ite
    | with_reducible apply Follows.fold
    | split

theorem engineDue_follows {a1} (h : Follows z s) :
    Follows z (engineDue a1 s) := by
  unfold engineDue
  try dsimp only
  repeat' first
    | (intro _)
    | fail_if_no_progress with_reducible refine Follows.put ?_ rfl
    | with_reducible assumption
    | with_reducible apply State.setEng_follows

theorem advance_follows {a1} (h : Follows z s) :
    Follows z (advance a1 s) := by
  unfold advance
  try dsimp only
  repeat' first
    | (intro _)
    | fail_if_no_progress with_reducible refine Follows.put ?_ rfl
    | with_reducible assumption
    | with_reducible apply engineDue_follows
    | with_reducible apply stepLine_follows
    | with_reducible apply Follows.ite
    | with_reducible apply Follows.fold

theorem keyTouch_follows {a1} {a2} {a3} (h : Follows z s) :
    Follows z (keyTouch a1 a2 a3 s) := by
  unfold keyTouch
  try dsimp only
  repeat' first
    | (intro _)
    | fail_if_no_progress with_reducible refine Follows.put ?_ rfl
    | with_reducible assumption
    | with_reducible apply State.updEng_follows

theorem keyCheck_follows {a1} {a2} {a3} (h : Follows z s) :
    FollowsP3 z (keyCheck a1 a2 a3 s) := by
  unfold keyCheck
  try dsimp only
  repeat' first
    | (intro _)
    | fail_if_no_progress with_reducible refine Follows.put ?_ rfl
    | with_reducible assumption
    | with_reducible apply keyTouch_follows
    | with_reducible apply berthLoad_follows
    | with_reducible apply bumpIf_follows
    | with_reducible apply Follows.ite
    | with_reducible apply Follows.fold
    | with_reducible apply FollowsP3.mk
    | with_reducible refine FollowsP2.snd (berthLoad_follows ?_)
    | split

theorem acceptLine_follows {a1} {a2} (h : Follows z s) :
    Follows z (acceptLine a1 a2 s) := by
  unfold acceptLine
  try dsimp only
  repeat' first
    | (intro _)
    | fail_if_no_progress with_reducible refine Follows.put ?_ rfl
    | with_reducible assumption
    | with_reducible apply State.setEng_follows
    | with_reducible apply Follows.ite
    | with_reducible apply Follows.fold
    | split

theorem submitLine_follows {a1} {a2} {a3} {a4} {a5} {a6} {a7} (h : Follows z s) :
    Follows z (submitLine a1 a2 a3 a4 a5 a6 a7 s) := by
  unfold submitLine
  try dsimp only
  repeat' first
    | (intro _)
    | fail_if_no_progress with_reducible refine Follows.put ?_ rfl
    | with_reducible assumption
    | with_reducible apply acceptLine_follows
    | with_reducible apply keyCheck_follows
    | with_reducible apply advance_follows
    | with_reducible apply State.fresh_follows
    | with_reducible apply Follows.ite
    | with_reducible apply Follows.fold
    | with_reducible apply FollowsP.ite
    | with_reducible apply FollowsP.mk
    | with_reducible refine FollowsP3.snd (keyCheck_follows ?_)
    | with_reducible refine FollowsP.snd (State.fresh_follows ?_)
    | split

theorem dataBack_follows {a1} {a2} {a3} {a4} {a5} (h : Follows z s) :
    Follows z (dataBack a1 a2 a3 a4 a5 s) := by
  unfold dataBack
  try dsimp only
  repeat' first
    | (intro _)
    | fail_if_no_progress with_reducible refine Follows.put ?_ rfl
    | with_reducible assumption
    | with_reducible apply recordRead_follows
    | with_reducible apply putLine_follows
    | with_reducible apply Follows.ite
    | with_reducible apply Follows.fold
    | split

theorem tagBack_follows {a1} {a2} {a3} {a4} (h : Follows z s) :
    Follows z (tagBack a1 a2 a3 a4 s) := by
  unfold tagBack
  try dsimp only
  repeat' first
    | (intro _)
    | fail_if_no_progress with_reducible refine Follows.put ?_ rfl
    | with_reducible assumption
    | with_reducible apply recordRead_follows
    | with_reducible apply putLine_follows
    | with_reducible apply Follows.ite
    | with_reducible apply Follows.fold
    | split

theorem writeEnded_follows {a1} {a2} (h : Follows z s) :
    Follows z (writeEnded a1 a2 s) := by
  unfold writeEnded
  try dsimp only
  repeat' first
    | (intro _)
    | fail_if_no_progress with_reducible refine Follows.put ?_ rfl
    | with_reducible assumption
    | with_reducible apply writeDue_follows
    | with_reducible apply poisonLine_follows
    | with_reducible apply endTurn_follows
    | with_reducible apply endWrite_follows
    | with_reducible apply lineEvent_follows
    | with_reducible apply State.updEng_follows
    | with_reducible apply Follows.ite
    | with_reducible apply Follows.fold
    | split

theorem partDone_follows {a1} {a2} {a3} {a4} (h : Follows z s) :
    Follows z (partDone a1 a2 a3 a4 s) := by
  unfold partDone
  try dsimp only
  repeat' first
    | (intro _)
    | fail_if_no_progress with_reducible refine Follows.put ?_ rfl
    | with_reducible assumption
    | with_reducible apply writeEnded_follows
    | with_reducible apply endTurn_follows
    | with_reducible apply endWrite_follows
    | with_reducible apply putLine_follows
    | with_reducible apply ctrSet_follows
    | with_reducible apply Follows.ite
    | with_reducible apply Follows.fold
    | split

theorem ctrBack_follows {a1} {a2} {a3} {a4} (h : Follows z s) :
    Follows z (ctrBack a1 a2 a3 a4 s) := by
  unfold ctrBack
  try dsimp only
  repeat' first
    | (intro _)
    | fail_if_no_progress with_reducible refine Follows.put ?_ rfl
    | with_reducible assumption
    | with_reducible apply poisonCount_follows
    | with_reducible apply ctrInstall_follows
    | with_reducible apply raiseOwner_follows
    | with_reducible apply Follows.ite

theorem wbBack_follows {a1} {a2} {a3} {a4} {a5} (h : Follows z s) :
    Follows z (wbBack a1 a2 a3 a4 a5 s) := by
  unfold wbBack
  try dsimp only
  repeat' first
    | (intro _)
    | fail_if_no_progress with_reducible refine Follows.put ?_ rfl
    | with_reducible assumption
    | with_reducible apply poisonCount_follows
    | with_reducible apply State.updEng_follows
    | with_reducible apply Follows.ite

theorem tagJobRead_follows {a1} {a2} {a3} (h : Follows z s) :
    Follows z (tagJobRead a1 a2 a3 s) := by
  unfold tagJobRead
  try dsimp only
  repeat' first
    | (intro _)
    | fail_if_no_progress with_reducible refine Follows.put ?_ rfl
    | with_reducible assumption
    | with_reducible apply State.updEng_follows

theorem tagJobWritten_follows {a1} {a2} {a3} (h : Follows z s) :
    Follows z (tagJobWritten a1 a2 a3 s) := by
  unfold tagJobWritten
  try dsimp only
  repeat' first
    | (intro _)
    | fail_if_no_progress with_reducible refine Follows.put ?_ rfl
    | with_reducible assumption
    | with_reducible apply partDone_follows
    | with_reducible apply State.updEng_follows
    | with_reducible apply Follows.ite
    | with_reducible apply Follows.fold

theorem noteWrite_follows {a1} {a2} (h : Follows z s) :
    Follows z (noteWrite a1 a2 s) := by
  unfold noteWrite
  try dsimp only
  repeat' first
    | (intro _)
    | fail_if_no_progress with_reducible refine Follows.put ?_ rfl
    | with_reducible assumption
    | with_reducible apply State.updEng_follows

theorem sealWrite_follows {a1} {a2} (h : Follows z s) :
    FollowsP2 z (sealWrite a1 a2 s) := by
  unfold sealWrite
  try dsimp only
  repeat' first
    | (intro _)
    | fail_if_no_progress with_reducible refine Follows.put ?_ rfl
    | with_reducible assumption
    | with_reducible apply tagEdit_follows
    | with_reducible apply putLine_follows
    | with_reducible apply ctrSet_follows
    | with_reducible apply bump_follows
    | with_reducible apply Follows.ite
    | with_reducible apply Follows.fold
    | with_reducible apply FollowsP2.mk
    | split

theorem issueData_follows {a1} {a2} (h : Follows z s) :
    FollowsP z (issueData a1 a2 s) := by
  unfold issueData
  try dsimp only
  repeat' first
    | (intro _)
    | fail_if_no_progress with_reducible refine Follows.put ?_ rfl
    | with_reducible assumption
    | with_reducible apply sealWrite_follows
    | with_reducible apply noteWrite_follows
    | with_reducible apply State.updEng_follows
    | with_reducible apply Follows.ite
    | with_reducible apply Follows.fold
    | with_reducible apply FollowsP.ite
    | with_reducible apply FollowsP.mk
    | with_reducible refine FollowsP2.snd (sealWrite_follows ?_)
    | split

theorem issueOn_follows {a1} {a2} {a3} (h : Follows z s) :
    Follows z (issueOn a1 a2 a3 s) := by
  unfold issueOn
  try dsimp only
  repeat' first
    | (intro _)
    | fail_if_no_progress with_reducible refine Follows.put ?_ rfl
    | with_reducible assumption
    | with_reducible apply issueData_follows
    | with_reducible apply bwCharge_follows
    | with_reducible apply emit_follows
    | with_reducible apply State.updEng_follows
    | with_reducible apply Follows.ite
    | with_reducible apply Follows.fold
    | with_reducible apply FollowsP.ite
    | with_reducible apply FollowsP.mk
    | with_reducible refine FollowsP.snd (issueData_follows ?_)

theorem issueLane_follows {a1} {a2} (h : Follows z s) :
    Follows z (issueLane a1 a2 s) := by
  unfold issueLane
  try dsimp only
  repeat' first
    | (intro _)
    | fail_if_no_progress with_reducible refine Follows.put ?_ rfl
    | with_reducible assumption
    | with_reducible apply issueOn_follows
    | with_reducible apply Follows.ite
    | with_reducible apply Follows.fold
    | split

theorem initDue_follows {a1} (h : Follows z s) :
    Follows z (initDue a1 s) := by
  unfold initDue
  try dsimp only
  repeat' first
    | (intro _)
    | fail_if_no_progress with_reducible refine Follows.put ?_ rfl
    | with_reducible assumption
    | with_reducible apply State.setEng_follows
    | with_reducible apply Follows.ite

theorem initBack_follows {a1} {a2} {a3} (h : Follows z s) :
    Follows z (initBack a1 a2 a3 s) := by
  unfold initBack
  try dsimp only
  repeat' first
    | (intro _)
    | fail_if_no_progress with_reducible refine Follows.put ?_ rfl
    | with_reducible assumption
    | with_reducible apply initDue_follows
    | with_reducible apply State.updEng_follows
    | with_reducible apply State.setEng_follows
    | with_reducible apply Follows.ite

theorem latePoisoned_follows {a1} (h : Follows z s) :
    Follows z (latePoisoned a1 s) := by
  unfold latePoisoned
  try dsimp only
  repeat' first
    | (intro _)
    | fail_if_no_progress with_reducible refine Follows.put ?_ rfl
    | with_reducible assumption
    | with_reducible apply endWrite_follows
    | with_reducible apply Follows.ite
    | with_reducible apply Follows.fold

end Sys2Proof.Machine
end

