-- ==== Sys2Proof/Laws/FollowsLichenPort.lean ====
section
/-! SUPPORT. The operations of Machine/LichenPort.lean follow. -/

namespace Sys2Proof.Machine

variable {z s : State}

theorem upCheck_follows {a1} {a2} (h : Follows z s) :
    FollowsP2 z (upCheck a1 a2 s) := by
  unfold upCheck
  try dsimp only
  repeat' first
    | (intro _)
    | fail_if_no_progress with_reducible refine Follows.put ?_ rfl
    | with_reducible assumption
    | with_reducible apply keyCheck_follows
    | with_reducible apply Follows.ite
    | with_reducible apply Follows.fold
    | with_reducible apply FollowsP2.mk
    | with_reducible refine FollowsP3.snd (keyCheck_follows ?_)
    | split

theorem updLane_follows {a1} {a2} {a3} (h : Follows z s) :
    Follows z (updLane a1 a2 a3 s) := by
  unfold updLane
  try dsimp only
  repeat' first
    | (intro _)
    | fail_if_no_progress with_reducible refine Follows.put ?_ rfl
    | with_reducible assumption
    | with_reducible apply State.updEng_follows

theorem failReq_follows {a1} {a2} {a3} {a4} {a5} (h : Follows z s) :
    Follows z (failReq a1 a2 a3 a4 a5 s) := by
  unfold failReq
  try dsimp only
  repeat' first
    | (intro _)
    | fail_if_no_progress with_reducible refine Follows.put ?_ rfl
    | with_reducible assumption
    | with_reducible apply updLane_follows
    | with_reducible apply flushLane_follows
    | with_reducible apply markLost_follows
    | with_reducible apply Follows.ite
    | with_reducible apply Follows.fold

theorem acceptReq_follows {a1} {a2} {a3} (h : Follows z s) :
    Follows z (acceptReq a1 a2 a3 s) := by
  unfold acceptReq
  try dsimp only
  repeat' first
    | (intro _)
    | fail_if_no_progress with_reducible refine Follows.put ?_ rfl
    | with_reducible assumption
    | with_reducible apply failReq_follows
    | with_reducible apply updLane_follows
    | with_reducible apply upCheck_follows
    | with_reducible apply acceptLine_follows
    | with_reducible apply advance_follows
    | with_reducible apply State.fresh_follows
    | with_reducible apply Follows.ite
    | with_reducible apply Follows.fold
    | with_reducible apply FollowsP.ite
    | with_reducible apply FollowsP.mk
    | with_reducible refine FollowsP2.snd (upCheck_follows ?_)
    | with_reducible refine FollowsP.snd (State.fresh_follows ?_)

theorem presentReq_follows {a1} {a2} {a3} (h : Follows z s) :
    Follows z (presentReq a1 a2 a3 s) := by
  unfold presentReq
  try dsimp only
  repeat' first
    | (intro _)
    | fail_if_no_progress with_reducible refine Follows.put ?_ rfl
    | with_reducible assumption
    | with_reducible apply acceptReq_follows
    | with_reducible apply updLane_follows
    | with_reducible apply Follows.ite

theorem admitHeld_follows {a1} (h : Follows z s) :
    Follows z (admitHeld a1 s) := by
  unfold admitHeld
  try dsimp only
  repeat' first
    | (intro _)
    | fail_if_no_progress with_reducible refine Follows.put ?_ rfl
    | with_reducible assumption
    | with_reducible apply acceptReq_follows
    | with_reducible apply updLane_follows
    | with_reducible apply Follows.ite
    | with_reducible apply Follows.fold
    | split

theorem upstreamRequest_follows {a1} {a2} {a3} (h : Follows z s) :
    Follows z (upstreamRequest a1 a2 a3 s) := by
  unfold upstreamRequest
  try dsimp only
  repeat' first
    | (intro _)
    | fail_if_no_progress with_reducible refine Follows.put ?_ rfl
    | with_reducible assumption
    | with_reducible apply presentReq_follows
    | with_reducible apply Follows.ite

theorem requestWithdrawal_follows {a1} {a2} {a3} (h : Follows z s) :
    Follows z (requestWithdrawal a1 a2 a3 s) := by
  unfold requestWithdrawal
  try dsimp only
  repeat' first
    | (intro _)
    | fail_if_no_progress with_reducible refine Follows.put ?_ rfl
    | with_reducible assumption
    | with_reducible apply presentReq_follows
    | with_reducible apply updLane_follows
    | with_reducible apply Follows.ite

theorem writeDataBeat_follows {a1} {a2} {a3} {a4} (h : Follows z s) :
    Follows z (writeDataBeat a1 a2 a3 a4 s) := by
  unfold writeDataBeat
  try dsimp only
  repeat' first
    | (intro _)
    | fail_if_no_progress with_reducible refine Follows.put ?_ rfl
    | with_reducible assumption
    | with_reducible apply updLane_follows
    | with_reducible apply advance_follows
    | with_reducible apply putLine_follows
    | with_reducible apply Follows.ite
    | with_reducible apply Follows.fold
    | split

theorem chainHandoff_follows {a1} {a2} (h : Follows z s) :
    Follows z (chainHandoff a1 a2 s) := by
  unfold chainHandoff
  try dsimp only
  repeat' first
    | (intro _)
    | fail_if_no_progress with_reducible refine Follows.put ?_ rfl
    | with_reducible assumption
    | with_reducible apply advance_follows
    | with_reducible apply mergeEntry_follows
    | with_reducible apply putLine_follows
    | with_reducible apply bump_follows
    | with_reducible apply Follows.ite
    | with_reducible apply Follows.fold
    | split

theorem lateResponse_follows {a1} {a2} (h : Follows z s) :
    Follows z (lateResponse a1 a2 s) := by
  unfold lateResponse
  try dsimp only
  repeat' first
    | (intro _)
    | fail_if_no_progress with_reducible refine Follows.put ?_ rfl
    | with_reducible assumption
    | with_reducible apply bump_follows
    | with_reducible apply State.updEng_follows
    | with_reducible apply Follows.ite

theorem readResponse_follows {a1} {a2} {a3} {a4} {a5} (h : Follows z s) :
    Follows z (readResponse a1 a2 a3 a4 a5 s) := by
  unfold readResponse
  try dsimp only
  repeat' first
    | (intro _)
    | fail_if_no_progress with_reducible refine Follows.put ?_ rfl
    | with_reducible assumption
    | with_reducible apply lateResponse_follows
    | with_reducible apply tagJobRead_follows
    | with_reducible apply ctrBack_follows
    | with_reducible apply tagBack_follows
    | with_reducible apply dataBack_follows
    | with_reducible apply advance_follows
    | with_reducible apply State.setEng_follows
    | with_reducible apply Follows.ite
    | with_reducible apply Follows.fold
    | split

theorem writeComplete_follows {a1} {a2} {a3} (h : Follows z s) :
    Follows z (writeComplete a1 a2 a3 s) := by
  unfold writeComplete
  try dsimp only
  repeat' first
    | (intro _)
    | fail_if_no_progress with_reducible refine Follows.put ?_ rfl
    | with_reducible assumption
    | with_reducible apply lateResponse_follows
    | with_reducible apply initBack_follows
    | with_reducible apply tagJobWritten_follows
    | with_reducible apply wbBack_follows
    | with_reducible apply partDone_follows
    | with_reducible apply advance_follows
    | with_reducible apply bumpIf_follows
    | with_reducible apply State.setEng_follows
    | with_reducible apply Follows.ite
    | with_reducible apply Follows.fold
    | split

theorem licInit_follows {a1} (h : Follows z s) :
    Follows z (licInit a1 s) := by
  unfold licInit
  try dsimp only
  repeat' first
    | (intro _)
    | fail_if_no_progress with_reducible refine Follows.put ?_ rfl
    | with_reducible assumption
    | with_reducible apply initDue_follows
    | with_reducible apply State.setEng_follows
    | with_reducible apply Follows.ite

theorem licFlush_follows {a1} (h : Follows z s) :
    Follows z (licFlush a1 s) := by
  unfold licFlush
  try dsimp only
  repeat' first
    | (intro _)
    | fail_if_no_progress with_reducible refine Follows.put ?_ rfl
    | with_reducible assumption
    | with_reducible apply State.setEng_follows

theorem updFrz_follows {a1} {a2} (h : Follows z s) :
    Follows z (updFrz a1 a2 s) := by
  unfold updFrz
  try dsimp only
  repeat' first
    | (intro _)
    | fail_if_no_progress with_reducible refine Follows.put ?_ rfl
    | with_reducible assumption
    | with_reducible apply State.updEng_follows
    | with_reducible apply Follows.ite
    | with_reducible apply Follows.fold

theorem frzEnter_follows {a1} {a2} (h : Follows z s) :
    Follows z (frzEnter a1 a2 s) := by
  unfold frzEnter
  try dsimp only
  repeat' first
    | (intro _)
    | fail_if_no_progress with_reducible refine Follows.put ?_ rfl
    | with_reducible assumption
    | with_reducible apply updFrz_follows

theorem frzWrite_follows {a1} {a2} (h : Follows z s) :
    FollowsP z (frzWrite a1 a2 s) := by
  unfold frzWrite
  try dsimp only
  repeat' first
    | (intro _)
    | fail_if_no_progress with_reducible refine Follows.put ?_ rfl
    | with_reducible assumption
    | with_reducible apply frzEnter_follows
    | with_reducible apply readBackFails_follows
    | with_reducible apply auditLog_follows
    | with_reducible apply permFault_follows
    | with_reducible apply Follows.ite
    | with_reducible apply Follows.fold
    | with_reducible apply FollowsP.ite
    | with_reducible apply FollowsP.mk
    | with_reducible refine FollowsP.snd (readBackFails_follows ?_)

end Sys2Proof.Machine
end

