-- ==== Sys2Proof/Laws/FollowsEvents.lean ====
section
/-! SUPPORT. The operations of Machine/Events.lean follow. -/

namespace Sys2Proof.Machine

variable {z s : State}

theorem msiWrite_follows {a1} (h : Follows z s) :
    Follows z (msiWrite a1 s) := by
  unfold msiWrite
  try dsimp only
  repeat' first
    | (intro _)
    | fail_if_no_progress with_reducible refine Follows.put ?_ rfl
    | with_reducible assumption
    | with_reducible apply bump_follows
    | with_reducible apply emit_follows
    | with_reducible apply Follows.ite
    | with_reducible apply Follows.fold
    | split

theorem writeRecord_follows {a1} (h : Follows z s) :
    Follows z (writeRecord a1 s) := by
  unfold writeRecord
  try dsimp only
  repeat' first
    | (intro _)
    | fail_if_no_progress with_reducible refine Follows.put ?_ rfl
    | with_reducible assumption
    | with_reducible apply msiWrite_follows
    | with_reducible apply beat_follows
    | with_reducible apply bump_follows
    | with_reducible apply emit_follows
    | with_reducible apply State.setEq_follows
    | with_reducible apply Follows.ite
    | with_reducible apply Follows.fold
    | split

theorem eventRecordIssue_follows (h : Follows z s) :
    Follows z (eventRecordIssue s) := by
  unfold eventRecordIssue
  try dsimp only
  repeat' first
    | (intro _)
    | fail_if_no_progress with_reducible refine Follows.put ?_ rfl
    | with_reducible assumption
    | with_reducible apply writeRecord_follows
    | with_reducible apply Follows.ite
    | with_reducible apply Follows.fold
    | split

theorem headWrite_follows {a1} {a2} {a3} (h : Follows z s) :
    Follows z (headWrite a1 a2 a3 s) := by
  unfold headWrite
  try dsimp only
  repeat' first
    | (intro _)
    | fail_if_no_progress with_reducible refine Follows.put ?_ rfl
    | with_reducible assumption
    | with_reducible apply permFault_follows
    | with_reducible apply State.setEq_follows
    | with_reducible apply Follows.ite

theorem eqCtrlWrite_follows {a1} {a2} {a3} (h : Follows z s) :
    Follows z (eqCtrlWrite a1 a2 a3 s) := by
  unfold eqCtrlWrite
  try dsimp only
  repeat' first
    | (intro _)
    | fail_if_no_progress with_reducible refine Follows.put ?_ rfl
    | with_reducible assumption
    | with_reducible apply permFault_follows
    | with_reducible apply State.setEq_follows
    | with_reducible apply Follows.ite

theorem eqHeadWrite_follows {a1} {a2} {a3} (h : Follows z s) :
    Follows z (eqHeadWrite a1 a2 a3 s) := by
  unfold eqHeadWrite
  try dsimp only
  repeat' first
    | (intro _)
    | fail_if_no_progress with_reducible refine Follows.put ?_ rfl
    | with_reducible assumption
    | with_reducible apply headWrite_follows
    | with_reducible apply regGuard_follows

theorem eqEnable_follows {a1} {a2} {a3} (h : Follows z s) :
    Follows z (eqEnable a1 a2 a3 s) := by
  unfold eqEnable
  try dsimp only
  repeat' first
    | (intro _)
    | fail_if_no_progress with_reducible refine Follows.put ?_ rfl
    | with_reducible assumption
    | with_reducible apply eqCtrlWrite_follows
    | with_reducible apply regGuard_follows

theorem coalTimeExpiry_follows {a1} (h : Follows z s) :
    Follows z (coalTimeExpiry a1 s) := by
  unfold coalTimeExpiry
  try dsimp only
  repeat' first
    | (intro _)
    | fail_if_no_progress with_reducible refine Follows.put ?_ rfl
    | with_reducible assumption
    | with_reducible apply State.setEq_follows
    | with_reducible apply Follows.ite

theorem doorbell_follows {a1} {a2} {a3} (h : Follows z s) :
    Follows z (doorbell a1 a2 a3 s) := by
  unfold doorbell
  try dsimp only
  repeat' first
    | (intro _)
    | fail_if_no_progress with_reducible refine Follows.put ?_ rfl
    | with_reducible assumption
    | with_reducible apply putRecord_follows
    | with_reducible apply bump_follows
    | with_reducible apply Follows.ite
    | with_reducible apply Follows.fold
    | split

theorem swDb_follows {a1} {a2} (h : Follows z s) :
    Follows z (swDb a1 a2 s) := by
  unfold swDb
  try dsimp only
  repeat' first
    | (intro _)
    | fail_if_no_progress with_reducible refine Follows.put ?_ rfl
    | with_reducible assumption
    | with_reducible apply doorbell_follows
    | with_reducible apply regGuard_follows

theorem evDb_follows {a1} {a2} (h : Follows z s) :
    Follows z (evDb a1 a2 s) := by
  unfold evDb
  try dsimp only
  repeat' first
    | (intro _)
    | fail_if_no_progress with_reducible refine Follows.put ?_ rfl
    | with_reducible assumption
    | with_reducible apply doorbell_follows
    | with_reducible apply regGuard_follows
    | with_reducible apply Follows.ite
    | with_reducible apply Follows.fold
    | split
    | with_reducible refine Follows.putMode ?_ (.inl rfl) rfl
    | with_reducible refine Follows.putMode ?_ (.inr rfl) rfl
    | with_reducible refine Follows.putCnt ?_ (fun e => countersOk_set e (Nat.zero_le _)) rfl
    | with_reducible apply Follows.foldP
    | (with_reducible dsimp only)
    | assumption

theorem bankDelivery_follows {a1} (h : Follows z s) :
    Follows z (bankDelivery a1 s) := by
  unfold bankDelivery
  try dsimp only
  repeat' first
    | (intro _)
    | fail_if_no_progress with_reducible refine Follows.put ?_ rfl
    | with_reducible assumption
    | with_reducible apply msiWrite_follows
    | with_reducible apply State.setBank_follows
    | with_reducible apply State.setEq_follows
    | with_reducible apply Follows.ite
    | with_reducible apply Follows.fold
    | split

theorem eoiWrite_follows {a1} {a2} (h : Follows z s) :
    Follows z (eoiWrite a1 a2 s) := by
  unfold eoiWrite
  try dsimp only
  repeat' first
    | (intro _)
    | fail_if_no_progress with_reducible refine Follows.put ?_ rfl
    | with_reducible assumption
    | with_reducible apply raisePrivOpen_follows
    | with_reducible apply bump_follows
    | with_reducible apply State.setBank_follows
    | with_reducible apply Follows.ite

theorem bankResetWrite_follows {a1} (h : Follows z s) :
    Follows z (bankResetWrite a1 s) := by
  unfold bankResetWrite
  try dsimp only
  repeat' first
    | (intro _)
    | fail_if_no_progress with_reducible refine Follows.put ?_ rfl
    | with_reducible assumption
    | with_reducible apply State.setBank_follows
    | with_reducible apply State.setEq_follows
    | with_reducible apply Follows.ite
    | with_reducible apply Follows.fold

theorem eoi_follows {a1} {a2} {a3} (h : Follows z s) :
    Follows z (eoi a1 a2 a3 s) := by
  unfold eoi
  try dsimp only
  repeat' first
    | (intro _)
    | fail_if_no_progress with_reducible refine Follows.put ?_ rfl
    | with_reducible assumption
    | with_reducible apply eoiWrite_follows
    | with_reducible apply regGuard_follows

theorem bankReset_follows {a1} {a2} (h : Follows z s) :
    Follows z (bankReset a1 a2 s) := by
  unfold bankReset
  try dsimp only
  repeat' first
    | (intro _)
    | fail_if_no_progress with_reducible refine Follows.put ?_ rfl
    | with_reducible assumption
    | with_reducible apply bankResetWrite_follows
    | with_reducible apply regGuard_follows

theorem raiseWrite_follows {a1} {a2} (h : Follows z s) :
    Follows z (raiseWrite a1 a2 s) := by
  unfold raiseWrite
  try dsimp only
  repeat' first
    | (intro _)
    | fail_if_no_progress with_reducible refine Follows.put ?_ rfl
    | with_reducible assumption
    | with_reducible apply setHmPend_follows
    | with_reducible apply permFault_follows
    | with_reducible apply Follows.ite

theorem takeWrite_follows {a1} {a2} (h : Follows z s) :
    Follows z (takeWrite a1 a2 s) := by
  unfold takeWrite
  try dsimp only
  repeat' first
    | (intro _)
    | fail_if_no_progress with_reducible refine Follows.put ?_ rfl
    | with_reducible assumption
    | with_reducible apply permFault_follows
    | with_reducible apply State.setBank_follows
    | with_reducible apply Follows.ite

end Sys2Proof.Machine
end

