-- ==== Sys2Proof/Laws/FollowsBwater.lean ====
section
/-! SUPPORT. The operations of Machine/Bwater.lean follow. -/

namespace Sys2Proof.Machine

variable {z s : State}

theorem bwApply_follows {a1} (h : Follows z s) :
    Follows z (bwApply a1 s) := by
  unfold bwApply
  try dsimp only
  repeat' first
    | (intro _)
    | fail_if_no_progress with_reducible refine Follows.put ?_ rfl
    | with_reducible assumption
    | with_reducible apply bwCommit_follows
    | with_reducible apply regGuard_follows

theorem starveExpiry_follows {a1} {a2} (h : Follows z s) :
    Follows z (starveExpiry a1 a2 s) := by
  unfold starveExpiry
  try dsimp only
  repeat' first
    | (intro _)
    | fail_if_no_progress with_reducible refine Follows.put ?_ rfl
    | with_reducible assumption
    | with_reducible apply bump_follows
    | with_reducible apply Follows.ite
    | with_reducible apply Follows.fold
    | split

theorem capWindow_follows {a1} (h : Follows z s) :
    Follows z (capWindow a1 s) := by
  unfold capWindow
  try dsimp only
  repeat' first
    | (intro _)
    | fail_if_no_progress with_reducible refine Follows.put ?_ rfl
    | with_reducible assumption
    | with_reducible apply State.setBwReg_follows
    | with_reducible apply Follows.ite
    | with_reducible apply Follows.fold

end Sys2Proof.Machine
end

