-- ==== Sys2Proof/Laws/FollowsTideOps.lean ====
section
/-! SUPPORT. The operations of Machine/TideOps.lean follow. -/

namespace Sys2Proof.Machine

variable {z s : State}

theorem State.setSlice_follows {a1} {a2} (h : Follows z s) :
    Follows z (State.setSlice s a1 a2) := by
  unfold State.setSlice
  try dsimp only
  repeat' first
    | (intro _)
    | fail_if_no_progress with_reducible refine Follows.put ?_ rfl
    | with_reducible assumption

theorem State.setJob_follows {a1} {a2} (h : Follows z s) :
    Follows z (State.setJob s a1 a2) := by
  unfold State.setJob
  try dsimp only
  repeat' first
    | (intro _)
    | fail_if_no_progress with_reducible refine Follows.put ?_ rfl
    | with_reducible assumption

theorem rekeyEnd_follows {a1} (h : Follows z s) :
    Follows z (rekeyEnd a1 s) := by
  unfold rekeyEnd
  try dsimp only
  repeat' first
    | (intro _)
    | fail_if_no_progress with_reducible refine Follows.put ?_ rfl
    | with_reducible assumption
    | with_reducible apply State.setJob_follows
    | with_reducible apply updFrz_follows
    | with_reducible apply trace_follows
    | with_reducible apply raiseTo_follows
    | with_reducible apply Follows.ite
    | with_reducible apply Follows.fold
    | split

theorem rebind_follows {a1} {a2} {a3} {a4} (h : Follows z s) :
    Follows z (rebind a1 a2 a3 a4 s) := by
  unfold rebind
  try dsimp only
  repeat' first
    | (intro _)
    | fail_if_no_progress with_reducible refine Follows.put ?_ rfl
    | with_reducible assumption
    | with_reducible apply zeroiseBerth_follows
    | with_reducible apply State.setKmap_follows
    | with_reducible apply State.updEng_follows
    | with_reducible apply Follows.ite

theorem engineDone_follows {a1} {a2} (h : Follows z s) :
    Follows z (engineDone a1 a2 s) := by
  unfold engineDone
  try dsimp only
  repeat' first
    | (intro _)
    | fail_if_no_progress with_reducible refine Follows.put ?_ rfl
    | with_reducible assumption
    | with_reducible apply rebind_follows
    | with_reducible apply rekeyEnd_follows
    | with_reducible apply State.setJob_follows
    | with_reducible apply Follows.ite

theorem sliceIdle_follows {a1} (h : Follows z s) :
    Follows z (sliceIdle a1 s) := by
  unfold sliceIdle
  try dsimp only
  repeat' first
    | (intro _)
    | fail_if_no_progress with_reducible refine Follows.put ?_ rfl
    | with_reducible assumption
    | with_reducible apply State.setSlice_follows
    | with_reducible apply State.updEng_follows

theorem sliceCheck_follows {a1} (h : Follows z s) :
    Follows z (sliceCheck a1 s) := by
  unfold sliceCheck
  try dsimp only
  repeat' first
    | (intro _)
    | fail_if_no_progress with_reducible refine Follows.put ?_ rfl
    | with_reducible assumption
    | with_reducible apply sliceIdle_follows
    | with_reducible apply engineDone_follows
    | with_reducible apply Follows.ite

theorem tideJobStart_follows {a1} (h : Follows z s) :
    Follows z (tideJobStart a1 s) := by
  unfold tideJobStart
  try dsimp only
  repeat' first
    | (intro _)
    | fail_if_no_progress with_reducible refine Follows.put ?_ rfl
    | with_reducible assumption
    | with_reducible apply sliceCheck_follows
    | with_reducible apply State.setJob_follows
    | with_reducible apply State.setSlice_follows
    | with_reducible apply State.updEng_follows
    | with_reducible apply Follows.ite
    | with_reducible apply Follows.fold
    | split
    | with_reducible refine Follows.putMode ?_ (.inl rfl) rfl
    | with_reducible refine Follows.putMode ?_ (.inr rfl) rfl
    | with_reducible refine Follows.putCnt ?_ (fun e => countersOk_set e (Nat.zero_le _)) rfl

theorem tidePaceWindow_follows {a1} (h : Follows z s) :
    Follows z (tidePaceWindow a1 s) := by
  unfold tidePaceWindow
  try dsimp only
  repeat' first
    | (intro _)
    | fail_if_no_progress with_reducible refine Follows.put ?_ rfl
    | with_reducible assumption
    | with_reducible apply State.setSlice_follows
    | with_reducible apply Follows.ite

theorem tideTurn_follows {a1} (h : Follows z s) :
    Follows z (tideTurn a1 s) := by
  unfold tideTurn
  try dsimp only
  repeat' first
    | (intro _)
    | fail_if_no_progress with_reducible refine Follows.put ?_ rfl
    | with_reducible assumption
    | with_reducible apply sliceCheck_follows
    | with_reducible apply State.setSlice_follows
    | with_reducible apply acceptLine_follows
    | with_reducible apply advance_follows
    | with_reducible apply State.fresh_follows
    | with_reducible apply Follows.ite
    | with_reducible apply Follows.fold
    | with_reducible apply FollowsP.ite
    | with_reducible apply FollowsP.mk
    | with_reducible refine FollowsP.snd (State.fresh_follows ?_)
    | split

theorem turnEnd_follows {a1} {a2} {a3} (h : Follows z s) :
    Follows z (turnEnd a1 a2 a3 s) := by
  unfold turnEnd
  try dsimp only
  repeat' first
    | (intro _)
    | fail_if_no_progress with_reducible refine Follows.put ?_ rfl
    | with_reducible assumption
    | with_reducible apply sliceCheck_follows
    | with_reducible apply State.setJob_follows
    | with_reducible apply State.setSlice_follows
    | with_reducible apply bump_follows
    | with_reducible apply Follows.ite

theorem tideHold_follows {a1} (h : Follows z s) :
    Follows z (tideHold a1 s) := by
  unfold tideHold
  try dsimp only
  repeat' first
    | (intro _)
    | fail_if_no_progress with_reducible refine Follows.put ?_ rfl
    | with_reducible assumption
    | with_reducible apply State.setSlice_follows
    | with_reducible apply removeLine_follows
    | with_reducible apply Follows.ite
    | with_reducible apply Follows.fold

theorem tideResume_follows {a1} (h : Follows z s) :
    Follows z (tideResume a1 s) := by
  unfold tideResume
  try dsimp only
  repeat' first
    | (intro _)
    | fail_if_no_progress with_reducible refine Follows.put ?_ rfl
    | with_reducible assumption
    | with_reducible apply State.setSlice_follows
    | with_reducible apply Follows.ite

theorem cancelJobs_follows {a1} (h : Follows z s) :
    Follows z (cancelJobs a1 s) := by
  unfold cancelJobs
  try dsimp only
  repeat' first
    | (intro _)
    | fail_if_no_progress with_reducible refine Follows.put ?_ rfl
    | with_reducible assumption
    | with_reducible apply sliceCheck_follows
    | with_reducible apply engineDone_follows
    | with_reducible apply State.setJob_follows
    | with_reducible apply Follows.ite
    | with_reducible apply Follows.fold

theorem queueJob_follows {a1} {a2} (h : Follows z s) :
    Follows z (queueJob a1 a2 s) := by
  unfold queueJob
  try dsimp only
  repeat' first
    | (intro _)
    | fail_if_no_progress with_reducible refine Follows.put ?_ rfl
    | with_reducible assumption
    | with_reducible apply engineDone_follows
    | with_reducible apply rekeyEnd_follows
    | with_reducible apply State.setJob_follows
    | with_reducible apply trace_follows
    | with_reducible apply Follows.ite
    | with_reducible apply Follows.fold

theorem rekeyStart_follows {a1} (h : Follows z s) :
    FollowsP z (rekeyStart a1 s) := by
  unfold rekeyStart
  try dsimp only
  repeat' first
    | (intro _)
    | fail_if_no_progress with_reducible refine Follows.put ?_ rfl
    | with_reducible assumption
    | with_reducible apply queueJob_follows
    | with_reducible apply fillBerth_follows
    | with_reducible apply drbg_follows
    | with_reducible apply auditLog_follows
    | with_reducible apply Follows.ite
    | with_reducible apply Follows.fold
    | with_reducible apply FollowsP.ite
    | with_reducible apply FollowsP.mk
    | with_reducible refine FollowsP.snd (fillBerth_follows ?_)
    | with_reducible exact FollowsOP.none
    | with_reducible apply FollowsOP.some
    | with_reducible apply FollowsOP.getD
    | with_reducible apply FollowsOP.mapP
    | with_reducible apply FollowsOP.map
    | split
    | refine FollowsP.eq (by assumption) ?_
    | refine FollowsOP.eq (by assumption) ?_

end Sys2Proof.Machine
end

