-- ==== Sys2Proof/Laws/FollowsIoOps.lean ====
section
/-! SUPPORT. The operations of Machine/IoOps.lean follow. -/

namespace Sys2Proof.Machine

variable {z s : State}

theorem submitPiece_follows {a1} {a2} {a3} {a4} {a5} (h : Follows z s) :
    Follows z (submitPiece a1 a2 a3 a4 a5 s) := by
  unfold submitPiece
  try dsimp only
  repeat' first
    | (intro _)
    | fail_if_no_progress with_reducible refine Follows.put ?_ rfl
    | with_reducible assumption
    | with_reducible apply submitLine_follows
    | with_reducible apply Follows.ite

theorem ioStart_follows {a1} {a2} (h : Follows z s) :
    Follows z (ioStart a1 a2 s) := by
  unfold ioStart
  try dsimp only
  repeat' first
    | (intro _)
    | fail_if_no_progress with_reducible refine Follows.put ?_ rfl
    | with_reducible assumption
    | with_reducible apply submitPiece_follows
    | with_reducible apply State.setOp_follows

theorem ioRead_follows {a1} {a2} {a3} (h : Follows z s) :
    Follows z (ioRead a1 a2 a3 s) := by
  unfold ioRead
  try dsimp only
  repeat' first
    | (intro _)
    | fail_if_no_progress with_reducible refine Follows.put ?_ rfl
    | with_reducible assumption
    | with_reducible apply ioStart_follows

theorem ioWrite_follows {a1} {a2} {a3} (h : Follows z s) :
    Follows z (ioWrite a1 a2 a3 s) := by
  unfold ioWrite
  try dsimp only
  repeat' first
    | (intro _)
    | fail_if_no_progress with_reducible refine Follows.put ?_ rfl
    | with_reducible assumption
    | with_reducible apply ioStart_follows

theorem startOp_follows {a1} (h : Follows z s) :
    FollowsP z (startOp a1 s) := by
  unfold startOp
  try dsimp only
  repeat' first
    | (intro _)
    | fail_if_no_progress with_reducible refine Follows.put ?_ rfl
    | with_reducible assumption
    | with_reducible apply addRefs_follows
    | with_reducible apply ctxBegin_follows
    | with_reducible apply State.fresh_follows
    | with_reducible apply State.setOp_follows
    | with_reducible apply Follows.ite
    | with_reducible apply Follows.fold
    | with_reducible apply FollowsP.ite
    | with_reducible apply FollowsP.mk
    | with_reducible refine FollowsP.snd (State.fresh_follows ?_)

theorem finishOp_follows {a1} {a2} {a3} {a4} (h : Follows z s) :
    Follows z (finishOp a1 a2 a3 a4 s) := by
  unfold finishOp
  try dsimp only
  repeat' first
    | (intro _)
    | fail_if_no_progress with_reducible refine Follows.put ?_ rfl
    | with_reducible assumption
    | with_reducible apply State.updOp_follows

theorem closeOp_follows {a1} (h : Follows z s) :
    FollowsP z (closeOp a1 s) := by
  unfold closeOp
  try dsimp only
  repeat' first
    | (intro _)
    | fail_if_no_progress with_reducible refine Follows.put ?_ rfl
    | with_reducible assumption
    | with_reducible apply signalCompl_follows
    | with_reducible apply dropRefs_follows
    | with_reducible apply ctxEnd_follows
    | with_reducible apply State.dropOp_follows
    | with_reducible apply Follows.ite
    | with_reducible apply Follows.fold
    | with_reducible apply FollowsP.ite
    | with_reducible apply FollowsP.mk
    | with_reducible refine FollowsP.snd (signalCompl_follows ?_)
    | split

theorem copyNext_follows {a1} {a2} {a3} {a4} (h : Follows z s) :
    Follows z (copyNext a1 a2 a3 a4 s) := by
  unfold copyNext
  try dsimp only
  repeat' first
    | (intro _)
    | fail_if_no_progress with_reducible refine Follows.put ?_ rfl
    | with_reducible assumption
    | with_reducible apply finishOp_follows
    | with_reducible apply ioRead_follows
    | with_reducible apply Follows.ite

theorem copyStep_follows {a1} {a2} {a3} {a4} {a5} {a6} {a7} (h : Follows z s) :
    Follows z (copyStep a1 a2 a3 a4 a5 a6 a7 s) := by
  unfold copyStep
  try dsimp only
  repeat' first
    | (intro _)
    | fail_if_no_progress with_reducible refine Follows.put ?_ rfl
    | with_reducible assumption
    | with_reducible apply copyNext_follows
    | with_reducible apply ioWrite_follows
    | with_reducible apply State.setOp_follows
    | with_reducible apply Follows.ite

theorem newObj_follows {a1} {a2} (h : Follows z s) :
    FollowsP z (newObj a1 a2 s) := by
  unfold newObj
  try dsimp only
  repeat' first
    | (intro _)
    | fail_if_no_progress with_reducible refine Follows.put ?_ rfl
    | with_reducible assumption
    | with_reducible apply State.setObj_follows
    | with_reducible apply State.updMoor_follows
    | with_reducible apply Follows.ite
    | with_reducible apply Follows.fold
    | with_reducible apply FollowsP.ite
    | with_reducible apply FollowsP.mk
    | split

theorem arenaTake_follows {a1} {a2} {a3} (h : Follows z s) :
    FollowsOP z (arenaTake a1 a2 a3 s) := by
  unfold arenaTake
  try dsimp only
  repeat' first
    | (intro _)
    | fail_if_no_progress with_reducible refine Follows.put ?_ rfl
    | with_reducible assumption
    | with_reducible apply State.setMoor_follows
    | with_reducible apply Follows.ite
    | with_reducible apply Follows.fold
    | with_reducible exact FollowsOP.none
    | with_reducible apply FollowsOP.some
    | with_reducible apply FollowsOP.getD
    | with_reducible apply FollowsOP.mapP
    | with_reducible apply FollowsOP.map

theorem arenaGive_follows {a1} {a2} {a3} (h : Follows z s) :
    Follows z (arenaGive a1 a2 a3 s) := by
  unfold arenaGive
  try dsimp only
  repeat' first
    | (intro _)
    | fail_if_no_progress with_reducible refine Follows.put ?_ rfl
    | with_reducible assumption
    | with_reducible apply State.setMoor_follows

theorem ctxHold_follows {a1} {a2} {a3} (h : Follows z s) :
    Follows z (ctxHold a1 a2 a3 s) := by
  unfold ctxHold
  try dsimp only
  repeat' first
    | (intro _)
    | fail_if_no_progress with_reducible refine Follows.put ?_ rfl
    | with_reducible assumption
    | with_reducible apply State.setCtx_follows
    | with_reducible apply Follows.ite

theorem makeExtent_follows {a1} {a2} {a3} {a4} (h : Follows z s) :
    FollowsP z (makeExtent a1 a2 a3 a4 s) := by
  unfold makeExtent
  try dsimp only
  repeat' first
    | (intro _)
    | fail_if_no_progress with_reducible refine Follows.put ?_ rfl
    | with_reducible assumption
    | with_reducible apply ctxHold_follows
    | with_reducible apply newObj_follows
    | with_reducible apply Follows.ite
    | with_reducible apply Follows.fold
    | with_reducible apply FollowsP.ite
    | with_reducible apply FollowsP.mk
    | with_reducible refine FollowsP.snd (newObj_follows ?_)

theorem allocNow_follows {a1} {a2} {a3} {a4} (h : Follows z s) :
    FollowsP3 z (allocNow a1 a2 a3 a4 s) := by
  unfold allocNow
  try dsimp only
  repeat' first
    | (intro _)
    | fail_if_no_progress with_reducible refine Follows.put ?_ rfl
    | with_reducible assumption
    | with_reducible apply makeExtent_follows
    | with_reducible apply arenaTake_follows
    | with_reducible apply Follows.ite
    | with_reducible apply Follows.fold
    | with_reducible apply FollowsP.ite
    | with_reducible apply FollowsP.mk
    | with_reducible apply FollowsP3.mk
    | with_reducible refine FollowsP.snd (makeExtent_follows ?_)
    | with_reducible exact FollowsOP.none
    | with_reducible apply FollowsOP.some
    | with_reducible apply FollowsOP.getD
    | with_reducible apply FollowsOP.mapP
    | with_reducible apply FollowsOP.map
    | split
    | refine FollowsP.eq (by assumption) ?_
    | refine FollowsOP.eq (by assumption) ?_

theorem allocZeroEnd_follows {a1} {a2} {a3} (h : Follows z s) :
    Follows z (allocZeroEnd a1 a2 a3 s) := by
  unfold allocZeroEnd
  try dsimp only
  repeat' first
    | (intro _)
    | fail_if_no_progress with_reducible refine Follows.put ?_ rfl
    | with_reducible assumption
    | with_reducible apply makeExtent_follows
    | with_reducible apply arenaGive_follows
    | with_reducible apply finishOp_follows
    | with_reducible apply Follows.ite
    | with_reducible apply Follows.fold
    | with_reducible apply FollowsP.ite
    | with_reducible apply FollowsP.mk
    | with_reducible refine FollowsP.snd (makeExtent_follows ?_)

theorem retireObj_follows {a1} (h : Follows z s) :
    Follows z (retireObj a1 s) := by
  unfold retireObj
  try dsimp only
  repeat' first
    | (intro _)
    | fail_if_no_progress with_reducible refine Follows.put ?_ rfl
    | with_reducible assumption
    | with_reducible apply ctxHold_follows
    | with_reducible apply arenaGive_follows
    | with_reducible apply reapObj_follows
    | with_reducible apply Follows.ite
    | with_reducible apply Follows.fold
    | split

theorem objZero_follows {a1} (h : Follows z s) :
    Follows z (objZero a1 s) := by
  unfold objZero
  try dsimp only
  repeat' first
    | (intro _)
    | fail_if_no_progress with_reducible refine Follows.put ?_ rfl
    | with_reducible assumption
    | with_reducible apply retireObj_follows
    | with_reducible apply finishOp_follows
    | with_reducible apply Follows.ite
    | with_reducible apply Follows.fold
    | split

theorem objFreeStart_follows {a1} {a2} (h : Follows z s) :
    Follows z (objFreeStart a1 a2 s) := by
  unfold objFreeStart
  try dsimp only
  repeat' first
    | (intro _)
    | fail_if_no_progress with_reducible refine Follows.put ?_ rfl
    | with_reducible assumption
    | with_reducible apply objZero_follows
    | with_reducible apply freeingObj_follows
    | with_reducible apply Follows.ite

theorem mbRefuse_follows {a1} {a2} (h : Follows z s) :
    Follows z (mbRefuse a1 a2 s) := by
  unfold mbRefuse
  try dsimp only
  repeat' first
    | (intro _)
    | fail_if_no_progress with_reducible refine Follows.put ?_ rfl
    | with_reducible assumption
    | with_reducible apply auditLog_follows

theorem mbEnd_follows {a1} {a2} (h : Follows z s) :
    Follows z (mbEnd a1 a2 s) := by
  unfold mbEnd
  try dsimp only
  repeat' first
    | (intro _)
    | fail_if_no_progress with_reducible refine Follows.put ?_ rfl
    | with_reducible assumption
    | with_reducible apply putRecord_follows
    | with_reducible apply beat_follows

theorem mbRun_follows {a1} {a2} {a3} {a4} {a5 : State → MbAns} (h : Follows z s) (ha5 : ∀ u, Follows z u → FollowsP z (a5 u)) :
    Follows z (mbRun a1 a2 a3 a4 a5 s) := by
  unfold mbRun
  try dsimp only
  repeat' first
    | (intro _)
    | fail_if_no_progress with_reducible refine Follows.put ?_ rfl
    | with_reducible assumption
    | with_reducible apply ha5
    | with_reducible apply mbEnd_follows
    | with_reducible apply mbRefuse_follows
    | with_reducible apply raiseHm_follows
    | with_reducible apply Follows.ite
    | with_reducible apply Follows.fold
    | with_reducible refine FollowsP.snd (ha5 _ ?_)
    | split

theorem mbPut_follows {a1} (h : Follows z s) :
    Follows z (mbPut a1 s) := by
  unfold mbPut
  try dsimp only
  repeat' first
    | (intro _)
    | fail_if_no_progress with_reducible refine Follows.put ?_ rfl
    | with_reducible assumption

end Sys2Proof.Machine
end

