-- ==== Sys2Proof/Laws/FollowsQueueOps.lean ====
section
/-! SUPPORT. The operations of Machine/QueueOps.lean follow. -/

namespace Sys2Proof.Machine

variable {z s : State}

theorem qStart_follows {a1} {a2} {a3} {a4} {a5 : ℕ → QCmd → State → State} (h : Follows z s) (ha5 : ∀ y0 y1 u, Follows z u → Follows z (a5 y0 y1 u)) :
    Follows z (qStart a1 a2 a3 a4 a5 s) := by
  unfold qStart
  try dsimp only
  repeat' first
    | (intro _)
    | fail_if_no_progress with_reducible refine Follows.put ?_ rfl
    | with_reducible assumption
    | with_reducible apply ha5
    | with_reducible apply finishOp_follows
    | with_reducible apply startOp_follows
    | with_reducible apply trace_follows
    | with_reducible apply State.setQueue_follows
    | with_reducible apply Follows.ite
    | with_reducible apply Follows.fold
    | with_reducible apply FollowsP.ite
    | with_reducible apply FollowsP.mk
    | with_reducible refine FollowsP.snd (startOp_follows ?_)
    | split

theorem queueEnd_follows {a1} (h : Follows z s) :
    Follows z (queueEnd a1 s) := by
  unfold queueEnd
  try dsimp only
  repeat' first
    | (intro _)
    | fail_if_no_progress with_reducible refine Follows.put ?_ rfl
    | with_reducible assumption
    | with_reducible apply closeOp_follows
    | with_reducible apply markEnd_follows
    | with_reducible apply postCompl_follows
    | with_reducible apply trace_follows
    | with_reducible apply State.updQueue_follows
    | with_reducible apply Follows.ite
    | with_reducible apply Follows.fold
    | with_reducible apply FollowsP.ite
    | with_reducible apply FollowsP.mk
    | with_reducible refine FollowsP.snd (closeOp_follows ?_)
    | split

theorem squash_follows {a1} {a2} (h : Follows z s) :
    Follows z (squash a1 a2 s) := by
  unfold squash
  try dsimp only
  repeat' first
    | (intro _)
    | fail_if_no_progress with_reducible refine Follows.put ?_ rfl
    | with_reducible assumption
    | with_reducible apply markEnd_follows
    | with_reducible apply postCompl_follows
    | with_reducible apply breakBoll_follows
    | with_reducible apply Follows.ite

theorem squashQueue_follows {a1} {a2} (h : Follows z s) :
    FollowsP z (squashQueue a1 a2 s) := by
  unfold squashQueue
  try dsimp only
  repeat' first
    | (intro _)
    | fail_if_no_progress with_reducible refine Follows.put ?_ rfl
    | with_reducible assumption
    | with_reducible apply squash_follows
    | with_reducible apply State.setQueue_follows
    | with_reducible apply Follows.ite
    | with_reducible apply Follows.fold
    | with_reducible apply FollowsP.ite
    | with_reducible apply FollowsP.mk

theorem dbErr_follows {a1} (h : Follows z s) :
    Follows z (dbErr a1 s) := by
  unfold dbErr
  try dsimp only
  repeat' first
    | (intro _)
    | fail_if_no_progress with_reducible refine Follows.put ?_ rfl
    | with_reducible assumption
    | with_reducible apply State.updWin_follows
    | with_reducible apply Follows.ite
    | with_reducible apply Follows.fold
    | split

theorem doorbellWrite_follows {a1} {a2} (h : Follows z s) :
    Follows z (doorbellWrite a1 a2 s) := by
  unfold doorbellWrite
  try dsimp only
  repeat' first
    | (intro _)
    | fail_if_no_progress with_reducible refine Follows.put ?_ rfl
    | with_reducible assumption
    | with_reducible apply dbErr_follows
    | with_reducible apply State.setQueue_follows
    | with_reducible apply Follows.ite

theorem sqDoorbell_follows {a1} {a2} {a3} (h : Follows z s) :
    Follows z (sqDoorbell a1 a2 a3 s) := by
  unfold sqDoorbell
  try dsimp only
  repeat' first
    | (intro _)
    | fail_if_no_progress with_reducible refine Follows.put ?_ rfl
    | with_reducible assumption
    | with_reducible apply doorbellWrite_follows
    | with_reducible apply regGuard_follows

theorem ringFetch_follows {a1} (h : Follows z s) :
    Follows z (ringFetch a1 s) := by
  unfold ringFetch
  try dsimp only
  repeat' first
    | (intro _)
    | fail_if_no_progress with_reducible refine Follows.put ?_ rfl
    | with_reducible assumption
    | with_reducible apply submitLine_follows
    | with_reducible apply State.setQueue_follows
    | with_reducible apply Follows.ite

theorem stopQueue_follows {a1} {a2} (h : Follows z s) :
    Follows z (stopQueue a1 a2 s) := by
  unfold stopQueue
  try dsimp only
  repeat' first
    | (intro _)
    | fail_if_no_progress with_reducible refine Follows.put ?_ rfl
    | with_reducible assumption
    | with_reducible apply postCompl_follows
    | with_reducible apply State.setQueue_follows

theorem ringBack_follows {a1} {a2} {a3} (h : Follows z s) :
    Follows z (ringBack a1 a2 a3 s) := by
  unfold ringBack
  try dsimp only
  repeat' first
    | (intro _)
    | fail_if_no_progress with_reducible refine Follows.put ?_ rfl
    | with_reducible assumption
    | with_reducible apply stopQueue_follows
    | with_reducible apply State.setQueue_follows
    | with_reducible apply Follows.ite
    | with_reducible apply Follows.fold
    | split

theorem queueBaseWrite_follows {a1} {a2} {a3} (h : Follows z s) :
    Follows z (queueBaseWrite a1 a2 a3 s) := by
  unfold queueBaseWrite
  try dsimp only
  repeat' first
    | (intro _)
    | fail_if_no_progress with_reducible refine Follows.put ?_ rfl
    | with_reducible assumption
    | with_reducible apply permFault_follows
    | with_reducible apply State.setQueue_follows
    | with_reducible apply Follows.ite

theorem queueCtrlWrite_follows {a1} {a2} {a3} {a4} {a5} {a6} (h : Follows z s) :
    Follows z (queueCtrlWrite a1 a2 a3 a4 a5 a6 s) := by
  unfold queueCtrlWrite
  try dsimp only
  repeat' first
    | (intro _)
    | fail_if_no_progress with_reducible refine Follows.put ?_ rfl
    | with_reducible assumption
    | with_reducible apply permFault_follows
    | with_reducible apply State.setQueue_follows
    | with_reducible apply Follows.ite

theorem queueEnable_follows {a1} {a2} {a3} (h : Follows z s) :
    Follows z (queueEnable a1 a2 a3 s) := by
  unfold queueEnable
  try dsimp only
  repeat' first
    | (intro _)
    | fail_if_no_progress with_reducible refine Follows.put ?_ rfl
    | with_reducible assumption
    | with_reducible apply queueCtrlWrite_follows
    | with_reducible apply regGuard_follows

theorem registerMemory_follows {a1} {a2} (h : Follows z s) :
    Follows z (registerMemory a1 a2 s) := by
  unfold registerMemory
  try dsimp only
  repeat' first
    | (intro _)
    | fail_if_no_progress with_reducible refine Follows.put ?_ rfl
    | with_reducible assumption
    | with_reducible apply newObj_follows
    | with_reducible apply finishOp_follows
    | with_reducible apply Follows.ite
    | with_reducible apply Follows.fold
    | with_reducible apply FollowsP.ite
    | with_reducible apply FollowsP.mk
    | with_reducible refine FollowsP.snd (newObj_follows ?_)

theorem registerBollard_follows {a1} {a2} (h : Follows z s) :
    Follows z (registerBollard a1 a2 s) := by
  unfold registerBollard
  try dsimp only
  repeat' first
    | (intro _)
    | fail_if_no_progress with_reducible refine Follows.put ?_ rfl
    | with_reducible assumption
    | with_reducible apply newObj_follows
    | with_reducible apply finishOp_follows
    | with_reducible apply State.setBoll_follows
    | with_reducible apply Follows.ite
    | with_reducible apply Follows.fold
    | with_reducible apply FollowsP.ite
    | with_reducible apply FollowsP.mk
    | with_reducible refine FollowsP.snd (newObj_follows ?_)
    | split

theorem copyGo_follows {a1} {a2} (h : Follows z s) :
    Follows z (copyGo a1 a2 s) := by
  unfold copyGo
  try dsimp only
  repeat' first
    | (intro _)
    | fail_if_no_progress with_reducible refine Follows.put ?_ rfl
    | with_reducible assumption
    | with_reducible apply copyNext_follows
    | with_reducible apply Follows.ite
    | with_reducible apply Follows.fold
    | split

theorem launchGo_follows {a1} {a2} (h : Follows z s) :
    Follows z (launchGo a1 a2 s) := by
  unfold launchGo
  try dsimp only
  repeat' first
    | (intro _)
    | fail_if_no_progress with_reducible refine Follows.put ?_ rfl
    | with_reducible assumption
    | with_reducible apply trace_follows
    | with_reducible apply ctxBegin_follows
    | with_reducible apply State.setStrand_follows
    | with_reducible apply State.updQuay_follows

theorem signalGo_follows {a1} {a2} {a3} (h : Follows z s) :
    Follows z (signalGo a1 a2 a3 s) := by
  unfold signalGo
  try dsimp only
  repeat' first
    | (intro _)
    | fail_if_no_progress with_reducible refine Follows.put ?_ rfl
    | with_reducible assumption
    | with_reducible apply finishOp_follows
    | with_reducible apply signalReset_follows
    | with_reducible apply signalAdd_follows
    | with_reducible apply Follows.ite
    | with_reducible apply Follows.fold
    | with_reducible refine FollowsP2.snd (signalReset_follows ?_)
    | with_reducible refine FollowsP2.snd (signalAdd_follows ?_)
    | split

theorem waitGo_follows {a1} (h : Follows z s) :
    Follows z (waitGo a1 s) := by
  unfold waitGo
  try dsimp only
  repeat' first
    | (intro _)
    | fail_if_no_progress with_reducible refine Follows.put ?_ rfl
    | with_reducible assumption
    | with_reducible apply finishOp_follows
    | with_reducible apply Follows.ite
    | with_reducible apply Follows.fold
    | split

theorem allocRun_follows {a1} {a2} {a3} {a4} {a5} {a6} (h : Follows z s) :
    Follows z (allocRun a1 a2 a3 a4 a5 a6 s) := by
  unfold allocRun
  try dsimp only
  repeat' first
    | (intro _)
    | fail_if_no_progress with_reducible refine Follows.put ?_ rfl
    | with_reducible assumption
    | with_reducible apply allocNow_follows
    | with_reducible apply arenaTake_follows
    | with_reducible apply finishOp_follows
    | with_reducible apply ioWrite_follows
    | with_reducible apply State.setOp_follows
    | with_reducible apply Follows.ite
    | with_reducible apply Follows.fold
    | with_reducible refine FollowsP3.snd (allocNow_follows ?_)
    | with_reducible exact FollowsOP.none
    | with_reducible apply FollowsOP.some
    | with_reducible apply FollowsOP.getD
    | with_reducible apply FollowsOP.mapP
    | with_reducible apply FollowsOP.map
    | split
    | refine FollowsOP.eq (by assumption) ?_

theorem allocGo_follows {a1} {a2} (h : Follows z s) :
    Follows z (allocGo a1 a2 s) := by
  unfold allocGo
  try dsimp only
  repeat' first
    | (intro _)
    | fail_if_no_progress with_reducible refine Follows.put ?_ rfl
    | with_reducible assumption
    | with_reducible apply allocRun_follows

theorem allocZeroStep_follows {a1} {a2} {a3} (h : Follows z s) :
    Follows z (allocZeroStep a1 a2 a3 s) := by
  unfold allocZeroStep
  try dsimp only
  repeat' first
    | (intro _)
    | fail_if_no_progress with_reducible refine Follows.put ?_ rfl
    | with_reducible assumption
    | with_reducible apply allocZeroEnd_follows
    | with_reducible apply ioWrite_follows
    | with_reducible apply State.setOp_follows
    | with_reducible apply Follows.ite

theorem allocZeroFail_follows {a1} {a2} {a3} {a4} (h : Follows z s) :
    Follows z (allocZeroFail a1 a2 a3 a4 s) := by
  unfold allocZeroFail
  try dsimp only
  repeat' first
    | (intro _)
    | fail_if_no_progress with_reducible refine Follows.put ?_ rfl
    | with_reducible assumption
    | with_reducible apply arenaGive_follows
    | with_reducible apply finishOp_follows

theorem freeGo_follows {a1} {a2} (h : Follows z s) :
    Follows z (freeGo a1 a2 s) := by
  unfold freeGo
  try dsimp only
  repeat' first
    | (intro _)
    | fail_if_no_progress with_reducible refine Follows.put ?_ rfl
    | with_reducible assumption
    | with_reducible apply objFreeStart_follows

theorem queryGo_follows {a1} {a2} (h : Follows z s) :
    Follows z (queryGo a1 a2 s) := by
  unfold queryGo
  try dsimp only
  repeat' first
    | (intro _)
    | fail_if_no_progress with_reducible refine Follows.put ?_ rfl
    | with_reducible assumption
    | with_reducible apply ioWrite_follows

theorem retireBegin_follows {a1} {a2} {a3} (h : Follows z s) :
    FollowsP z (retireBegin a1 a2 a3 s) := by
  unfold retireBegin
  try dsimp only
  repeat' first
    | (intro _)
    | fail_if_no_progress with_reducible refine Follows.put ?_ rfl
    | with_reducible assumption
    | with_reducible apply squashQueue_follows
    | with_reducible apply finishOp_follows
    | with_reducible apply State.setCtx_follows
    | with_reducible apply Follows.ite
    | with_reducible apply Follows.fold
    | with_reducible apply FollowsP.ite
    | with_reducible apply FollowsP.mk
    | with_reducible refine FollowsP.snd (squashQueue_follows ?_)
    | split
    | refine FollowsP.eq (by assumption) ?_
    | with_reducible refine Follows.putMode ?_ (.inl rfl) rfl
    | with_reducible refine Follows.putMode ?_ (.inr rfl) rfl
    | with_reducible refine Follows.putCnt ?_ (fun e => countersOk_set e (Nat.zero_le _)) rfl
    | with_reducible apply Follows.foldP
    | (with_reducible dsimp only)

theorem retireEnd_follows {a1} {a2} {a3} {a4} (h : Follows z s) :
    Follows z (retireEnd a1 a2 a3 a4 s) := by
  unfold retireEnd
  try dsimp only
  repeat' first
    | (intro _)
    | fail_if_no_progress with_reducible refine Follows.put ?_ rfl
    | with_reducible assumption
    | with_reducible apply finishOp_follows
    | with_reducible apply breakBoll_follows
    | with_reducible apply State.setCtx_follows
    | with_reducible apply Follows.ite
    | with_reducible apply Follows.fold

theorem allocDbEnd_follows {a1} {a2} (h : Follows z s) :
    Follows z (allocDbEnd a1 a2 s) := by
  unfold allocDbEnd
  try dsimp only
  repeat' first
    | (intro _)
    | fail_if_no_progress with_reducible refine Follows.put ?_ rfl
    | with_reducible assumption
    | with_reducible apply closeOp_follows
    | with_reducible apply markEnd_follows
    | with_reducible apply State.updWin_follows
    | with_reducible apply Follows.ite
    | with_reducible apply Follows.fold
    | with_reducible apply FollowsP.ite
    | with_reducible apply FollowsP.mk
    | with_reducible refine FollowsP.snd (closeOp_follows ?_)

theorem allocDbWrite_follows {a1} {a2} (h : Follows z s) :
    Follows z (allocDbWrite a1 a2 s) := by
  unfold allocDbWrite
  try dsimp only
  repeat' first
    | (intro _)
    | fail_if_no_progress with_reducible refine Follows.put ?_ rfl
    | with_reducible assumption
    | with_reducible apply dbErr_follows
    | with_reducible apply objFreeStart_follows
    | with_reducible apply allocNow_follows
    | with_reducible apply finishOp_follows
    | with_reducible apply startOp_follows
    | with_reducible apply State.updWin_follows
    | with_reducible apply Follows.ite
    | with_reducible apply Follows.fold
    | with_reducible apply FollowsP.ite
    | with_reducible apply FollowsP.mk
    | with_reducible refine FollowsP3.snd (allocNow_follows ?_)
    | with_reducible refine FollowsP.snd (startOp_follows ?_)

theorem allocDb_follows {a1} {a2} (h : Follows z s) :
    Follows z (allocDb a1 a2 s) := by
  unfold allocDb
  try dsimp only
  repeat' first
    | (intro _)
    | fail_if_no_progress with_reducible refine Follows.put ?_ rfl
    | with_reducible assumption
    | with_reducible apply allocDbWrite_follows
    | with_reducible apply regGuard_follows
    | with_reducible apply Follows.ite
    | with_reducible apply Follows.fold
    | split
    | with_reducible refine Follows.putMode ?_ (.inl rfl) rfl
    | with_reducible refine Follows.putMode ?_ (.inr rfl) rfl
    | with_reducible refine Follows.putCnt ?_ (fun e => countersOk_set e (Nat.zero_le _)) rfl
    | with_reducible apply Follows.foldP
    | (with_reducible dsimp only)
    | assumption

end Sys2Proof.Machine
end

