-- ==== Sys2Proof/Laws/FollowsQuayOps.lean ====
section
/-! SUPPORT. The operations of Machine/QuayOps.lean follow. -/

namespace Sys2Proof.Machine

variable {z s : State}

theorem deriveGen_follows {a1} {a2} {a3} {a4} (h : Follows z s) :
    FollowsP z (deriveGen a1 a2 a3 a4 s) := by
  unfold deriveGen
  try dsimp only
  repeat' first
    | (intro _)
    | fail_if_no_progress with_reducible refine Follows.put ?_ rfl
    | with_reducible assumption
    | with_reducible apply berthLoad_follows
    | with_reducible apply State.setBerth_follows
    | with_reducible apply Follows.ite
    | with_reducible apply Follows.fold
    | with_reducible apply FollowsP.ite
    | with_reducible apply FollowsP.mk
    | with_reducible refine FollowsP2.snd (berthLoad_follows ?_)
    | split

theorem genKey_follows {a1} {a2} (h : Follows z s) :
    FollowsP2 z (genKey a1 a2 s) := by
  unfold genKey
  try dsimp only
  repeat' first
    | (intro _)
    | fail_if_no_progress with_reducible refine Follows.put ?_ rfl
    | with_reducible assumption
    | with_reducible apply berthLoad_follows

theorem txMove_follows {a1} (h : Follows z s) :
    FollowsP z (txMove a1 s) := by
  unfold txMove
  try dsimp only
  repeat' first
    | (intro _)
    | fail_if_no_progress with_reducible refine Follows.put ?_ rfl
    | with_reducible assumption
    | with_reducible apply deriveGen_follows
    | with_reducible apply bump_follows
    | with_reducible apply State.setSess_follows
    | with_reducible apply Follows.ite
    | with_reducible apply Follows.fold
    | with_reducible apply FollowsP.ite
    | with_reducible apply FollowsP.mk
    | with_reducible refine FollowsP.snd (deriveGen_follows ?_)
    | split

theorem rxMove_follows {a1} (h : Follows z s) :
    Follows z (rxMove a1 s) := by
  unfold rxMove
  try dsimp only
  repeat' first
    | (intro _)
    | fail_if_no_progress with_reducible refine Follows.put ?_ rfl
    | with_reducible assumption
    | with_reducible apply State.setBerth_follows
    | with_reducible apply State.setSess_follows
    | with_reducible apply Follows.ite
    | with_reducible apply Follows.fold
    | split

theorem rxDerived_follows {a1} (h : Follows z s) :
    Follows z (rxDerived a1 s) := by
  unfold rxDerived
  try dsimp only
  repeat' first
    | (intro _)
    | fail_if_no_progress with_reducible refine Follows.put ?_ rfl
    | with_reducible assumption
    | with_reducible apply deriveGen_follows
    | with_reducible apply State.setSess_follows
    | with_reducible apply Follows.ite
    | with_reducible apply Follows.fold
    | with_reducible apply FollowsP.ite
    | with_reducible apply FollowsP.mk
    | with_reducible refine FollowsP.snd (deriveGen_follows ?_)
    | split

theorem sealFrame_follows {a1} {a2} {a3} {a4} {a5} {a6} (h : Follows z s) :
    FollowsP3 z (sealFrame a1 a2 a3 a4 a5 a6 s) := by
  unfold sealFrame
  try dsimp only
  repeat' first
    | (intro _)
    | fail_if_no_progress with_reducible refine Follows.put ?_ rfl
    | with_reducible assumption
    | with_reducible apply genKey_follows
    | with_reducible apply Follows.ite
    | with_reducible apply Follows.fold
    | with_reducible apply FollowsP3.mk
    | with_reducible refine FollowsP2.snd (genKey_follows ?_)
    | split

theorem putFrame_follows {a1} {a2} (h : Follows z s) :
    Follows z (putFrame a1 a2 s) := by
  unfold putFrame
  try dsimp only
  repeat' first
    | (intro _)
    | fail_if_no_progress with_reducible refine Follows.put ?_ rfl
    | with_reducible assumption
    | with_reducible apply emit_follows
    | with_reducible apply State.updQuay_follows
    | with_reducible apply Follows.ite
    | with_reducible apply Follows.fold

theorem sendFrame_follows {a1} {a2} {a3} {a4} (h : Follows z s) :
    Follows z (sendFrame a1 a2 a3 a4 s) := by
  unfold sendFrame
  try dsimp only
  repeat' first
    | (intro _)
    | fail_if_no_progress with_reducible refine Follows.put ?_ rfl
    | with_reducible assumption
    | with_reducible apply putFrame_follows
    | with_reducible apply beat_follows
    | with_reducible apply bumpIf_follows
    | with_reducible apply bump_follows
    | with_reducible apply State.updQuay_follows
    | with_reducible apply Follows.ite

theorem noteSt_follows {a1} {a2} (h : Follows z s) :
    Follows z (noteSt a1 a2 s) := by
  unfold noteSt
  try dsimp only
  repeat' first
    | (intro _)
    | fail_if_no_progress with_reducible refine Follows.put ?_ rfl
    | with_reducible assumption
    | with_reducible apply State.updOp_follows

theorem cutOp_follows {a1} {a2} (h : Follows z s) :
    Follows z (cutOp a1 a2 s) := by
  unfold cutOp
  try dsimp only
  repeat' first
    | (intro _)
    | fail_if_no_progress with_reducible refine Follows.put ?_ rfl
    | with_reducible assumption
    | with_reducible apply finishOp_follows
    | with_reducible apply State.setOp_follows
    | with_reducible apply Follows.ite
    | with_reducible apply Follows.fold
    | split

theorem flitRefuse_follows {a1} {a2} {a3} {a4} {a5} (h : Follows z s) :
    Follows z (flitRefuse a1 a2 a3 a4 a5 s) := by
  unfold flitRefuse
  try dsimp only
  repeat' first
    | (intro _)
    | fail_if_no_progress with_reducible refine Follows.put ?_ rfl
    | with_reducible assumption
    | with_reducible apply markLost_follows
    | with_reducible apply bumpIf_follows

theorem purgeQueues_follows {a1} {a2} {a3} {a4} (h : Follows z s) :
    Follows z (purgeQueues a1 a2 a3 a4 s) := by
  unfold purgeQueues
  try dsimp only
  repeat' first
    | (intro _)
    | fail_if_no_progress with_reducible refine Follows.put ?_ rfl
    | with_reducible assumption
    | with_reducible apply flitRefuse_follows
    | with_reducible apply State.updQuay_follows
    | with_reducible apply Follows.ite
    | with_reducible apply Follows.fold

theorem endSessOps_follows {a1} {a2} {a3} {a4} (h : Follows z s) :
    Follows z (endSessOps a1 a2 a3 a4 s) := by
  unfold endSessOps
  try dsimp only
  repeat' first
    | (intro _)
    | fail_if_no_progress with_reducible refine Follows.put ?_ rfl
    | with_reducible assumption
    | with_reducible apply cutOp_follows
    | with_reducible apply markLost_follows
    | with_reducible apply State.updQuay_follows
    | with_reducible apply Follows.ite
    | with_reducible apply Follows.fold
    | split

theorem loseReplay_follows {a1} {a2} (h : Follows z s) :
    Follows z (loseReplay a1 a2 s) := by
  unfold loseReplay
  try dsimp only
  repeat' first
    | (intro _)
    | fail_if_no_progress with_reducible refine Follows.put ?_ rfl
    | with_reducible assumption
    | with_reducible apply markLost_follows
    | with_reducible apply Follows.ite
    | with_reducible apply Follows.fold

theorem breakSess_follows {a1} {a2} (h : Follows z s) :
    Follows z (breakSess a1 a2 s) := by
  unfold breakSess
  try dsimp only
  repeat' first
    | (intro _)
    | fail_if_no_progress with_reducible refine Follows.put ?_ rfl
    | with_reducible assumption
    | with_reducible apply loseReplay_follows
    | with_reducible apply endSessOps_follows
    | with_reducible apply purgeQueues_follows
    | with_reducible apply raiseBoth_follows
    | with_reducible apply bump_follows
    | with_reducible apply State.setSess_follows
    | with_reducible apply Follows.ite

theorem revokeSess_follows {a1} (h : Follows z s) :
    Follows z (revokeSess a1 s) := by
  unfold revokeSess
  try dsimp only
  repeat' first
    | (intro _)
    | fail_if_no_progress with_reducible refine Follows.put ?_ rfl
    | with_reducible assumption
    | with_reducible apply endSessOps_follows
    | with_reducible apply purgeQueues_follows
    | with_reducible apply State.setSess_follows
    | with_reducible apply Follows.ite

theorem revokedEnd_follows {a1} (h : Follows z s) :
    Follows z (revokedEnd a1 s) := by
  unfold revokedEnd
  try dsimp only
  repeat' first
    | (intro _)
    | fail_if_no_progress with_reducible refine Follows.put ?_ rfl
    | with_reducible assumption
    | with_reducible apply State.setSess_follows
    | with_reducible apply Follows.ite

theorem closeSess_follows {a1} (h : Follows z s) :
    Follows z (closeSess a1 s) := by
  unfold closeSess
  try dsimp only
  repeat' first
    | (intro _)
    | fail_if_no_progress with_reducible refine Follows.put ?_ rfl
    | with_reducible assumption
    | with_reducible apply loseReplay_follows
    | with_reducible apply endSessOps_follows
    | with_reducible apply purgeQueues_follows
    | with_reducible apply cutOp_follows
    | with_reducible apply zeroiseBerth_follows
    | with_reducible apply State.setSess_follows
    | with_reducible apply Follows.ite
    | with_reducible apply Follows.fold
    | split

theorem enterPacket_follows {a1} {a2} (h : Follows z s) :
    FollowsOP z (enterPacket a1 a2 s) := by
  unfold enterPacket
  try dsimp only
  repeat' first
    | (intro _)
    | fail_if_no_progress with_reducible refine Follows.put ?_ rfl
    | with_reducible assumption
    | with_reducible apply bumpTen_follows
    | with_reducible apply State.setSess_follows
    | with_reducible apply State.updQuay_follows
    | with_reducible apply Follows.ite
    | with_reducible apply Follows.fold
    | with_reducible exact FollowsOP.none
    | with_reducible apply FollowsOP.some
    | with_reducible apply FollowsOP.getD
    | with_reducible apply FollowsOP.mapP
    | with_reducible apply FollowsOP.map
    | split

theorem anumEnd_follows {a1} {a2} (h : Follows z s) :
    Follows z (anumEnd a1 a2 s) := by
  unfold anumEnd
  try dsimp only
  repeat' first
    | (intro _)
    | fail_if_no_progress with_reducible refine Follows.put ?_ rfl
    | with_reducible assumption
    | with_reducible apply breakSess_follows
    | with_reducible apply flitRefuse_follows
    | with_reducible apply finishOp_follows
    | with_reducible apply Follows.ite
    | with_reducible apply Follows.fold
    | split

theorem flushBuf_follows {a1} {a2} {a3} (h : Follows z s) :
    Follows z (flushBuf a1 a2 a3 s) := by
  unfold flushBuf
  try dsimp only
  repeat' first
    | (intro _)
    | fail_if_no_progress with_reducible refine Follows.put ?_ rfl
    | with_reducible assumption
    | with_reducible apply bump_follows
    | with_reducible apply State.setQuay_follows
    | with_reducible apply Follows.ite

theorem gwAppend_follows {a1} {a2} (h : Follows z s) :
    FollowsO z (gwAppend a1 a2 s) := by
  unfold gwAppend
  try dsimp only
  repeat' first
    | (intro _)
    | fail_if_no_progress with_reducible refine Follows.put ?_ rfl
    | with_reducible assumption
    | with_reducible apply flushBuf_follows
    | with_reducible apply anumEnd_follows
    | with_reducible apply enterPacket_follows
    | with_reducible apply bump_follows
    | with_reducible apply State.updQuay_follows
    | with_reducible apply Follows.ite
    | with_reducible apply Follows.fold
    | with_reducible exact FollowsO.none
    | with_reducible apply FollowsO.some
    | with_reducible apply FollowsO.getD
    | with_reducible apply FollowsO.orElse
    | with_reducible apply FollowsO.map
    | with_reducible exact FollowsOP.none
    | with_reducible apply FollowsOP.some
    | with_reducible apply FollowsOP.getD
    | with_reducible apply FollowsOP.mapP
    | with_reducible apply FollowsOP.map
    | split
    | refine FollowsO.eq (by assumption) ?_
    | refine FollowsOP.eq (by assumption) ?_

theorem gwStep_follows {a1} {a2} (h : Follows z s) :
    FollowsO z (gwStep a1 a2 s) := by
  unfold gwStep
  try dsimp only
  repeat' first
    | (intro _)
    | fail_if_no_progress with_reducible refine Follows.put ?_ rfl
    | with_reducible assumption
    | with_reducible apply gwAppend_follows
    | with_reducible apply State.updQuay_follows
    | with_reducible apply Follows.ite
    | with_reducible apply Follows.fold
    | with_reducible exact FollowsO.none
    | with_reducible apply FollowsO.some
    | with_reducible apply FollowsO.getD
    | with_reducible apply FollowsO.orElse
    | with_reducible apply FollowsO.map
    | split
    | refine FollowsO.eq (by assumption) ?_

theorem gwFill_follows {a1} {a2} (h : Follows z s) :
    Follows z (gwFill a1 a2 s) := by
  induction a2 generalizing s with
  | zero =>
    unfold gwFill
    try dsimp only
    repeat' first
      | (intro _)
      | fail_if_no_progress with_reducible refine Follows.put ?_ rfl
      | with_reducible assumption
  | succ n ih =>
    unfold gwFill
    try dsimp only
    repeat' first
      | (intro _)
      | fail_if_no_progress with_reducible refine Follows.put ?_ rfl
      | with_reducible apply ih
      | with_reducible assumption
      | with_reducible apply gwStep_follows
      | with_reducible apply Follows.ite
      | with_reducible apply Follows.fold
      | with_reducible exact FollowsO.none
      | with_reducible apply FollowsO.some
      | with_reducible apply FollowsO.getD
      | with_reducible apply FollowsO.orElse
      | with_reducible apply FollowsO.map
      | split
      | refine FollowsO.eq (by assumption) ?_

theorem startData_follows {a1} {a2} {a3} {a4} {a5} {a6} {a7} (h : Follows z s) :
    FollowsP z (startData a1 a2 a3 a4 a5 a6 a7 s) := by
  unfold startData
  try dsimp only
  repeat' first
    | (intro _)
    | fail_if_no_progress with_reducible refine Follows.put ?_ rfl
    | with_reducible assumption
    | with_reducible apply breakSess_follows
    | with_reducible apply sendFrame_follows
    | with_reducible apply sealFrame_follows
    | with_reducible apply raiseBoth_follows
    | with_reducible apply bumpTen_follows
    | with_reducible apply bump_follows
    | with_reducible apply State.setSess_follows
    | with_reducible apply Follows.ite
    | with_reducible apply Follows.fold
    | with_reducible apply FollowsP.ite
    | with_reducible apply FollowsP.mk
    | with_reducible refine FollowsP3.snd (sealFrame_follows ?_)

theorem itemStarted_follows {a1} (h : Follows z s) :
    Follows z (itemStarted a1 s) := by
  unfold itemStarted
  try dsimp only
  repeat' first
    | (intro _)
    | fail_if_no_progress with_reducible refine Follows.put ?_ rfl
    | with_reducible assumption
    | with_reducible apply finishOp_follows
    | with_reducible apply ctxBytes_follows
    | with_reducible apply State.updOp_follows
    | with_reducible apply Follows.ite
    | with_reducible apply Follows.fold
    | split

theorem itemFailed_follows {a1} {a2} {a3} (h : Follows z s) :
    Follows z (itemFailed a1 a2 a3 s) := by
  unfold itemFailed
  try dsimp only
  repeat' first
    | (intro _)
    | fail_if_no_progress with_reducible refine Follows.put ?_ rfl
    | with_reducible assumption
    | with_reducible apply flitRefuse_follows
    | with_reducible apply finishOp_follows
    | with_reducible apply Follows.ite
    | with_reducible apply Follows.fold
    | split

theorem startItem_follows {a1} {a2} {a3} (h : Follows z s) :
    FollowsO z (startItem a1 a2 a3 s) := by
  unfold startItem
  try dsimp only
  repeat' first
    | (intro _)
    | fail_if_no_progress with_reducible refine Follows.put ?_ rfl
    | with_reducible assumption
    | with_reducible apply itemFailed_follows
    | with_reducible apply itemStarted_follows
    | with_reducible apply startData_follows
    | with_reducible apply anumEnd_follows
    | with_reducible apply enterPacket_follows
    | with_reducible apply State.updQuay_follows
    | with_reducible apply Follows.ite
    | with_reducible apply Follows.fold
    | with_reducible apply FollowsP.ite
    | with_reducible apply FollowsP.mk
    | with_reducible refine FollowsP.snd (startData_follows ?_)
    | with_reducible exact FollowsO.none
    | with_reducible apply FollowsO.some
    | with_reducible apply FollowsO.getD
    | with_reducible apply FollowsO.orElse
    | with_reducible apply FollowsO.map
    | with_reducible exact FollowsOP.none
    | with_reducible apply FollowsOP.some
    | with_reducible apply FollowsOP.getD
    | with_reducible apply FollowsOP.mapP
    | with_reducible apply FollowsOP.map
    | split
    | refine FollowsP.eq (by assumption) ?_
    | refine FollowsO.eq (by assumption) ?_
    | refine FollowsOP.eq (by assumption) ?_

theorem orderFlush_follows {a1} {a2} (h : Follows z s) :
    Follows z (orderFlush a1 a2 s) := by
  unfold orderFlush
  try dsimp only
  repeat' first
    | (intro _)
    | fail_if_no_progress with_reducible refine Follows.put ?_ rfl
    | with_reducible assumption
    | with_reducible apply flushBuf_follows
    | with_reducible apply Follows.ite

theorem startBulk_follows {a1} (h : Follows z s) :
    FollowsO z (startBulk a1 s) := by
  unfold startBulk
  try dsimp only
  repeat' first
    | (intro _)
    | fail_if_no_progress with_reducible refine Follows.put ?_ rfl
    | with_reducible assumption
    | with_reducible apply itemFailed_follows
    | with_reducible apply itemStarted_follows
    | with_reducible apply startData_follows
    | with_reducible apply State.updQuay_follows
    | with_reducible apply Follows.ite
    | with_reducible apply Follows.fold
    | with_reducible apply FollowsP.ite
    | with_reducible apply FollowsP.mk
    | with_reducible refine FollowsP.snd (startData_follows ?_)
    | with_reducible exact FollowsO.none
    | with_reducible apply FollowsO.some
    | with_reducible apply FollowsO.getD
    | with_reducible apply FollowsO.orElse
    | with_reducible apply FollowsO.map
    | split

theorem startResend_follows {a1} (h : Follows z s) :
    FollowsO z (startResend a1 s) := by
  unfold startResend
  try dsimp only
  repeat' first
    | (intro _)
    | fail_if_no_progress with_reducible refine Follows.put ?_ rfl
    | with_reducible assumption
    | with_reducible apply startData_follows
    | with_reducible apply bump_follows
    | with_reducible apply State.updQuay_follows
    | with_reducible apply Follows.ite
    | with_reducible apply Follows.fold
    | with_reducible apply FollowsP.ite
    | with_reducible apply FollowsP.mk
    | with_reducible refine FollowsP.snd (startData_follows ?_)
    | with_reducible exact FollowsO.none
    | with_reducible apply FollowsO.some
    | with_reducible apply FollowsO.getD
    | with_reducible apply FollowsO.orElse
    | with_reducible apply FollowsO.map
    | split

theorem startCtl_follows {a1} {a2} (h : Follows z s) :
    FollowsO z (startCtl a1 a2 s) := by
  unfold startCtl
  try dsimp only
  repeat' first
    | (intro _)
    | fail_if_no_progress with_reducible refine Follows.put ?_ rfl
    | with_reducible assumption
    | with_reducible apply breakSess_follows
    | with_reducible apply sendFrame_follows
    | with_reducible apply sealFrame_follows
    | with_reducible apply raiseBoth_follows
    | with_reducible apply bump_follows
    | with_reducible apply State.setSess_follows
    | with_reducible apply State.updQuay_follows
    | with_reducible apply Follows.ite
    | with_reducible apply Follows.fold
    | with_reducible refine FollowsP3.snd (sealFrame_follows ?_)
    | with_reducible exact FollowsO.none
    | with_reducible apply FollowsO.some
    | with_reducible apply FollowsO.getD
    | with_reducible apply FollowsO.orElse
    | with_reducible apply FollowsO.map
    | split

theorem startRetx_follows {a1} (h : Follows z s) :
    FollowsO z (startRetx a1 s) := by
  unfold startRetx
  try dsimp only
  repeat' first
    | (intro _)
    | fail_if_no_progress with_reducible refine Follows.put ?_ rfl
    | with_reducible assumption
    | with_reducible apply sendFrame_follows
    | with_reducible apply State.setQuay_follows
    | with_reducible apply Follows.ite
    | with_reducible apply Follows.fold
    | with_reducible exact FollowsO.none
    | with_reducible apply FollowsO.some
    | with_reducible apply FollowsO.getD
    | with_reducible apply FollowsO.orElse
    | with_reducible apply FollowsO.map
    | split

theorem retransmit_follows {a1} {a2} (h : Follows z s) :
    Follows z (retransmit a1 a2 s) := by
  unfold retransmit
  try dsimp only
  repeat' first
    | (intro _)
    | fail_if_no_progress with_reducible refine Follows.put ?_ rfl
    | with_reducible assumption
    | with_reducible apply sealFrame_follows
    | with_reducible apply txMove_follows
    | with_reducible apply bump_follows
    | with_reducible apply State.updSess_follows
    | with_reducible apply State.updQuay_follows
    | with_reducible apply Follows.ite
    | with_reducible apply Follows.fold
    | with_reducible apply FollowsP.ite
    | with_reducible apply FollowsP.mk
    | with_reducible refine FollowsP3.snd (sealFrame_follows ?_)
    | with_reducible refine FollowsP.snd (txMove_follows ?_)
    | split

theorem retxLimit_follows {a1} {a2} (h : Follows z s) :
    Follows z (retxLimit a1 a2 s) := by
  unfold retxLimit
  try dsimp only
  repeat' first
    | (intro _)
    | fail_if_no_progress with_reducible refine Follows.put ?_ rfl
    | with_reducible assumption
    | with_reducible apply breakSess_follows
    | with_reducible apply Follows.ite
    | with_reducible apply Follows.fold
    | split

theorem ctlDue_follows {a1} {a2} (h : Follows z s) :
    Follows z (ctlDue a1 a2 s) := by
  unfold ctlDue
  try dsimp only
  repeat' first
    | (intro _)
    | fail_if_no_progress with_reducible refine Follows.put ?_ rfl
    | with_reducible assumption
    | with_reducible apply State.updQuay_follows

theorem ackIn_follows {a1} {a2} (h : Follows z s) :
    Follows z (ackIn a1 a2 s) := by
  unfold ackIn
  try dsimp only
  repeat' first
    | (intro _)
    | fail_if_no_progress with_reducible refine Follows.put ?_ rfl
    | with_reducible assumption
    | with_reducible apply State.setSess_follows
    | with_reducible apply Follows.ite

theorem sackIn_follows {a1} {a2} {a3} (h : Follows z s) :
    Follows z (sackIn a1 a2 a3 s) := by
  unfold sackIn
  try dsimp only
  repeat' first
    | (intro _)
    | fail_if_no_progress with_reducible refine Follows.put ?_ rfl
    | with_reducible assumption
    | with_reducible apply State.updSess_follows

theorem rxgenIn_follows {a1} {a2} (h : Follows z s) :
    Follows z (rxgenIn a1 a2 s) := by
  unfold rxgenIn
  try dsimp only
  repeat' first
    | (intro _)
    | fail_if_no_progress with_reducible refine Follows.put ?_ rfl
    | with_reducible assumption
    | with_reducible apply State.updSess_follows

theorem releaseNoted_follows {a1} (h : Follows z s) :
    Follows z (releaseNoted a1 s) := by
  unfold releaseNoted
  try dsimp only
  repeat' first
    | (intro _)
    | fail_if_no_progress with_reducible refine Follows.put ?_ rfl
    | with_reducible assumption
    | with_reducible apply ctlDue_follows
    | with_reducible apply State.setSess_follows
    | with_reducible apply Follows.ite

theorem ackDelay_follows {a1} (h : Follows z s) :
    Follows z (ackDelay a1 s) := by
  unfold ackDelay
  try dsimp only
  repeat' first
    | (intro _)
    | fail_if_no_progress with_reducible refine Follows.put ?_ rfl
    | with_reducible assumption
    | with_reducible apply ctlDue_follows
    | with_reducible apply Follows.ite

theorem rxFail_follows {a1} {a2} (h : Follows z s) :
    Follows z (rxFail a1 a2 s) := by
  unfold rxFail
  try dsimp only
  repeat' first
    | (intro _)
    | fail_if_no_progress with_reducible refine Follows.put ?_ rfl
    | with_reducible assumption
    | with_reducible apply bumpIf_follows
    | with_reducible apply bump_follows

theorem probeIn_follows {a1} {a2} {a3} {a4} (h : Follows z s) :
    Follows z (probeIn a1 a2 a3 a4 s) := by
  unfold probeIn
  try dsimp only
  repeat' first
    | (intro _)
    | fail_if_no_progress with_reducible refine Follows.put ?_ rfl
    | with_reducible assumption
    | with_reducible apply ctlDue_follows
    | with_reducible apply rxMove_follows
    | with_reducible apply Follows.ite

theorem authFrame_follows {a1} {a2} {a3} {a4} {a5} (h : Follows z s) :
    Follows z (authFrame a1 a2 a3 a4 a5 s) := by
  unfold authFrame
  try dsimp only
  repeat' first
    | (intro _)
    | fail_if_no_progress with_reducible refine Follows.put ?_ rfl
    | with_reducible assumption
    | with_reducible apply probeIn_follows
    | with_reducible apply rxgenIn_follows
    | with_reducible apply sackIn_follows
    | with_reducible apply ackIn_follows
    | with_reducible apply rxMove_follows
    | with_reducible apply bump_follows
    | with_reducible apply State.updSess_follows
    | with_reducible apply State.setSess_follows
    | with_reducible apply Follows.ite

theorem receiveFrame_follows {a1} {a2} {a3} {a4} (h : Follows z s) :
    Follows z (receiveFrame a1 a2 a3 a4 s) := by
  unfold receiveFrame
  try dsimp only
  repeat' first
    | (intro _)
    | fail_if_no_progress with_reducible refine Follows.put ?_ rfl
    | with_reducible assumption
    | with_reducible apply authFrame_follows
    | with_reducible apply rxFail_follows
    | with_reducible apply genKey_follows
    | with_reducible apply bump_follows
    | with_reducible apply Follows.ite
    | with_reducible apply Follows.fold
    | with_reducible refine FollowsP2.snd (genKey_follows ?_)
    | split

theorem flitPacket_follows {a1} {a2} (h : Follows z s) :
    Follows z (flitPacket a1 a2 s) := by
  unfold flitPacket
  try dsimp only
  repeat' first
    | (intro _)
    | fail_if_no_progress with_reducible refine Follows.put ?_ rfl
    | with_reducible assumption
    | with_reducible apply breakSess_follows
    | with_reducible apply flitRefuse_follows
    | with_reducible apply State.updQuay_follows
    | with_reducible apply Follows.ite

theorem migrDone_follows (h : Follows z s) :
    Follows z (migrDone s) := by
  unfold migrDone
  try dsimp only
  repeat' first
    | (intro _)
    | fail_if_no_progress with_reducible refine Follows.put ?_ rfl
    | with_reducible assumption
    | with_reducible apply mbEnd_follows
    | with_reducible apply Follows.ite

theorem migrStart_follows {a1} {a2} (h : Follows z s) :
    FollowsP z (migrStart a1 a2 s) := by
  unfold migrStart
  try dsimp only
  repeat' first
    | (intro _)
    | fail_if_no_progress with_reducible refine Follows.put ?_ rfl
    | with_reducible assumption
    | with_reducible apply breakSess_follows
    | with_reducible apply State.updSess_follows
    | with_reducible apply Follows.ite
    | with_reducible apply Follows.fold
    | with_reducible apply FollowsP.ite
    | with_reducible apply FollowsP.mk

theorem migrAsk_follows {a1} {a2} (h : Follows z s) :
    Follows z (migrAsk a1 a2 s) := by
  unfold migrAsk
  try dsimp only
  repeat' first
    | (intro _)
    | fail_if_no_progress with_reducible refine Follows.put ?_ rfl
    | with_reducible assumption
    | with_reducible apply migrStart_follows
    | with_reducible apply Follows.ite
    | with_reducible apply Follows.fold
    | with_reducible apply FollowsP.ite
    | with_reducible apply FollowsP.mk
    | with_reducible refine FollowsP.snd (migrStart_follows ?_)

theorem migrNext_follows {a1} (h : Follows z s) :
    Follows z (migrNext a1 s) := by
  induction a1 generalizing s with
  | zero =>
    unfold migrNext
    try dsimp only
    repeat' first
      | (intro _)
      | fail_if_no_progress with_reducible refine Follows.put ?_ rfl
      | with_reducible assumption
  | succ n ih =>
    unfold migrNext
    try dsimp only
    repeat' first
      | (intro _)
      | fail_if_no_progress with_reducible refine Follows.put ?_ rfl
      | with_reducible apply ih
      | with_reducible assumption
      | with_reducible apply migrStart_follows
      | with_reducible apply Follows.ite
      | with_reducible apply Follows.fold
      | with_reducible apply FollowsP.ite
      | with_reducible apply FollowsP.mk
      | with_reducible refine FollowsP.snd (migrStart_follows ?_)
      | split

theorem moveQueues_follows {a1} {a2} {a3} (h : Follows z s) :
    Follows z (moveQueues a1 a2 a3 s) := by
  unfold moveQueues
  try dsimp only
  repeat' first
    | (intro _)
    | fail_if_no_progress with_reducible refine Follows.put ?_ rfl
    | with_reducible assumption
    | with_reducible apply flitRefuse_follows
    | with_reducible apply State.updQuay_follows
    | with_reducible apply Follows.ite
    | with_reducible apply Follows.fold

theorem moveComplete_follows {a1} (h : Follows z s) :
    Follows z (moveComplete a1 s) := by
  unfold moveComplete
  try dsimp only
  repeat' first
    | (intro _)
    | fail_if_no_progress with_reducible refine Follows.put ?_ rfl
    | with_reducible assumption
    | with_reducible apply moveQueues_follows
    | with_reducible apply migrDone_follows
    | with_reducible apply ctlDue_follows
    | with_reducible apply breakSess_follows
    | with_reducible apply rxMove_follows
    | with_reducible apply writeBerth_follows
    | with_reducible apply raiseBoth_follows
    | with_reducible apply State.setSess_follows
    | with_reducible apply Follows.ite
    | with_reducible apply Follows.fold
    | with_reducible apply FollowsP.ite
    | with_reducible apply FollowsP.mk
    | with_reducible refine FollowsP.snd (writeBerth_follows ?_)
    | split

theorem probeRepeat_follows {a1} (h : Follows z s) :
    Follows z (probeRepeat a1 s) := by
  unfold probeRepeat
  try dsimp only
  repeat' first
    | (intro _)
    | fail_if_no_progress with_reducible refine Follows.put ?_ rfl
    | with_reducible assumption
    | with_reducible apply ctlDue_follows
    | with_reducible apply breakSess_follows
    | with_reducible apply State.setSess_follows
    | with_reducible apply Follows.ite
    | with_reducible apply Follows.fold
    | split

theorem linkFalls_follows {a1} (h : Follows z s) :
    Follows z (linkFalls a1 s) := by
  unfold linkFalls
  try dsimp only
  repeat' first
    | (intro _)
    | fail_if_no_progress with_reducible refine Follows.put ?_ rfl
    | with_reducible assumption
    | with_reducible apply migrAsk_follows
    | with_reducible apply State.updQuay_follows
    | with_reducible apply Follows.ite

theorem linkRises_follows {a1} (h : Follows z s) :
    Follows z (linkRises a1 s) := by
  unfold linkRises
  try dsimp only
  repeat' first
    | (intro _)
    | fail_if_no_progress with_reducible refine Follows.put ?_ rfl
    | with_reducible assumption
    | with_reducible apply State.updQuay_follows
    | with_reducible apply Follows.ite

theorem quayCtrl_follows {a1} {a2} {a3} (h : Follows z s) :
    Follows z (quayCtrl a1 a2 a3 s) := by
  unfold quayCtrl
  try dsimp only
  repeat' first
    | (intro _)
    | fail_if_no_progress with_reducible refine Follows.put ?_ rfl
    | with_reducible assumption
    | with_reducible apply policyWrite_follows
    | with_reducible apply regGuard_follows
    | with_reducible apply State.updQuay_follows
    | with_reducible apply Follows.ite

theorem gwTime_follows {a1} {a2} (h : Follows z s) :
    Follows z (gwTime a1 a2 s) := by
  unfold gwTime
  try dsimp only
  repeat' first
    | (intro _)
    | fail_if_no_progress with_reducible refine Follows.put ?_ rfl
    | with_reducible assumption
    | with_reducible apply flushBuf_follows

end Sys2Proof.Machine
end

