-- ==== Sys2Proof/Laws/FollowsReduceOps.lean ====
section
/-! SUPPORT. The operations of Machine/ReduceOps.lean follow. -/

namespace Sys2Proof.Machine

variable {z s : State}

theorem State.updChunk_follows {a1} {a2} {a3} (h : Follows z s) :
    Follows z (State.updChunk s a1 a2 a3) := by
  unfold State.updChunk
  try dsimp only
  repeat' first
    | (intro _)
    | fail_if_no_progress with_reducible refine Follows.put ?_ rfl
    | with_reducible assumption
    | with_reducible apply State.updSlot_follows

theorem redCnt_follows {a1} (h : Follows z s) :
    Follows z (redCnt a1 s) := by
  unfold redCnt
  try dsimp only
  repeat' first
    | (intro _)
    | fail_if_no_progress with_reducible refine Follows.put ?_ rfl
    | with_reducible assumption
    | with_reducible apply bump_follows

theorem redCntBy_follows {a1} {a2} (h : Follows z s) :
    Follows z (redCntBy a1 a2 s) := by
  unfold redCntBy
  try dsimp only
  repeat' first
    | (intro _)
    | fail_if_no_progress with_reducible refine Follows.put ?_ rfl
    | with_reducible assumption
    | with_reducible apply bumpBy_follows
    | with_reducible apply Follows.ite

theorem slotClose_follows {a1} {a2} (h : Follows z s) :
    Follows z (slotClose a1 a2 s) := by
  unfold slotClose
  try dsimp only
  repeat' first
    | (intro _)
    | fail_if_no_progress with_reducible refine Follows.put ?_ rfl
    | with_reducible assumption
    | with_reducible apply redCnt_follows
    | with_reducible apply trace_follows
    | with_reducible apply dropRefs_follows
    | with_reducible apply ctxEnd_follows
    | with_reducible apply markLost_follows
    | with_reducible apply State.setSlot_follows
    | with_reducible apply Follows.ite

theorem slotFail_follows {a1} {a2} (h : Follows z s) :
    Follows z (slotFail a1 a2 s) := by
  unfold slotFail
  try dsimp only
  repeat' first
    | (intro _)
    | fail_if_no_progress with_reducible refine Follows.put ?_ rfl
    | with_reducible assumption
    | with_reducible apply slotClose_follows
    | with_reducible apply breakBoll_follows
    | with_reducible apply raiseBoth_follows
    | with_reducible apply State.setSlot_follows
    | with_reducible apply Follows.ite

theorem slotDone_follows {a1} (h : Follows z s) :
    Follows z (slotDone a1 s) := by
  unfold slotDone
  try dsimp only
  repeat' first
    | (intro _)
    | fail_if_no_progress with_reducible refine Follows.put ?_ rfl
    | with_reducible assumption
    | with_reducible apply slotClose_follows
    | with_reducible apply signalAdd_follows
    | with_reducible apply State.setSlot_follows
    | with_reducible apply Follows.ite
    | with_reducible apply Follows.fold
    | with_reducible refine FollowsP2.snd (signalAdd_follows ?_)
    | split

theorem chunkOut_follows {a1} {a2} (h : Follows z s) :
    Follows z (chunkOut a1 a2 s) := by
  unfold chunkOut
  try dsimp only
  repeat' first
    | (intro _)
    | fail_if_no_progress with_reducible refine Follows.put ?_ rfl
    | with_reducible assumption
    | with_reducible apply slotDone_follows
    | with_reducible apply State.updChunk_follows
    | with_reducible apply State.updSlot_follows
    | with_reducible apply Follows.ite

theorem combinePair_follows {a1} {a2} {a3} {a4} {a5} (h : Follows z s) :
    FollowsP z (combinePair a1 a2 a3 a4 a5 s) := by
  unfold combinePair
  try dsimp only
  repeat' first
    | (intro _)
    | fail_if_no_progress with_reducible refine Follows.put ?_ rfl
    | with_reducible assumption
    | with_reducible apply redCntBy_follows
    | with_reducible apply redCnt_follows
    | with_reducible apply State.updChunk_follows
    | with_reducible apply beat_follows
    | with_reducible apply bumpTen_follows
    | with_reducible apply bump_follows
    | with_reducible apply Follows.ite
    | with_reducible apply Follows.fold
    | with_reducible apply FollowsP.ite
    | with_reducible apply FollowsP.mk

theorem foldChunk_follows {a1} {a2} {a3} (h : Follows z s) :
    Follows z (foldChunk a1 a2 a3 s) := by
  induction a3 generalizing s with
  | zero =>
    unfold foldChunk
    try dsimp only
    repeat' first
      | (intro _)
      | fail_if_no_progress with_reducible refine Follows.put ?_ rfl
      | with_reducible assumption
  | succ n ih =>
    unfold foldChunk
    try dsimp only
    repeat' first
      | (intro _)
      | fail_if_no_progress with_reducible refine Follows.put ?_ rfl
      | with_reducible apply ih
      | with_reducible assumption
      | with_reducible apply combinePair_follows
      | with_reducible apply State.updChunk_follows
      | with_reducible apply Follows.ite
      | with_reducible apply Follows.fold
      | with_reducible apply FollowsP.ite
      | with_reducible apply FollowsP.mk
      | with_reducible refine FollowsP.snd (combinePair_follows ?_)
      | split

theorem finalVals_follows {a1} {a2} (h : Follows z s) :
    FollowsP z (finalVals a1 a2 s) := by
  unfold finalVals
  try dsimp only
  repeat' first
    | (intro _)
    | fail_if_no_progress with_reducible refine Follows.put ?_ rfl
    | with_reducible assumption
    | with_reducible apply redCntBy_follows
    | with_reducible apply Follows.ite
    | with_reducible apply Follows.fold
    | with_reducible apply FollowsP.ite
    | with_reducible apply FollowsP.mk

theorem narrowed_follows {a1} {a2} (h : Follows z s) :
    FollowsP2 z (narrowed a1 a2 s) := by
  unfold narrowed
  try dsimp only
  repeat' first
    | (intro _)
    | fail_if_no_progress with_reducible refine Follows.put ?_ rfl
    | with_reducible assumption
    | with_reducible apply redCntBy_follows
    | with_reducible apply Follows.ite
    | with_reducible apply Follows.fold
    | with_reducible apply FollowsP2.mk

theorem storeNext_follows {a1} {a2} (h : Follows z s) :
    Follows z (storeNext a1 a2 s) := by
  unfold storeNext
  try dsimp only
  repeat' first
    | (intro _)
    | fail_if_no_progress with_reducible refine Follows.put ?_ rfl
    | with_reducible assumption
    | with_reducible apply State.updChunk_follows
    | with_reducible apply submitPiece_follows
    | with_reducible apply Follows.ite
    | with_reducible apply Follows.fold
    | split

theorem chunkOutput_follows {a1} {a2} (h : Follows z s) :
    Follows z (chunkOutput a1 a2 s) := by
  unfold chunkOutput
  try dsimp only
  repeat' first
    | (intro _)
    | fail_if_no_progress with_reducible refine Follows.put ?_ rfl
    | with_reducible assumption
    | with_reducible apply storeNext_follows
    | with_reducible apply narrowed_follows
    | with_reducible apply finalVals_follows
    | with_reducible apply State.updChunk_follows
    | with_reducible apply State.updQuay_follows
    | with_reducible apply Follows.ite
    | with_reducible apply Follows.fold
    | with_reducible apply FollowsP.ite
    | with_reducible apply FollowsP.mk
    | with_reducible refine FollowsP2.snd (narrowed_follows ?_)
    | with_reducible refine FollowsP.snd (finalVals_follows ?_)
    | split

theorem forwardPayload_follows {a1} {a2} (h : Follows z s) :
    FollowsP z (forwardPayload a1 a2 s) := by
  unfold forwardPayload
  try dsimp only
  repeat' first
    | (intro _)
    | fail_if_no_progress with_reducible refine Follows.put ?_ rfl
    | with_reducible assumption
    | with_reducible apply narrowed_follows
    | with_reducible apply finalVals_follows
    | with_reducible apply Follows.ite
    | with_reducible apply Follows.fold
    | with_reducible apply FollowsP.ite
    | with_reducible apply FollowsP.mk
    | with_reducible refine FollowsP2.snd (narrowed_follows ?_)
    | with_reducible refine FollowsP.snd (finalVals_follows ?_)

theorem startForward_follows {a1} (h : Follows z s) :
    FollowsO z (startForward a1 s) := by
  unfold startForward
  try dsimp only
  repeat' first
    | (intro _)
    | fail_if_no_progress with_reducible refine Follows.put ?_ rfl
    | with_reducible assumption
    | with_reducible apply forwardPayload_follows
    | with_reducible apply chunkOut_follows
    | with_reducible apply slotFail_follows
    | with_reducible apply startData_follows
    | with_reducible apply breakSess_follows
    | with_reducible apply ctxBytes_follows
    | with_reducible apply State.updQuay_follows
    | with_reducible apply Follows.ite
    | with_reducible apply Follows.fold
    | with_reducible apply FollowsP.ite
    | with_reducible apply FollowsP.mk
    | with_reducible refine FollowsP.snd (forwardPayload_follows ?_)
    | with_reducible refine FollowsP.snd (startData_follows ?_)
    | with_reducible exact FollowsO.none
    | with_reducible apply FollowsO.some
    | with_reducible apply FollowsO.getD
    | with_reducible apply FollowsO.orElse
    | with_reducible apply FollowsO.map
    | split

theorem failForwards_follows {a1} (h : Follows z s) :
    Follows z (failForwards a1 s) := by
  unfold failForwards
  try dsimp only
  repeat' first
    | (intro _)
    | fail_if_no_progress with_reducible refine Follows.put ?_ rfl
    | with_reducible assumption
    | with_reducible apply slotFail_follows
    | with_reducible apply Follows.ite
    | with_reducible apply Follows.fold

theorem operandStart_follows {a1} {a2} (h : Follows z s) :
    Follows z (operandStart a1 a2 s) := by
  unfold operandStart
  try dsimp only
  repeat' first
    | (intro _)
    | fail_if_no_progress with_reducible refine Follows.put ?_ rfl
    | with_reducible assumption
    | with_reducible apply State.updChunk_follows
    | with_reducible apply submitPiece_follows

theorem operandLine_follows {a1} {a2} {a3} {a4} {a5} (h : Follows z s) :
    Follows z (operandLine a1 a2 a3 a4 a5 s) := by
  unfold operandLine
  try dsimp only
  repeat' first
    | (intro _)
    | fail_if_no_progress with_reducible refine Follows.put ?_ rfl
    | with_reducible assumption
    | with_reducible apply State.updChunk_follows
    | with_reducible apply submitPiece_follows
    | with_reducible apply ctxBytes_follows
    | with_reducible apply Follows.ite
    | with_reducible apply Follows.fold
    | split

theorem storeLine_follows {a1} {a2} {a3} {a4} (h : Follows z s) :
    Follows z (storeLine a1 a2 a3 a4 s) := by
  unfold storeLine
  try dsimp only
  repeat' first
    | (intro _)
    | fail_if_no_progress with_reducible refine Follows.put ?_ rfl
    | with_reducible assumption
    | with_reducible apply storeNext_follows
    | with_reducible apply State.updChunk_follows
    | with_reducible apply ctxBytes_follows
    | with_reducible apply Follows.ite
    | with_reducible apply Follows.fold
    | split

theorem chunkPump_follows {a1} {a2} (h : Follows z s) :
    Follows z (chunkPump a1 a2 s) := by
  unfold chunkPump
  try dsimp only
  repeat' first
    | (intro _)
    | fail_if_no_progress with_reducible refine Follows.put ?_ rfl
    | with_reducible assumption
    | with_reducible apply operandStart_follows
    | with_reducible apply chunkOutput_follows
    | with_reducible apply foldChunk_follows
    | with_reducible apply State.updChunk_follows
    | with_reducible apply Follows.ite
    | with_reducible apply Follows.fold
    | split

theorem slotPump_follows {a1} (h : Follows z s) :
    Follows z (slotPump a1 s) := by
  unfold slotPump
  try dsimp only
  repeat' first
    | (intro _)
    | fail_if_no_progress with_reducible refine Follows.put ?_ rfl
    | with_reducible assumption
    | with_reducible apply chunkPump_follows
    | with_reducible apply Follows.ite
    | with_reducible apply Follows.fold

theorem redPump_follows (h : Follows z s) :
    Follows z (redPump s) := by
  unfold redPump
  try dsimp only
  repeat' first
    | (intro _)
    | fail_if_no_progress with_reducible refine Follows.put ?_ rfl
    | with_reducible assumption
    | with_reducible apply slotPump_follows
    | with_reducible apply Follows.ite
    | with_reducible apply Follows.fold

theorem hdrErr_follows {a1} {a2} (h : Follows z s) :
    Follows z (hdrErr a1 a2 s) := by
  unfold hdrErr
  try dsimp only
  repeat' first
    | (intro _)
    | fail_if_no_progress with_reducible refine Follows.put ?_ rfl
    | with_reducible assumption
    | with_reducible apply redCnt_follows
    | with_reducible apply raiseTo_follows
    | with_reducible apply State.free_follows
    | with_reducible apply Follows.ite
    | with_reducible apply Follows.fold
    | with_reducible apply FollowsP.ite
    | with_reducible apply FollowsP.mk
    | with_reducible refine FollowsP.snd (State.free_follows ?_)
    | split

theorem permErr_follows {a1} {a2} (h : Follows z s) :
    Follows z (permErr a1 a2 s) := by
  unfold permErr
  try dsimp only
  repeat' first
    | (intro _)
    | fail_if_no_progress with_reducible refine Follows.put ?_ rfl
    | with_reducible assumption
    | with_reducible apply redCnt_follows
    | with_reducible apply raiseTo_follows
    | with_reducible apply State.free_follows
    | with_reducible apply Follows.ite
    | with_reducible apply Follows.fold
    | with_reducible apply FollowsP.ite
    | with_reducible apply FollowsP.mk
    | with_reducible refine FollowsP.snd (State.free_follows ?_)
    | split

theorem redExamine_follows {a1} {a2} (h : Follows z s) :
    Follows z (redExamine a1 a2 s) := by
  unfold redExamine
  try dsimp only
  repeat' first
    | (intro _)
    | fail_if_no_progress with_reducible refine Follows.put ?_ rfl
    | with_reducible assumption
    | with_reducible apply permErr_follows
    | with_reducible apply hdrErr_follows
    | with_reducible apply slotFail_follows
    | with_reducible apply redCnt_follows
    | with_reducible apply State.updChunk_follows
    | with_reducible apply ctxBytes_follows
    | with_reducible apply Follows.ite

theorem slotArm_follows {a1} {a2} (h : Follows z s) :
    Follows z (slotArm a1 a2 s) := by
  unfold slotArm
  try dsimp only
  repeat' first
    | (intro _)
    | fail_if_no_progress with_reducible refine Follows.put ?_ rfl
    | with_reducible assumption
    | with_reducible apply redExamine_follows
    | with_reducible apply slotDone_follows
    | with_reducible apply trace_follows
    | with_reducible apply addRefs_follows
    | with_reducible apply ctxBegin_follows
    | with_reducible apply bumpTen_follows
    | with_reducible apply bumpIf_follows
    | with_reducible apply State.fresh_follows
    | with_reducible apply State.setSlot_follows
    | with_reducible apply Follows.ite
    | with_reducible apply Follows.fold
    | with_reducible apply FollowsP.ite
    | with_reducible apply FollowsP.mk
    | with_reducible refine FollowsP.snd (State.fresh_follows ?_)

theorem operandArrives_follows {a1} {a2} (h : Follows z s) :
    Follows z (operandArrives a1 a2 s) := by
  unfold operandArrives
  try dsimp only
  repeat' first
    | (intro _)
    | fail_if_no_progress with_reducible refine Follows.put ?_ rfl
    | with_reducible assumption
    | with_reducible apply slotFail_follows
    | with_reducible apply State.updChunk_follows
    | with_reducible apply Follows.ite
    | with_reducible apply Follows.fold
    | split

theorem chunkStored_follows {a1} {a2} (h : Follows z s) :
    Follows z (chunkStored a1 a2 s) := by
  unfold chunkStored
  try dsimp only
  repeat' first
    | (intro _)
    | fail_if_no_progress with_reducible refine Follows.put ?_ rfl
    | with_reducible assumption
    | with_reducible apply chunkOut_follows
    | with_reducible apply slotFail_follows
    | with_reducible apply Follows.ite
    | with_reducible apply Follows.fold
    | split

theorem failSlots_follows {a1} {a2} (h : Follows z s) :
    Follows z (failSlots a1 a2 s) := by
  unfold failSlots
  try dsimp only
  repeat' first
    | (intro _)
    | fail_if_no_progress with_reducible refine Follows.put ?_ rfl
    | with_reducible assumption
    | with_reducible apply slotFail_follows
    | with_reducible apply Follows.ite
    | with_reducible apply Follows.fold

end Sys2Proof.Machine
end

