-- ==== Sys2Proof/Laws/FollowsMemOps.lean ====
section
/-! SUPPORT. The operations of Machine/MemOps.lean follow. -/

namespace Sys2Proof.Machine

variable {z s : State}

theorem sendStrand_follows {a1} (h : Follows z s) :
    Follows z (sendStrand a1 s) := by
  unfold sendStrand
  try dsimp only
  repeat' first
    | (intro _)
    | fail_if_no_progress with_reducible refine Follows.put ?_ rfl
    | with_reducible assumption
    | with_reducible apply State.updQuay_follows

theorem reply_follows {a1} {a2} {a3} {a4} {a5} {a6} (h : Follows z s) :
    Follows z (reply a1 a2 a3 a4 a5 a6 s) := by
  unfold reply
  try dsimp only
  repeat' first
    | (intro _)
    | fail_if_no_progress with_reducible refine Follows.put ?_ rfl
    | with_reducible assumption
    | with_reducible apply bump_follows
    | with_reducible apply State.updQuay_follows
    | with_reducible apply Follows.ite

theorem keepRecord_follows {a1} {a2} {a3} {a4} (h : Follows z s) :
    Follows z (keepRecord a1 a2 a3 a4 s) := by
  unfold keepRecord
  try dsimp only
  repeat' first
    | (intro _)
    | fail_if_no_progress with_reducible refine Follows.put ?_ rfl
    | with_reducible assumption
    | with_reducible apply startOp_follows
    | with_reducible apply ioWrite_follows
    | with_reducible apply Follows.ite
    | with_reducible apply Follows.fold
    | with_reducible apply FollowsP.ite
    | with_reducible apply FollowsP.mk
    | with_reducible refine FollowsP.snd (startOp_follows ?_)
    | split

theorem answer_follows {a1} {a2} {a3} {a4} {a5} {a6} (h : Follows z s) :
    Follows z (answer a1 a2 a3 a4 a5 a6 s) := by
  unfold answer
  try dsimp only
  repeat' first
    | (intro _)
    | fail_if_no_progress with_reducible refine Follows.put ?_ rfl
    | with_reducible assumption
    | with_reducible apply keepRecord_follows
    | with_reducible apply reply_follows
    | with_reducible apply Follows.ite

theorem targetEnd_follows {a1} (h : Follows z s) :
    Follows z (targetEnd a1 s) := by
  unfold targetEnd
  try dsimp only
  repeat' first
    | (intro _)
    | fail_if_no_progress with_reducible refine Follows.put ?_ rfl
    | with_reducible assumption
    | with_reducible apply answer_follows
    | with_reducible apply closeOp_follows
    | with_reducible apply Follows.ite
    | with_reducible apply Follows.fold
    | with_reducible apply FollowsP.ite
    | with_reducible apply FollowsP.mk
    | with_reducible refine FollowsP.snd (closeOp_follows ?_)
    | split

theorem advanceRel_follows {a1} (h : Follows z s) :
    Follows z (advanceRel a1 s) := by
  unfold advanceRel
  try dsimp only
  repeat' first
    | (intro _)
    | fail_if_no_progress with_reducible refine Follows.put ?_ rfl
    | with_reducible assumption
    | with_reducible apply releaseNoted_follows
    | with_reducible apply beat_follows
    | with_reducible apply bumpTen_follows
    | with_reducible apply State.setSess_follows

theorem packetTaken_follows {a1} (h : Follows z s) :
    Follows z (packetTaken a1 s) := by
  unfold packetTaken
  try dsimp only
  repeat' first
    | (intro _)
    | fail_if_no_progress with_reducible refine Follows.put ?_ rfl
    | with_reducible assumption
    | with_reducible apply advanceRel_follows
    | with_reducible apply Follows.ite

theorem recvTake_follows {a1} {a2} (h : Follows z s) :
    Follows z (recvTake a1 a2 s) := by
  unfold recvTake
  try dsimp only
  repeat' first
    | (intro _)
    | fail_if_no_progress with_reducible refine Follows.put ?_ rfl
    | with_reducible assumption
    | with_reducible apply ctxBytes_follows
    | with_reducible apply State.setOp_follows
    | with_reducible apply State.updSess_follows
    | with_reducible apply Follows.ite
    | with_reducible apply Follows.fold
    | split

theorem writesNext_follows {a1} (h : Follows z s) :
    Follows z (writesNext a1 s) := by
  unfold writesNext
  try dsimp only
  repeat' first
    | (intro _)
    | fail_if_no_progress with_reducible refine Follows.put ?_ rfl
    | with_reducible assumption
    | with_reducible apply finishOp_follows
    | with_reducible apply ioWrite_follows
    | with_reducible apply State.setOp_follows
    | with_reducible apply Follows.ite
    | with_reducible apply Follows.fold
    | split

theorem releaseFrame_follows {a1 : ℕ → Bytes → State → State} {a2} (h : Follows z s) (ha1 : ∀ y0 y1 u, Follows z u → Follows z (a1 y0 y1 u)) :
    Follows z (releaseFrame a1 a2 s) := by
  unfold releaseFrame
  try dsimp only
  repeat' first
    | (intro _)
    | fail_if_no_progress with_reducible refine Follows.put ?_ rfl
    | with_reducible assumption
    | with_reducible apply ha1
    | with_reducible apply writesNext_follows
    | with_reducible apply recvTake_follows
    | with_reducible apply advanceRel_follows
    | with_reducible apply redExamine_follows
    | with_reducible apply bump_follows
    | with_reducible apply emit_follows
    | with_reducible apply State.setSess_follows
    | with_reducible apply State.updQuay_follows
    | with_reducible apply Follows.ite
    | with_reducible apply Follows.fold
    | split

theorem tgtStart_follows {a1} {a2} {a3} {a4} (h : Follows z s) :
    FollowsP z (tgtStart a1 a2 a3 a4 s) := by
  unfold tgtStart
  try dsimp only
  repeat' first
    | (intro _)
    | fail_if_no_progress with_reducible refine Follows.put ?_ rfl
    | with_reducible assumption
    | with_reducible apply startOp_follows

theorem tgtApply_follows {a1} {a2} {a3} {a4} (h : Follows z s) :
    Follows z (tgtApply a1 a2 a3 a4 s) := by
  unfold tgtApply
  try dsimp only
  repeat' first
    | (intro _)
    | fail_if_no_progress with_reducible refine Follows.put ?_ rfl
    | with_reducible assumption
    | with_reducible apply tgtStart_follows
    | with_reducible apply answer_follows
    | with_reducible apply ioWrite_follows
    | with_reducible apply ioRead_follows
    | with_reducible apply Follows.ite
    | with_reducible apply Follows.fold
    | with_reducible apply FollowsP.ite
    | with_reducible apply FollowsP.mk
    | with_reducible refine FollowsP.snd (tgtStart_follows ?_)
    | split

theorem tgtReplay_follows {a1} {a2} {a3} (h : Follows z s) :
    Follows z (tgtReplay a1 a2 a3 s) := by
  unfold tgtReplay
  try dsimp only
  repeat' first
    | (intro _)
    | fail_if_no_progress with_reducible refine Follows.put ?_ rfl
    | with_reducible assumption
    | with_reducible apply tgtStart_follows
    | with_reducible apply reply_follows
    | with_reducible apply ioRead_follows
    | with_reducible apply bump_follows
    | with_reducible apply Follows.ite
    | with_reducible apply Follows.fold
    | with_reducible apply FollowsP.ite
    | with_reducible apply FollowsP.mk
    | with_reducible refine FollowsP.snd (tgtStart_follows ?_)
    | split

theorem recordRead'_follows {a1} {a2} {a3} (h : Follows z s) :
    Follows z (recordRead' a1 a2 a3 s) := by
  unfold recordRead'
  try dsimp only
  repeat' first
    | (intro _)
    | fail_if_no_progress with_reducible refine Follows.put ?_ rfl
    | with_reducible assumption
    | with_reducible apply reply_follows
    | with_reducible apply closeOp_follows
    | with_reducible apply bump_follows
    | with_reducible apply Follows.ite
    | with_reducible apply Follows.fold
    | with_reducible apply FollowsP.ite
    | with_reducible apply FollowsP.mk
    | with_reducible refine FollowsP.snd (closeOp_follows ?_)
    | split

theorem poolServe_follows {a1} {a2} {a3} {a4} (h : Follows z s) :
    Follows z (poolServe a1 a2 a3 a4 s) := by
  unfold poolServe
  try dsimp only
  repeat' first
    | (intro _)
    | fail_if_no_progress with_reducible refine Follows.put ?_ rfl
    | with_reducible assumption
    | with_reducible apply tgtStart_follows
    | with_reducible apply reply_follows
    | with_reducible apply ioWrite_follows
    | with_reducible apply ioRead_follows
    | with_reducible apply Follows.ite
    | with_reducible apply Follows.fold
    | with_reducible apply FollowsP.ite
    | with_reducible apply FollowsP.mk
    | with_reducible refine FollowsP.snd (tgtStart_follows ?_)

theorem poolPart_follows {a1} {a2} (h : Follows z s) :
    Follows z (poolPart a1 a2 s) := by
  unfold poolPart
  try dsimp only
  repeat' first
    | (intro _)
    | fail_if_no_progress with_reducible refine Follows.put ?_ rfl
    | with_reducible assumption
    | with_reducible apply finishOp_follows
    | with_reducible apply ioWrite_follows
    | with_reducible apply ioRead_follows
    | with_reducible apply bump_follows
    | with_reducible apply State.setOp_follows
    | with_reducible apply Follows.ite
    | with_reducible apply Follows.fold
    | split

theorem serve_follows {a1} {a2} (h : Follows z s) :
    Follows z (serve a1 a2 s) := by
  unfold serve
  try dsimp only
  repeat' first
    | (intro _)
    | fail_if_no_progress with_reducible refine Follows.put ?_ rfl
    | with_reducible assumption
    | with_reducible apply poolServe_follows
    | with_reducible apply tgtReplay_follows
    | with_reducible apply tgtApply_follows
    | with_reducible apply packetTaken_follows
    | with_reducible apply answer_follows
    | with_reducible apply reply_follows
    | with_reducible apply bump_follows
    | with_reducible apply State.updSess_follows
    | with_reducible apply State.updQuay_follows
    | with_reducible apply Follows.ite
    | with_reducible apply Follows.fold
    | split

theorem signalApply_follows {a1} (h : Follows z s) :
    Follows z (signalApply a1 s) := by
  unfold signalApply
  try dsimp only
  repeat' first
    | (intro _)
    | fail_if_no_progress with_reducible refine Follows.put ?_ rfl
    | with_reducible assumption
    | with_reducible apply finishOp_follows
    | with_reducible apply signalAdd_follows
    | with_reducible apply Follows.ite
    | with_reducible apply Follows.fold
    | with_reducible refine FollowsP2.snd (signalAdd_follows ?_)
    | split

theorem takePend_follows {a1} {a2} {a3} (h : Follows z s) :
    FollowsP z (takePend a1 a2 a3 s) := by
  unfold takePend
  try dsimp only
  repeat' first
    | (intro _)
    | fail_if_no_progress with_reducible refine Follows.put ?_ rfl
    | with_reducible assumption
    | with_reducible apply State.updQuay_follows
    | with_reducible apply Follows.ite
    | with_reducible apply Follows.fold
    | with_reducible apply FollowsP.ite
    | with_reducible apply FollowsP.mk
    | split

theorem putNext_follows {a1} (h : Follows z s) :
    Follows z (putNext a1 s) := by
  unfold putNext
  try dsimp only
  repeat' first
    | (intro _)
    | fail_if_no_progress with_reducible refine Follows.put ?_ rfl
    | with_reducible assumption
    | with_reducible apply finishOp_follows
    | with_reducible apply ioRead_follows
    | with_reducible apply Follows.ite
    | with_reducible apply Follows.fold
    | split

theorem putLoaded_follows {a1} {a2} (h : Follows z s) :
    Follows z (putLoaded a1 a2 s) := by
  unfold putLoaded
  try dsimp only
  repeat' first
    | (intro _)
    | fail_if_no_progress with_reducible refine Follows.put ?_ rfl
    | with_reducible assumption
    | with_reducible apply putNext_follows
    | with_reducible apply sendStrand_follows
    | with_reducible apply State.fresh_follows
    | with_reducible apply State.setOp_follows
    | with_reducible apply Follows.ite
    | with_reducible apply Follows.fold
    | with_reducible apply FollowsP.ite
    | with_reducible apply FollowsP.mk
    | with_reducible refine FollowsP.snd (State.fresh_follows ?_)
    | split

theorem getPrepare_follows {a1} {a2} {a3} {a4} {a5} {a6} (h : Follows z s) :
    Follows z (getPrepare a1 a2 a3 a4 a5 a6 s) := by
  unfold getPrepare
  try dsimp only
  repeat' first
    | (intro _)
    | fail_if_no_progress with_reducible refine Follows.put ?_ rfl
    | with_reducible assumption
    | with_reducible apply State.fresh_follows
    | with_reducible apply State.setOp_follows
    | with_reducible apply Follows.ite
    | with_reducible apply Follows.fold
    | with_reducible apply FollowsP.ite
    | with_reducible apply FollowsP.mk
    | with_reducible refine FollowsP.snd (State.fresh_follows ?_)
    | split

theorem sendNext_follows {a1} (h : Follows z s) :
    Follows z (sendNext a1 s) := by
  unfold sendNext
  try dsimp only
  repeat' first
    | (intro _)
    | fail_if_no_progress with_reducible refine Follows.put ?_ rfl
    | with_reducible assumption
    | with_reducible apply finishOp_follows
    | with_reducible apply ioRead_follows
    | with_reducible apply Follows.ite
    | with_reducible apply Follows.fold
    | split

theorem sendLoaded_follows {a1} {a2} (h : Follows z s) :
    Follows z (sendLoaded a1 a2 s) := by
  unfold sendLoaded
  try dsimp only
  repeat' first
    | (intro _)
    | fail_if_no_progress with_reducible refine Follows.put ?_ rfl
    | with_reducible assumption
    | with_reducible apply sendNext_follows
    | with_reducible apply sendStrand_follows
    | with_reducible apply State.setOp_follows
    | with_reducible apply Follows.ite
    | with_reducible apply Follows.fold
    | split

theorem beginOp_follows {a1} (h : Follows z s) :
    Follows z (beginOp a1 s) := by
  unfold beginOp
  try dsimp only
  repeat' first
    | (intro _)
    | fail_if_no_progress with_reducible refine Follows.put ?_ rfl
    | with_reducible assumption
    | with_reducible apply sendNext_follows
    | with_reducible apply putNext_follows
    | with_reducible apply sendStrand_follows
    | with_reducible apply State.setOp_follows
    | with_reducible apply Follows.ite
    | with_reducible apply Follows.fold
    | split

theorem tileReply_follows {a1} {a2} {a3} {a4} (h : Follows z s) :
    Follows z (tileReply a1 a2 a3 a4 s) := by
  unfold tileReply
  try dsimp only
  repeat' first
    | (intro _)
    | fail_if_no_progress with_reducible refine Follows.put ?_ rfl
    | with_reducible assumption
    | with_reducible apply takePend_follows
    | with_reducible apply markLost_follows
    | with_reducible apply emit_follows
    | with_reducible apply Follows.ite
    | with_reducible apply Follows.fold
    | with_reducible apply FollowsP.ite
    | with_reducible apply FollowsP.mk
    | with_reducible refine FollowsP.snd (takePend_follows ?_)
    | split

theorem strandReply_follows {a1} {a2} {a3} {a4} (h : Follows z s) :
    Follows z (strandReply a1 a2 a3 a4 s) := by
  unfold strandReply
  try dsimp only
  repeat' first
    | (intro _)
    | fail_if_no_progress with_reducible refine Follows.put ?_ rfl
    | with_reducible assumption
    | with_reducible apply putNext_follows
    | with_reducible apply takePend_follows
    | with_reducible apply writesNext_follows
    | with_reducible apply finishOp_follows
    | with_reducible apply ctxBytes_follows
    | with_reducible apply State.setOp_follows
    | with_reducible apply Follows.ite
    | with_reducible apply Follows.fold
    | with_reducible apply FollowsP.ite
    | with_reducible apply FollowsP.mk
    | with_reducible refine FollowsP.snd (takePend_follows ?_)
    | split

theorem takeReply_follows {a1} {a2} {a3 : ℕ → MemHdr → Bytes → State → State} (h : Follows z s) (ha3 : ∀ y0 y1 y2 u, Follows z u → Follows z (a3 y0 y1 y2 u)) :
    Follows z (takeReply a1 a2 a3 s) := by
  unfold takeReply
  try dsimp only
  repeat' first
    | (intro _)
    | fail_if_no_progress with_reducible refine Follows.put ?_ rfl
    | with_reducible assumption
    | with_reducible apply ha3
    | with_reducible apply packetTaken_follows
    | with_reducible apply State.updQuay_follows
    | with_reducible apply Follows.ite
    | with_reducible apply Follows.fold
    | split

theorem memReply_follows {a1} {a2} {a3} {a4} (h : Follows z s) :
    Follows z (memReply a1 a2 a3 a4 s) := by
  unfold memReply
  try dsimp only
  repeat' first
    | (intro _)
    | fail_if_no_progress with_reducible refine Follows.put ?_ rfl
    | with_reducible assumption
    | with_reducible apply strandReply_follows
    | with_reducible apply tileReply_follows
    | with_reducible apply Follows.ite

theorem poolLineFail_follows {a1} {a2} {a3} (h : Follows z s) :
    Follows z (poolLineFail a1 a2 a3 s) := by
  unfold poolLineFail
  try dsimp only
  repeat' first
    | (intro _)
    | fail_if_no_progress with_reducible refine Follows.put ?_ rfl
    | with_reducible assumption
    | with_reducible apply partDone_follows
    | with_reducible apply writeDue_follows
    | with_reducible apply endTurn_follows
    | with_reducible apply endWrite_follows
    | with_reducible apply endRead_follows
    | with_reducible apply Follows.ite
    | with_reducible apply Follows.fold
    | split

theorem takePool_follows {a1} {a2} (h : Follows z s) :
    FollowsP z (takePool a1 a2 s) := by
  unfold takePool
  try dsimp only
  repeat' first
    | (intro _)
    | fail_if_no_progress with_reducible refine Follows.put ?_ rfl
    | with_reducible assumption
    | with_reducible apply State.setEng_follows
    | with_reducible apply Follows.ite
    | with_reducible apply Follows.fold
    | with_reducible apply FollowsP.ite
    | with_reducible apply FollowsP.mk
    | split

theorem poolEnd_follows {a1} (h : Follows z s) :
    Follows z (poolEnd a1 s) := by
  unfold poolEnd
  try dsimp only
  repeat' first
    | (intro _)
    | fail_if_no_progress with_reducible refine Follows.put ?_ rfl
    | with_reducible assumption
    | with_reducible apply takePool_follows
    | with_reducible apply poolLineFail_follows
    | with_reducible apply advance_follows
    | with_reducible apply State.dropOp_follows
    | with_reducible apply Follows.ite
    | with_reducible apply Follows.fold
    | with_reducible apply FollowsP.ite
    | with_reducible apply FollowsP.mk
    | with_reducible refine FollowsP.snd (takePool_follows ?_)
    | split

theorem poolReply_follows {a1} {a2} {a3} (h : Follows z s) :
    Follows z (poolReply a1 a2 a3 s) := by
  unfold poolReply
  try dsimp only
  repeat' first
    | (intro _)
    | fail_if_no_progress with_reducible refine Follows.put ?_ rfl
    | with_reducible assumption
    | with_reducible apply poolEnd_follows
    | with_reducible apply takePool_follows
    | with_reducible apply partDone_follows
    | with_reducible apply dataBack_follows
    | with_reducible apply advance_follows
    | with_reducible apply State.updOp_follows
    | with_reducible apply State.dropOp_follows
    | with_reducible apply Follows.ite
    | with_reducible apply Follows.fold
    | with_reducible apply FollowsP.ite
    | with_reducible apply FollowsP.mk
    | with_reducible refine FollowsP.snd (takePool_follows ?_)
    | split

theorem poolIssue_follows {a1} {a2} (h : Follows z s) :
    FollowsO z (poolIssue a1 a2 s) := by
  unfold poolIssue
  try dsimp only
  repeat' first
    | (intro _)
    | fail_if_no_progress with_reducible refine Follows.put ?_ rfl
    | with_reducible assumption
    | with_reducible apply poolLineFail_follows
    | with_reducible apply startOp_follows
    | with_reducible apply issueData_follows
    | with_reducible apply State.updQuay_follows
    | with_reducible apply State.updEng_follows
    | with_reducible apply Follows.ite
    | with_reducible apply Follows.fold
    | with_reducible apply FollowsP.ite
    | with_reducible apply FollowsP.mk
    | with_reducible refine FollowsP.snd (startOp_follows ?_)
    | with_reducible refine FollowsP.snd (issueData_follows ?_)
    | with_reducible exact FollowsO.none
    | with_reducible apply FollowsO.some
    | with_reducible apply FollowsO.getD
    | with_reducible apply FollowsO.orElse
    | with_reducible apply FollowsO.map
    | split
    | refine FollowsP.eq (by assumption) ?_
    | refine FollowsO.eq (by assumption) ?_
    | with_reducible refine Follows.putMode ?_ (.inl rfl) rfl
    | with_reducible refine Follows.putMode ?_ (.inr rfl) rfl
    | with_reducible refine Follows.putCnt ?_ (fun e => countersOk_set e (Nat.zero_le _)) rfl
    | with_reducible apply Follows.foldP

theorem poolHand_follows {a1} {a2} (h : Follows z s) :
    Follows z (poolHand a1 a2 s) := by
  induction a2 generalizing s with
  | zero =>
    unfold poolHand
    try dsimp only
    repeat' first
      | (intro _)
      | fail_if_no_progress with_reducible refine Follows.put ?_ rfl
      | with_reducible assumption
  | succ n ih =>
    unfold poolHand
    try dsimp only
    repeat' first
      | (intro _)
      | fail_if_no_progress with_reducible refine Follows.put ?_ rfl
      | with_reducible apply ih
      | with_reducible assumption
      | with_reducible apply poolIssue_follows
      | with_reducible apply firstStart_follows
      | with_reducible apply Follows.ite
      | with_reducible apply Follows.fold
      | with_reducible exact FollowsO.none
      | with_reducible apply FollowsO.some
      | with_reducible apply FollowsO.getD
      | with_reducible apply FollowsO.orElse
      | with_reducible apply FollowsO.map
      | split
      | refine FollowsO.eq (by assumption) ?_

end Sys2Proof.Machine
end

