-- ==== Sys2Proof/Laws/FollowsStrandOps.lean ====
section
/-! SUPPORT. The operations of Machine/StrandOps.lean follow. -/

namespace Sys2Proof.Machine

variable {z s : State}

theorem setReg_follows {a1} {a2} {a3} {a4} (h : Follows z s) :
    Follows z (setReg a1 a2 a3 a4 s) := by
  unfold setReg
  try dsimp only
  repeat' first
    | (intro _)
    | fail_if_no_progress with_reducible refine Follows.put ?_ rfl
    | with_reducible assumption
    | with_reducible apply State.updStrand_follows
    | with_reducible apply Follows.ite

theorem strandHalt_follows {a1} {a2} {a3} {a4} {a5} {a6} (h : Follows z s) :
    Follows z (strandHalt a1 a2 a3 a4 a5 a6 s) := by
  unfold strandHalt
  try dsimp only
  repeat' first
    | (intro _)
    | fail_if_no_progress with_reducible refine Follows.put ?_ rfl
    | with_reducible assumption
    | with_reducible apply State.updStrand_follows

theorem strandMark_follows {a1} {a2} {a3} {a4} (h : Follows z s) :
    Follows z (strandMark a1 a2 a3 a4 s) := by
  unfold strandMark
  try dsimp only
  repeat' first
    | (intro _)
    | fail_if_no_progress with_reducible refine Follows.put ?_ rfl
    | with_reducible assumption
    | with_reducible apply markEnd_follows

theorem strandFault_follows {a1} {a2} {a3} {a4} {a5} {a6} (h : Follows z s) :
    Follows z (strandFault a1 a2 a3 a4 a5 a6 s) := by
  unfold strandFault
  try dsimp only
  repeat' first
    | (intro _)
    | fail_if_no_progress with_reducible refine Follows.put ?_ rfl
    | with_reducible assumption
    | with_reducible apply strandMark_follows
    | with_reducible apply strandHalt_follows

theorem strandStop_follows {a1} {a2} {a3} (h : Follows z s) :
    Follows z (strandStop a1 a2 a3 s) := by
  unfold strandStop
  try dsimp only
  repeat' first
    | (intro _)
    | fail_if_no_progress with_reducible refine Follows.put ?_ rfl
    | with_reducible assumption
    | with_reducible apply strandFault_follows
    | with_reducible apply Follows.ite

theorem stopStrands_follows {a1} {a2} (h : Follows z s) :
    Follows z (stopStrands a1 a2 s) := by
  unfold stopStrands
  try dsimp only
  repeat' first
    | (intro _)
    | fail_if_no_progress with_reducible refine Follows.put ?_ rfl
    | with_reducible assumption
    | with_reducible apply strandStop_follows
    | with_reducible apply Follows.ite
    | with_reducible apply Follows.fold

theorem strandEnd_follows {a1} {a2} (h : Follows z s) :
    Follows z (strandEnd a1 a2 s) := by
  unfold strandEnd
  try dsimp only
  repeat' first
    | (intro _)
    | fail_if_no_progress with_reducible refine Follows.put ?_ rfl
    | with_reducible assumption
    | with_reducible apply finishOp_follows
    | with_reducible apply trace_follows
    | with_reducible apply dropRefs_follows
    | with_reducible apply ctxEnd_follows
    | with_reducible apply State.setStrand_follows

theorem strandDrained_follows {a1} {a2} (h : Follows z s) :
    Follows z (strandDrained a1 a2 s) := by
  unfold strandDrained
  try dsimp only
  repeat' first
    | (intro _)
    | fail_if_no_progress with_reducible refine Follows.put ?_ rfl
    | with_reducible assumption
    | with_reducible apply strandEnd_follows
    | with_reducible apply Follows.ite

theorem insFetch_follows {a1} {a2} {a3} {a4} (h : Follows z s) :
    Follows z (insFetch a1 a2 a3 a4 s) := by
  unfold insFetch
  try dsimp only
  repeat' first
    | (intro _)
    | fail_if_no_progress with_reducible refine Follows.put ?_ rfl
    | with_reducible assumption
    | with_reducible apply submitLine_follows
    | with_reducible apply ctxBytes_follows
    | with_reducible apply State.fresh_follows
    | with_reducible apply State.updQuay_follows
    | with_reducible apply Follows.ite
    | with_reducible apply Follows.fold
    | with_reducible apply FollowsP.ite
    | with_reducible apply FollowsP.mk
    | with_reducible refine FollowsP.snd (State.fresh_follows ?_)

theorem strandFetch_follows {a1} {a2} (h : Follows z s) :
    Follows z (strandFetch a1 a2 s) := by
  unfold strandFetch
  try dsimp only
  repeat' first
    | (intro _)
    | fail_if_no_progress with_reducible refine Follows.put ?_ rfl
    | with_reducible assumption
    | with_reducible apply insFetch_follows
    | with_reducible apply strandFault_follows
    | with_reducible apply State.setStrand_follows
    | with_reducible apply Follows.ite
    | with_reducible apply Follows.fold
    | split

theorem ifetchLineReturn_follows {a1} (h : Follows z s) :
    Follows z (ifetchLineReturn a1 s) := by
  unfold ifetchLineReturn
  try dsimp only
  repeat' first
    | (intro _)
    | fail_if_no_progress with_reducible refine Follows.put ?_ rfl
    | with_reducible assumption
    | with_reducible apply strandFault_follows
    | with_reducible apply State.updQuay_follows
    | with_reducible apply State.setQuay_follows
    | with_reducible apply Follows.ite
    | with_reducible apply Follows.fold
    | split

theorem icUse_follows {a1} {a2} (h : Follows z s) :
    Follows z (icUse a1 a2 s) := by
  unfold icUse
  try dsimp only
  repeat' first
    | (intro _)
    | fail_if_no_progress with_reducible refine Follows.put ?_ rfl
    | with_reducible assumption
    | with_reducible apply insFetch_follows
    | with_reducible apply State.updQuay_follows
    | with_reducible apply Follows.ite
    | with_reducible apply Follows.fold
    | split

theorem insNext_follows {a1} {a2} (h : Follows z s) :
    Follows z (insNext a1 a2 s) := by
  unfold insNext
  try dsimp only
  repeat' first
    | (intro _)
    | fail_if_no_progress with_reducible refine Follows.put ?_ rfl
    | with_reducible assumption
    | with_reducible apply State.updStrand_follows

theorem insFault_follows {a1} {a2} {a3} {a4} {a5} (h : Follows z s) :
    Follows z (insFault a1 a2 a3 a4 a5 s) := by
  unfold insFault
  try dsimp only
  repeat' first
    | (intro _)
    | fail_if_no_progress with_reducible refine Follows.put ?_ rfl
    | with_reducible assumption
    | with_reducible apply strandFault_follows

theorem issue_follows {a1} {a2} {a3} {a4 : ℕ → State → State} (h : Follows z s) (ha4 : ∀ y0 u, Follows z u → Follows z (a4 y0 u)) :
    Follows z (issue a1 a2 a3 a4 s) := by
  unfold issue
  try dsimp only
  repeat' first
    | (intro _)
    | fail_if_no_progress with_reducible refine Follows.put ?_ rfl
    | with_reducible assumption
    | with_reducible apply ha4
    | with_reducible apply insFault_follows
    | with_reducible apply icUse_follows
    | with_reducible apply beat_follows
    | with_reducible apply State.setStrand_follows
    | with_reducible apply State.updQuay_follows
    | with_reducible apply Follows.ite
    | with_reducible apply Follows.fold
    | split

theorem strandResume_follows {a1} {a2} (h : Follows z s) :
    Follows z (strandResume a1 a2 s) := by
  unfold strandResume
  try dsimp only
  repeat' first
    | (intro _)
    | fail_if_no_progress with_reducible refine Follows.put ?_ rfl
    | with_reducible assumption
    | with_reducible apply State.setStrand_follows
    | with_reducible apply Follows.ite
    | with_reducible apply Follows.fold
    | split

theorem strandRef_follows {a1} {a2} {a3} (h : Follows z s) :
    Follows z (strandRef a1 a2 a3 s) := by
  unfold strandRef
  try dsimp only
  repeat' first
    | (intro _)
    | fail_if_no_progress with_reducible refine Follows.put ?_ rfl
    | with_reducible assumption
    | with_reducible apply addRef_follows
    | with_reducible apply State.setStrand_follows
    | with_reducible apply Follows.ite

theorem checked_follows {a1} {a2} {a3} {a4} {a5 : State → State} (h : Follows z s) (ha5 : ∀ u, Follows z u → Follows z (a5 u)) :
    Follows z (checked a1 a2 a3 a4 a5 s) := by
  unfold checked
  try dsimp only
  repeat' first
    | (intro _)
    | fail_if_no_progress with_reducible refine Follows.put ?_ rfl
    | with_reducible assumption
    | with_reducible apply ha5
    | with_reducible apply strandRef_follows
    | with_reducible apply insFault_follows
    | with_reducible apply insNext_follows
    | with_reducible apply breakSess_follows
    | with_reducible apply Follows.ite
    | with_reducible apply Follows.fold
    | split

theorem strandOp_follows {a1} {a2} {a3} {a4} {a5} (h : Follows z s) :
    FollowsP z (strandOp a1 a2 a3 a4 a5 s) := by
  unfold strandOp
  try dsimp only
  repeat' first
    | (intro _)
    | fail_if_no_progress with_reducible refine Follows.put ?_ rfl
    | with_reducible assumption
    | with_reducible apply startOp_follows

theorem insNop_follows {a1} {a2} {a3} (h : Follows z s) :
    Follows z (insNop a1 a2 a3 s) := by
  unfold insNop
  try dsimp only
  repeat' first
    | (intro _)
    | fail_if_no_progress with_reducible refine Follows.put ?_ rfl
    | with_reducible assumption
    | with_reducible apply insNext_follows

theorem insTrap_follows {a1} {a2} {a3} (h : Follows z s) :
    Follows z (insTrap a1 a2 a3 s) := by
  unfold insTrap
  try dsimp only
  repeat' first
    | (intro _)
    | fail_if_no_progress with_reducible refine Follows.put ?_ rfl
    | with_reducible assumption
    | with_reducible apply insFault_follows

theorem insGoto_follows {a1} {a2} {a3} {a4} (h : Follows z s) :
    Follows z (insGoto a1 a2 a3 a4 s) := by
  unfold insGoto
  try dsimp only
  repeat' first
    | (intro _)
    | fail_if_no_progress with_reducible refine Follows.put ?_ rfl
    | with_reducible assumption
    | with_reducible apply strandFault_follows
    | with_reducible apply State.setStrand_follows
    | with_reducible apply Follows.ite

theorem branchIf_follows {a1} {a2} {a3} {a4} (h : Follows z s) :
    Follows z (branchIf a1 a2 a3 a4 s) := by
  unfold branchIf
  try dsimp only
  repeat' first
    | (intro _)
    | fail_if_no_progress with_reducible refine Follows.put ?_ rfl
    | with_reducible assumption
    | with_reducible apply insGoto_follows
    | with_reducible apply insNext_follows
    | with_reducible apply Follows.ite

theorem insBr_follows {a1} {a2} {a3} (h : Follows z s) :
    Follows z (insBr a1 a2 a3 s) := by
  unfold insBr
  try dsimp only
  repeat' first
    | (intro _)
    | fail_if_no_progress with_reducible refine Follows.put ?_ rfl
    | with_reducible assumption
    | with_reducible apply branchIf_follows

theorem insBeq_follows {a1} {a2} {a3} (h : Follows z s) :
    Follows z (insBeq a1 a2 a3 s) := by
  unfold insBeq
  try dsimp only
  repeat' first
    | (intro _)
    | fail_if_no_progress with_reducible refine Follows.put ?_ rfl
    | with_reducible assumption
    | with_reducible apply branchIf_follows

theorem insBne_follows {a1} {a2} {a3} (h : Follows z s) :
    Follows z (insBne a1 a2 a3 s) := by
  unfold insBne
  try dsimp only
  repeat' first
    | (intro _)
    | fail_if_no_progress with_reducible refine Follows.put ?_ rfl
    | with_reducible assumption
    | with_reducible apply branchIf_follows

theorem insBlt_follows {a1} {a2} {a3} (h : Follows z s) :
    Follows z (insBlt a1 a2 a3 s) := by
  unfold insBlt
  try dsimp only
  repeat' first
    | (intro _)
    | fail_if_no_progress with_reducible refine Follows.put ?_ rfl
    | with_reducible assumption
    | with_reducible apply branchIf_follows

theorem insLoop_follows {a1} {a2} {a3} (h : Follows z s) :
    Follows z (insLoop a1 a2 a3 s) := by
  unfold insLoop
  try dsimp only
  repeat' first
    | (intro _)
    | fail_if_no_progress with_reducible refine Follows.put ?_ rfl
    | with_reducible assumption
    | with_reducible apply insGoto_follows
    | with_reducible apply insFault_follows
    | with_reducible apply insNext_follows
    | with_reducible apply State.setStrand_follows
    | with_reducible apply Follows.ite

theorem insEndl_follows {a1} {a2} {a3} (h : Follows z s) :
    Follows z (insEndl a1 a2 a3 s) := by
  unfold insEndl
  try dsimp only
  repeat' first
    | (intro _)
    | fail_if_no_progress with_reducible refine Follows.put ?_ rfl
    | with_reducible assumption
    | with_reducible apply insFault_follows
    | with_reducible apply insNext_follows
    | with_reducible apply State.setStrand_follows
    | with_reducible apply Follows.ite
    | with_reducible apply Follows.fold
    | split

theorem insSet_follows {a1} {a2} {a3} {a4} (h : Follows z s) :
    Follows z (insSet a1 a2 a3 a4 s) := by
  unfold insSet
  try dsimp only
  repeat' first
    | (intro _)
    | fail_if_no_progress with_reducible refine Follows.put ?_ rfl
    | with_reducible assumption
    | with_reducible apply insNext_follows
    | with_reducible apply setReg_follows

theorem insMovi_follows {a1} {a2} {a3} (h : Follows z s) :
    Follows z (insMovi a1 a2 a3 s) := by
  unfold insMovi
  try dsimp only
  repeat' first
    | (intro _)
    | fail_if_no_progress with_reducible refine Follows.put ?_ rfl
    | with_reducible assumption
    | with_reducible apply insSet_follows

theorem insAddi_follows {a1} {a2} {a3} (h : Follows z s) :
    Follows z (insAddi a1 a2 a3 s) := by
  unfold insAddi
  try dsimp only
  repeat' first
    | (intro _)
    | fail_if_no_progress with_reducible refine Follows.put ?_ rfl
    | with_reducible assumption
    | with_reducible apply insSet_follows

theorem insAdd_follows {a1} {a2} {a3} (h : Follows z s) :
    Follows z (insAdd a1 a2 a3 s) := by
  unfold insAdd
  try dsimp only
  repeat' first
    | (intro _)
    | fail_if_no_progress with_reducible refine Follows.put ?_ rfl
    | with_reducible assumption
    | with_reducible apply insSet_follows

theorem insSub_follows {a1} {a2} {a3} (h : Follows z s) :
    Follows z (insSub a1 a2 a3 s) := by
  unfold insSub
  try dsimp only
  repeat' first
    | (intro _)
    | fail_if_no_progress with_reducible refine Follows.put ?_ rfl
    | with_reducible assumption
    | with_reducible apply insSet_follows

theorem insAnd_follows {a1} {a2} {a3} (h : Follows z s) :
    Follows z (insAnd a1 a2 a3 s) := by
  unfold insAnd
  try dsimp only
  repeat' first
    | (intro _)
    | fail_if_no_progress with_reducible refine Follows.put ?_ rfl
    | with_reducible assumption
    | with_reducible apply insSet_follows

theorem insOr_follows {a1} {a2} {a3} (h : Follows z s) :
    Follows z (insOr a1 a2 a3 s) := by
  unfold insOr
  try dsimp only
  repeat' first
    | (intro _)
    | fail_if_no_progress with_reducible refine Follows.put ?_ rfl
    | with_reducible assumption
    | with_reducible apply insSet_follows

theorem insXor_follows {a1} {a2} {a3} (h : Follows z s) :
    Follows z (insXor a1 a2 a3 s) := by
  unfold insXor
  try dsimp only
  repeat' first
    | (intro _)
    | fail_if_no_progress with_reducible refine Follows.put ?_ rfl
    | with_reducible assumption
    | with_reducible apply insSet_follows

theorem insShl_follows {a1} {a2} {a3} (h : Follows z s) :
    Follows z (insShl a1 a2 a3 s) := by
  unfold insShl
  try dsimp only
  repeat' first
    | (intro _)
    | fail_if_no_progress with_reducible refine Follows.put ?_ rfl
    | with_reducible assumption
    | with_reducible apply insSet_follows

theorem insShr_follows {a1} {a2} {a3} (h : Follows z s) :
    Follows z (insShr a1 a2 a3 s) := by
  unfold insShr
  try dsimp only
  repeat' first
    | (intro _)
    | fail_if_no_progress with_reducible refine Follows.put ?_ rfl
    | with_reducible assumption
    | with_reducible apply insSet_follows

theorem insTstamp_follows {a1} {a2} {a3} (h : Follows z s) :
    Follows z (insTstamp a1 a2 a3 s) := by
  unfold insTstamp
  try dsimp only
  repeat' first
    | (intro _)
    | fail_if_no_progress with_reducible refine Follows.put ?_ rfl
    | with_reducible assumption
    | with_reducible apply insSet_follows

theorem insLd_follows {a1} {a2} {a3} (h : Follows z s) :
    Follows z (insLd a1 a2 a3 s) := by
  unfold insLd
  try dsimp only
  repeat' first
    | (intro _)
    | fail_if_no_progress with_reducible refine Follows.put ?_ rfl
    | with_reducible assumption
    | with_reducible apply strandOp_follows
    | with_reducible apply checked_follows
    | with_reducible apply insNext_follows
    | with_reducible apply ioRead_follows
    | with_reducible apply Follows.ite
    | with_reducible apply Follows.fold
    | with_reducible apply FollowsP.ite
    | with_reducible apply FollowsP.mk
    | with_reducible refine FollowsP.snd (strandOp_follows ?_)

theorem insSt_follows {a1} {a2} {a3} (h : Follows z s) :
    Follows z (insSt a1 a2 a3 s) := by
  unfold insSt
  try dsimp only
  repeat' first
    | (intro _)
    | fail_if_no_progress with_reducible refine Follows.put ?_ rfl
    | with_reducible assumption
    | with_reducible apply strandOp_follows
    | with_reducible apply checked_follows
    | with_reducible apply insNext_follows
    | with_reducible apply ioWrite_follows
    | with_reducible apply Follows.ite
    | with_reducible apply Follows.fold
    | with_reducible apply FollowsP.ite
    | with_reducible apply FollowsP.mk
    | with_reducible refine FollowsP.snd (strandOp_follows ?_)

theorem insCopy_follows {a1} {a2} {a3} (h : Follows z s) :
    Follows z (insCopy a1 a2 a3 s) := by
  unfold insCopy
  try dsimp only
  repeat' first
    | (intro _)
    | fail_if_no_progress with_reducible refine Follows.put ?_ rfl
    | with_reducible assumption
    | with_reducible apply strandOp_follows
    | with_reducible apply checked_follows
    | with_reducible apply insNext_follows
    | with_reducible apply copyNext_follows
    | with_reducible apply Follows.ite
    | with_reducible apply Follows.fold
    | with_reducible apply FollowsP.ite
    | with_reducible apply FollowsP.mk
    | with_reducible refine FollowsP.snd (strandOp_follows ?_)

theorem insAlloc_follows {a1} {a2} {a3} (h : Follows z s) :
    Follows z (insAlloc a1 a2 a3 s) := by
  unfold insAlloc
  try dsimp only
  repeat' first
    | (intro _)
    | fail_if_no_progress with_reducible refine Follows.put ?_ rfl
    | with_reducible assumption
    | with_reducible apply strandOp_follows
    | with_reducible apply insFault_follows
    | with_reducible apply insNext_follows
    | with_reducible apply setReg_follows
    | with_reducible apply allocRun_follows
    | with_reducible apply State.updStrand_follows
    | with_reducible apply Follows.ite
    | with_reducible apply Follows.fold
    | with_reducible apply FollowsP.ite
    | with_reducible apply FollowsP.mk
    | with_reducible refine FollowsP.snd (strandOp_follows ?_)

theorem insPut_follows {a1} {a2} {a3} (h : Follows z s) :
    Follows z (insPut a1 a2 a3 s) := by
  unfold insPut
  try dsimp only
  repeat' first
    | (intro _)
    | fail_if_no_progress with_reducible refine Follows.put ?_ rfl
    | with_reducible assumption
    | with_reducible apply strandOp_follows
    | with_reducible apply checked_follows
    | with_reducible apply insNext_follows
    | with_reducible apply Follows.ite
    | with_reducible apply Follows.fold
    | with_reducible apply FollowsP.ite
    | with_reducible apply FollowsP.mk
    | with_reducible refine FollowsP.snd (strandOp_follows ?_)

theorem insGet_follows {a1} {a2} {a3} (h : Follows z s) :
    Follows z (insGet a1 a2 a3 s) := by
  unfold insGet
  try dsimp only
  repeat' first
    | (intro _)
    | fail_if_no_progress with_reducible refine Follows.put ?_ rfl
    | with_reducible assumption
    | with_reducible apply strandOp_follows
    | with_reducible apply checked_follows
    | with_reducible apply insNext_follows
    | with_reducible apply getPrepare_follows
    | with_reducible apply Follows.ite
    | with_reducible apply Follows.fold
    | with_reducible apply FollowsP.ite
    | with_reducible apply FollowsP.mk
    | with_reducible refine FollowsP.snd (strandOp_follows ?_)

theorem insSend_follows {a1} {a2} {a3} (h : Follows z s) :
    Follows z (insSend a1 a2 a3 s) := by
  unfold insSend
  try dsimp only
  repeat' first
    | (intro _)
    | fail_if_no_progress with_reducible refine Follows.put ?_ rfl
    | with_reducible assumption
    | with_reducible apply strandOp_follows
    | with_reducible apply checked_follows
    | with_reducible apply insNext_follows
    | with_reducible apply Follows.ite
    | with_reducible apply Follows.fold
    | with_reducible apply FollowsP.ite
    | with_reducible apply FollowsP.mk
    | with_reducible refine FollowsP.snd (strandOp_follows ?_)

theorem insRecv_follows {a1} {a2} {a3} (h : Follows z s) :
    Follows z (insRecv a1 a2 a3 s) := by
  unfold insRecv
  try dsimp only
  repeat' first
    | (intro _)
    | fail_if_no_progress with_reducible refine Follows.put ?_ rfl
    | with_reducible assumption
    | with_reducible apply strandOp_follows
    | with_reducible apply checked_follows
    | with_reducible apply insNext_follows
    | with_reducible apply State.updSess_follows
    | with_reducible apply Follows.ite
    | with_reducible apply Follows.fold
    | with_reducible apply FollowsP.ite
    | with_reducible apply FollowsP.mk
    | with_reducible refine FollowsP.snd (strandOp_follows ?_)

theorem insPacket_follows {a1} {a2} {a3} {a4} {a5} {a6} (h : Follows z s) :
    Follows z (insPacket a1 a2 a3 a4 a5 a6 s) := by
  unfold insPacket
  try dsimp only
  repeat' first
    | (intro _)
    | fail_if_no_progress with_reducible refine Follows.put ?_ rfl
    | with_reducible assumption
    | with_reducible apply State.updOp_follows

theorem insAtom_follows {a1} {a2} {a3} (h : Follows z s) :
    Follows z (insAtom a1 a2 a3 s) := by
  unfold insAtom
  try dsimp only
  repeat' first
    | (intro _)
    | fail_if_no_progress with_reducible refine Follows.put ?_ rfl
    | with_reducible assumption
    | with_reducible apply insPacket_follows
    | with_reducible apply strandOp_follows
    | with_reducible apply checked_follows
    | with_reducible apply insNext_follows
    | with_reducible apply Follows.ite
    | with_reducible apply Follows.fold
    | with_reducible apply FollowsP.ite
    | with_reducible apply FollowsP.mk
    | with_reducible refine FollowsP.snd (strandOp_follows ?_)

theorem insRsigb_follows {a1} {a2} {a3} (h : Follows z s) :
    Follows z (insRsigb a1 a2 a3 s) := by
  unfold insRsigb
  try dsimp only
  repeat' first
    | (intro _)
    | fail_if_no_progress with_reducible refine Follows.put ?_ rfl
    | with_reducible assumption
    | with_reducible apply insPacket_follows
    | with_reducible apply strandOp_follows
    | with_reducible apply checked_follows
    | with_reducible apply insNext_follows
    | with_reducible apply Follows.ite
    | with_reducible apply Follows.fold
    | with_reducible apply FollowsP.ite
    | with_reducible apply FollowsP.mk
    | with_reducible refine FollowsP.snd (strandOp_follows ?_)

theorem insArm_follows {a1} {a2} {a3} (h : Follows z s) :
    Follows z (insArm a1 a2 a3 s) := by
  unfold insArm
  try dsimp only
  repeat' first
    | (intro _)
    | fail_if_no_progress with_reducible refine Follows.put ?_ rfl
    | with_reducible assumption
    | with_reducible apply strandRef_follows
    | with_reducible apply insFault_follows
    | with_reducible apply insNext_follows
    | with_reducible apply slotArm_follows
    | with_reducible apply breakSess_follows
    | with_reducible apply Follows.ite
    | with_reducible apply Follows.fold

theorem waitbTest_follows {a1} {a2} {a3} {a4} {a5} (h : Follows z s) :
    Follows z (waitbTest a1 a2 a3 a4 a5 s) := by
  unfold waitbTest
  try dsimp only
  repeat' first
    | (intro _)
    | fail_if_no_progress with_reducible refine Follows.put ?_ rfl
    | with_reducible assumption
    | with_reducible apply branchIf_follows
    | with_reducible apply insFault_follows
    | with_reducible apply insNext_follows
    | with_reducible apply State.updStrand_follows
    | with_reducible apply Follows.ite
    | with_reducible apply Follows.fold
    | split

theorem insWaitb_follows {a1} {a2} {a3} (h : Follows z s) :
    Follows z (insWaitb a1 a2 a3 s) := by
  unfold insWaitb
  try dsimp only
  repeat' first
    | (intro _)
    | fail_if_no_progress with_reducible refine Follows.put ?_ rfl
    | with_reducible assumption
    | with_reducible apply waitbTest_follows
    | with_reducible apply checked_follows

theorem sigbApply_follows {a1} {a2} {a3} (h : Follows z s) :
    Follows z (sigbApply a1 a2 a3 s) := by
  unfold sigbApply
  try dsimp only
  repeat' first
    | (intro _)
    | fail_if_no_progress with_reducible refine Follows.put ?_ rfl
    | with_reducible assumption
    | with_reducible apply insFault_follows
    | with_reducible apply insNext_follows
    | with_reducible apply signalReset_follows
    | with_reducible apply signalAdd_follows
    | with_reducible apply Follows.ite
    | with_reducible apply Follows.fold
    | with_reducible refine FollowsP2.snd (signalReset_follows ?_)
    | with_reducible refine FollowsP2.snd (signalAdd_follows ?_)
    | split

theorem freeApply_follows {a1} {a2} {a3} (h : Follows z s) :
    Follows z (freeApply a1 a2 a3 s) := by
  unfold freeApply
  try dsimp only
  repeat' first
    | (intro _)
    | fail_if_no_progress with_reducible refine Follows.put ?_ rfl
    | with_reducible assumption
    | with_reducible apply strandOp_follows
    | with_reducible apply insFault_follows
    | with_reducible apply objFreeStart_follows
    | with_reducible apply dropRef_follows
    | with_reducible apply State.updStrand_follows
    | with_reducible apply State.setStrand_follows
    | with_reducible apply Follows.ite
    | with_reducible apply Follows.fold
    | with_reducible apply FollowsP.ite
    | with_reducible apply FollowsP.mk
    | with_reducible refine FollowsP.snd (strandOp_follows ?_)

theorem drainApply_follows {a1} {a2} {a3} (h : Follows z s) :
    Follows z (drainApply a1 a2 a3 s) := by
  unfold drainApply
  try dsimp only
  repeat' first
    | (intro _)
    | fail_if_no_progress with_reducible refine Follows.put ?_ rfl
    | with_reducible assumption
    | with_reducible apply freeApply_follows
    | with_reducible apply sigbApply_follows
    | with_reducible apply insNext_follows
    | with_reducible apply strandEnd_follows
    | with_reducible apply Follows.ite
    | with_reducible apply Follows.fold
    | split

theorem insDrain_follows {a1} {a2} {a3} (h : Follows z s) :
    Follows z (insDrain a1 a2 a3 s) := by
  unfold insDrain
  try dsimp only
  repeat' first
    | (intro _)
    | fail_if_no_progress with_reducible refine Follows.put ?_ rfl
    | with_reducible assumption
    | with_reducible apply drainApply_follows
    | with_reducible apply State.updStrand_follows
    | with_reducible apply Follows.ite

theorem insHalt_follows {a1} {a2} {a3} (h : Follows z s) :
    Follows z (insHalt a1 a2 a3 s) := by
  unfold insHalt
  try dsimp only
  repeat' first
    | (intro _)
    | fail_if_no_progress with_reducible refine Follows.put ?_ rfl
    | with_reducible assumption
    | with_reducible apply insDrain_follows

theorem insFence_follows {a1} {a2} {a3} (h : Follows z s) :
    Follows z (insFence a1 a2 a3 s) := by
  unfold insFence
  try dsimp only
  repeat' first
    | (intro _)
    | fail_if_no_progress with_reducible refine Follows.put ?_ rfl
    | with_reducible assumption
    | with_reducible apply insDrain_follows

theorem insSigb_follows {a1} {a2} {a3} (h : Follows z s) :
    Follows z (insSigb a1 a2 a3 s) := by
  unfold insSigb
  try dsimp only
  repeat' first
    | (intro _)
    | fail_if_no_progress with_reducible refine Follows.put ?_ rfl
    | with_reducible assumption
    | with_reducible apply insDrain_follows
    | with_reducible apply checked_follows

theorem insFree_follows {a1} {a2} {a3} (h : Follows z s) :
    Follows z (insFree a1 a2 a3 s) := by
  unfold insFree
  try dsimp only
  repeat' first
    | (intro _)
    | fail_if_no_progress with_reducible refine Follows.put ?_ rfl
    | with_reducible assumption
    | with_reducible apply insDrain_follows
    | with_reducible apply checked_follows

theorem strandWaits_follows {a1} {a2} (h : Follows z s) :
    Follows z (strandWaits a1 a2 s) := by
  unfold strandWaits
  try dsimp only
  repeat' first
    | (intro _)
    | fail_if_no_progress with_reducible refine Follows.put ?_ rfl
    | with_reducible assumption
    | with_reducible apply drainApply_follows
    | with_reducible apply waitbTest_follows
    | with_reducible apply Follows.ite
    | with_reducible apply Follows.fold
    | split

theorem strandOpEnd_follows {a1} (h : Follows z s) :
    Follows z (strandOpEnd a1 s) := by
  unfold strandOpEnd
  try dsimp only
  repeat' first
    | (intro _)
    | fail_if_no_progress with_reducible refine Follows.put ?_ rfl
    | with_reducible assumption
    | with_reducible apply insNext_follows
    | with_reducible apply strandFault_follows
    | with_reducible apply setReg_follows
    | with_reducible apply closeOp_follows
    | with_reducible apply State.updStrand_follows
    | with_reducible apply Follows.ite
    | with_reducible apply Follows.fold
    | with_reducible apply FollowsP.ite
    | with_reducible apply FollowsP.mk
    | with_reducible refine FollowsP.snd (closeOp_follows ?_)
    | split

end Sys2Proof.Machine
end

