-- ==== Sys2Proof/Laws/FollowsKeys.lean ====
section
/-! SUPPORT. The operations of Machine/Keys.lean follow. -/

namespace Sys2Proof.Machine

variable {z s : State}

theorem berthGen_follows {a1} {a2} (h : Follows z s) :
    FollowsP z (berthGen a1 a2 s) := by
  unfold berthGen
  try dsimp only
  repeat' first
    | (intro _)
    | fail_if_no_progress with_reducible refine Follows.put ?_ rfl
    | with_reducible assumption
    | with_reducible apply writeBerth_follows
    | with_reducible apply drbg_follows
    | with_reducible apply Follows.ite
    | with_reducible apply Follows.fold
    | with_reducible apply FollowsP.ite
    | with_reducible apply FollowsP.mk
    | with_reducible refine FollowsP.snd (writeBerth_follows ?_)
    | with_reducible exact FollowsOP.none
    | with_reducible apply FollowsOP.some
    | with_reducible apply FollowsOP.getD
    | with_reducible apply FollowsOP.mapP
    | with_reducible apply FollowsOP.map
    | split
    | refine FollowsP.eq (by assumption) ?_
    | refine FollowsOP.eq (by assumption) ?_

theorem parentKey_follows {a1} {a2} {a3} {a4} (h : Follows z s) :
    FollowsP2 z (parentKey a1 a2 a3 a4 s) := by
  unfold parentKey
  try dsimp only
  repeat' first
    | (intro _)
    | fail_if_no_progress with_reducible refine Follows.put ?_ rfl
    | with_reducible assumption
    | with_reducible apply berthLoad_follows
    | with_reducible apply Follows.ite
    | with_reducible apply Follows.fold
    | with_reducible apply FollowsP2.mk
    | with_reducible refine FollowsP2.snd (berthLoad_follows ?_)
    | split

theorem berthDerive_follows {a1} {a2} {a3} {a4} {a5} {a6} (h : Follows z s) :
    FollowsP z (berthDerive a1 a2 a3 a4 a5 a6 s) := by
  unfold berthDerive
  try dsimp only
  repeat' first
    | (intro _)
    | fail_if_no_progress with_reducible refine Follows.put ?_ rfl
    | with_reducible assumption
    | with_reducible apply parentKey_follows
    | with_reducible apply writeBerth_follows
    | with_reducible apply Follows.ite
    | with_reducible apply Follows.fold
    | with_reducible apply FollowsP.ite
    | with_reducible apply FollowsP.mk
    | with_reducible refine FollowsP2.snd (parentKey_follows ?_)

theorem berthUnwrap_follows {a1} {a2} {a3} {a4} {a5} {a6} (h : Follows z s) :
    FollowsP z (berthUnwrap a1 a2 a3 a4 a5 a6 s) := by
  unfold berthUnwrap
  try dsimp only
  repeat' first
    | (intro _)
    | fail_if_no_progress with_reducible refine Follows.put ?_ rfl
    | with_reducible assumption
    | with_reducible apply writeBerth_follows
    | with_reducible apply berthLoad_follows
    | with_reducible apply Follows.ite
    | with_reducible apply Follows.fold
    | with_reducible apply FollowsP.ite
    | with_reducible apply FollowsP.mk
    | with_reducible refine FollowsP.snd (writeBerth_follows ?_)
    | with_reducible refine FollowsP2.snd (berthLoad_follows ?_)
    | split

theorem berthPut_follows {a1} (h : Follows z s) :
    FollowsP z (berthPut a1 s) := by
  unfold berthPut
  try dsimp only
  repeat' first
    | (intro _)
    | fail_if_no_progress with_reducible refine Follows.put ?_ rfl
    | with_reducible assumption
    | with_reducible apply makeBad_follows
    | with_reducible apply readBackFails_follows
    | with_reducible apply Follows.ite
    | with_reducible apply Follows.fold
    | with_reducible apply FollowsP.ite
    | with_reducible apply FollowsP.mk
    | with_reducible refine FollowsP.snd (readBackFails_follows ?_)

theorem berthZeroise_follows {a1} (h : Follows z s) :
    FollowsP z (berthZeroise a1 s) := by
  unfold berthZeroise
  try dsimp only
  repeat' first
    | (intro _)
    | fail_if_no_progress with_reducible refine Follows.put ?_ rfl
    | with_reducible assumption
    | with_reducible apply emptyBerth_follows
    | with_reducible apply makeBad_follows
    | with_reducible apply readBackFails_follows
    | with_reducible apply Follows.ite
    | with_reducible apply Follows.fold
    | with_reducible apply FollowsP.ite
    | with_reducible apply FollowsP.mk
    | with_reducible refine FollowsP.snd (readBackFails_follows ?_)

theorem revokeHolders_follows {a1} (h : Follows z s) :
    Follows z (revokeHolders a1 s) := by
  unfold revokeHolders
  try dsimp only
  repeat' first
    | (intro _)
    | fail_if_no_progress with_reducible refine Follows.put ?_ rfl
    | with_reducible assumption
    | with_reducible apply revokeSess_follows
    | with_reducible apply Follows.ite
    | with_reducible apply Follows.fold

theorem berthSetState_follows {a1} {a2} (h : Follows z s) :
    FollowsP z (berthSetState a1 a2 s) := by
  unfold berthSetState
  try dsimp only
  repeat' first
    | (intro _)
    | fail_if_no_progress with_reducible refine Follows.put ?_ rfl
    | with_reducible assumption
    | with_reducible apply revokeHolders_follows
    | with_reducible apply berthPut_follows
    | with_reducible apply releaseBerth_follows
    | with_reducible apply quarantineBerth_follows
    | with_reducible apply revokeBerth_follows
    | with_reducible apply makeBad_follows
    | with_reducible apply readBackFails_follows
    | with_reducible apply Follows.ite
    | with_reducible apply Follows.fold
    | with_reducible apply FollowsP.ite
    | with_reducible apply FollowsP.mk
    | with_reducible refine FollowsP.snd (berthPut_follows ?_)
    | with_reducible refine FollowsP.snd (readBackFails_follows ?_)
    | split

theorem berthSetMasters_follows {a1} {a2} (h : Follows z s) :
    FollowsP z (berthSetMasters a1 a2 s) := by
  unfold berthSetMasters
  try dsimp only
  repeat' first
    | (intro _)
    | fail_if_no_progress with_reducible refine Follows.put ?_ rfl
    | with_reducible assumption
    | with_reducible apply writeBerth_follows
    | with_reducible apply Follows.ite
    | with_reducible apply Follows.fold
    | with_reducible apply FollowsP.ite
    | with_reducible apply FollowsP.mk

theorem berthEnd_follows {a1} {a2} {p : Status × State} (h : FollowsP z p) :
    Follows z (berthEnd a1 a2 p) := by
  unfold berthEnd
  try dsimp only
  repeat' first
    | (intro _)
    | fail_if_no_progress with_reducible refine Follows.put ?_ rfl
    | with_reducible assumption
    | with_reducible exact FollowsP.snd h
    | with_reducible apply auditLog_follows
    | with_reducible apply raiseHm_follows
    | with_reducible apply Follows.ite

theorem berthCmd_follows {a1} {a2} (h : Follows z s) :
    Follows z (berthCmd a1 a2 s) := by
  unfold berthCmd
  try dsimp only
  repeat' first
    | (intro _)
    | fail_if_no_progress with_reducible refine Follows.put ?_ rfl
    | with_reducible assumption
    | with_reducible apply berthEnd_follows
    | with_reducible apply berthSetMasters_follows
    | with_reducible apply berthSetState_follows
    | with_reducible apply berthZeroise_follows
    | with_reducible apply berthUnwrap_follows
    | with_reducible apply berthDerive_follows
    | with_reducible apply berthGen_follows
    | with_reducible apply regGuard_follows
    | with_reducible apply Follows.ite
    | with_reducible apply Follows.fold
    | with_reducible apply FollowsP.ite
    | with_reducible apply FollowsP.mk
    | with_reducible refine FollowsP.snd (berthSetMasters_follows ?_)
    | with_reducible refine FollowsP.snd (berthSetState_follows ?_)
    | with_reducible refine FollowsP.snd (berthZeroise_follows ?_)
    | with_reducible refine FollowsP.snd (berthUnwrap_follows ?_)
    | with_reducible refine FollowsP.snd (berthDerive_follows ?_)
    | with_reducible refine FollowsP.snd (berthGen_follows ?_)
    | split

theorem kmapPut_follows {a1} {a2} (h : Follows z s) :
    Follows z (kmapPut a1 a2 s) := by
  unfold kmapPut
  try dsimp only
  repeat' first
    | (intro _)
    | fail_if_no_progress with_reducible refine Follows.put ?_ rfl
    | with_reducible assumption
    | with_reducible apply State.setKmap_follows

theorem kmapWrite_follows {a1} (h : Follows z s) :
    Follows z (kmapWrite a1 s) := by
  unfold kmapWrite
  try dsimp only
  repeat' first
    | (intro _)
    | fail_if_no_progress with_reducible refine Follows.put ?_ rfl
    | with_reducible assumption
    | with_reducible apply kmapPut_follows
    | with_reducible apply policyWrite_follows
    | with_reducible apply regGuard_follows

theorem instantiate_follows (h : Follows z s) :
    Follows z (instantiate s) := by
  unfold instantiate
  try dsimp only
  repeat' first
    | (intro _)
    | fail_if_no_progress with_reducible refine Follows.put ?_ rfl
    | with_reducible assumption
    | with_reducible apply drbg_follows
    | with_reducible apply Follows.ite
    | with_reducible apply Follows.fold
    | with_reducible exact FollowsOP.none
    | with_reducible apply FollowsOP.some
    | with_reducible apply FollowsOP.getD
    | with_reducible apply FollowsOP.mapP
    | with_reducible apply FollowsOP.map
    | split
    | refine FollowsOP.eq (by assumption) ?_

theorem healthFail_follows {a1} (h : Follows z s) :
    Follows z (healthFail a1 s) := by
  unfold healthFail
  try dsimp only
  repeat' first
    | (intro _)
    | fail_if_no_progress with_reducible refine Follows.put ?_ rfl
    | with_reducible assumption
    | with_reducible apply raisePrivOpen_follows
    | with_reducible apply bump_follows
    | with_reducible apply Follows.ite

theorem entropySample_follows {a1} (h : Follows z s) :
    Follows z (entropySample a1 s) := by
  unfold entropySample
  try dsimp only
  repeat' first
    | (intro _)
    | fail_if_no_progress with_reducible refine Follows.put ?_ rfl
    | with_reducible assumption
    | with_reducible apply healthFail_follows
    | with_reducible apply instantiate_follows
    | with_reducible apply Follows.ite

end Sys2Proof.Machine
end

