-- ==== Sys2Proof/Laws/FollowsSealOps.lean ====
section
/-! SUPPORT. The operations of Machine/SealOps.lean follow. -/

namespace Sys2Proof.Machine

variable {z s : State}

theorem setModel_follows {a1} {a2} {a3} (h : Follows z s) :
    Follows z (setModel a1 a2 a3 s) := by
  unfold setModel
  try dsimp only
  repeat' first
    | (intro _)
    | fail_if_no_progress with_reducible refine Follows.put ?_ rfl
    | with_reducible assumption
    | with_reducible apply State.updMoor_follows
    | with_reducible apply Follows.ite
    | with_reducible apply Follows.fold
    | split

theorem setSeal_follows {a1} {a2} (h : Follows z s) :
    Follows z (setSeal a1 a2 s) := by
  unfold setSeal
  try dsimp only
  repeat' first
    | (intro _)
    | fail_if_no_progress with_reducible refine Follows.put ?_ rfl
    | with_reducible assumption
    | with_reducible apply State.updOp_follows

theorem sealFail_follows {a1} {a2} (h : Follows z s) :
    Follows z (sealFail a1 a2 s) := by
  unfold sealFail
  try dsimp only
  repeat' first
    | (intro _)
    | fail_if_no_progress with_reducible refine Follows.put ?_ rfl
    | with_reducible assumption
    | with_reducible apply setSeal_follows
    | with_reducible apply setModel_follows
    | with_reducible apply finishOp_follows
    | with_reducible apply frzWrite_follows
    | with_reducible apply Follows.ite
    | with_reducible apply Follows.fold
    | with_reducible apply FollowsP.ite
    | with_reducible apply FollowsP.mk
    | with_reducible refine FollowsP.snd (frzWrite_follows ?_)
    | split

theorem sealRead_follows {a1} {a2} (h : Follows z s) :
    Follows z (sealRead a1 a2 s) := by
  unfold sealRead
  try dsimp only
  repeat' first
    | (intro _)
    | fail_if_no_progress with_reducible refine Follows.put ?_ rfl
    | with_reducible assumption
    | with_reducible apply setSeal_follows
    | with_reducible apply ioRead_follows

theorem sealLine_follows {a1} {a2} (h : Follows z s) :
    Follows z (sealLine a1 a2 s) := by
  unfold sealLine
  try dsimp only
  repeat' first
    | (intro _)
    | fail_if_no_progress with_reducible refine Follows.put ?_ rfl
    | with_reducible assumption
    | with_reducible apply submitLine_follows
    | with_reducible apply State.setOp_follows

theorem sealDrain_follows {a1} {a2} (h : Follows z s) :
    FollowsP z (sealDrain a1 a2 s) := by
  unfold sealDrain
  try dsimp only
  repeat' first
    | (intro _)
    | fail_if_no_progress with_reducible refine Follows.put ?_ rfl
    | with_reducible assumption
    | with_reducible apply signalAdd_follows
    | with_reducible apply Follows.ite
    | with_reducible apply Follows.fold
    | with_reducible apply FollowsP.ite
    | with_reducible apply FollowsP.mk
    | with_reducible refine FollowsP2.snd (signalAdd_follows ?_)

theorem sealNext_follows {a1} {a2} (h : Follows z s) :
    Follows z (sealNext a1 a2 s) := by
  unfold sealNext
  try dsimp only
  repeat' first
    | (intro _)
    | fail_if_no_progress with_reducible refine Follows.put ?_ rfl
    | with_reducible assumption
    | with_reducible apply sealFail_follows
    | with_reducible apply setSeal_follows
    | with_reducible apply setModel_follows
    | with_reducible apply finishOp_follows
    | with_reducible apply frzWrite_follows
    | with_reducible apply zeroiseBerth_follows
    | with_reducible apply Follows.ite
    | with_reducible apply Follows.fold
    | with_reducible apply FollowsP.ite
    | with_reducible apply FollowsP.mk
    | with_reducible refine FollowsP.snd (frzWrite_follows ?_)

theorem sealAwait_follows {a1} {a2} {a3} {a4} {a5} (h : Follows z s) :
    Follows z (sealAwait a1 a2 a3 a4 a5 s) := by
  unfold sealAwait
  try dsimp only
  repeat' first
    | (intro _)
    | fail_if_no_progress with_reducible refine Follows.put ?_ rfl
    | with_reducible assumption
    | with_reducible apply sealRead_follows
    | with_reducible apply sealFail_follows
    | with_reducible apply Follows.ite
    | with_reducible apply Follows.fold
    | split

theorem sealPump_follows {a1} (h : Follows z s) :
    Follows z (sealPump a1 s) := by
  unfold sealPump
  try dsimp only
  repeat' first
    | (intro _)
    | fail_if_no_progress with_reducible refine Follows.put ?_ rfl
    | with_reducible assumption
    | with_reducible apply sealAwait_follows
    | with_reducible apply setSeal_follows
    | with_reducible apply Follows.ite
    | with_reducible apply Follows.fold
    | split

theorem sealLoaded_follows {a1} {a2} (h : Follows z s) :
    Follows z (sealLoaded a1 a2 s) := by
  unfold sealLoaded
  try dsimp only
  repeat' first
    | (intro _)
    | fail_if_no_progress with_reducible refine Follows.put ?_ rfl
    | with_reducible assumption
    | with_reducible apply sealNext_follows
    | with_reducible apply sealDrain_follows
    | with_reducible apply sealLine_follows
    | with_reducible apply sealFail_follows
    | with_reducible apply Follows.ite
    | with_reducible apply Follows.fold
    | with_reducible apply FollowsP.ite
    | with_reducible apply FollowsP.mk
    | with_reducible refine FollowsP.snd (sealDrain_follows ?_)
    | split

theorem sealBack_follows {a1} {a2} {a3} (h : Follows z s) :
    Follows z (sealBack a1 a2 a3 s) := by
  unfold sealBack
  try dsimp only
  repeat' first
    | (intro _)
    | fail_if_no_progress with_reducible refine Follows.put ?_ rfl
    | with_reducible assumption
    | with_reducible apply sealLoaded_follows
    | with_reducible apply sealNext_follows
    | with_reducible apply sealDrain_follows
    | with_reducible apply sealLine_follows
    | with_reducible apply sealRead_follows
    | with_reducible apply sealFail_follows
    | with_reducible apply setSeal_follows
    | with_reducible apply submitPiece_follows
    | with_reducible apply State.updOp_follows
    | with_reducible apply Follows.ite
    | with_reducible apply Follows.fold
    | with_reducible apply FollowsP.ite
    | with_reducible apply FollowsP.mk
    | with_reducible refine FollowsP.snd (sealDrain_follows ?_)
    | split

theorem sealCheck_follows {a1} {a2} {a3} (h : Follows z s) :
    FollowsP2 z (sealCheck a1 a2 a3 s) := by
  unfold sealCheck
  try dsimp only
  repeat' first
    | (intro _)
    | fail_if_no_progress with_reducible refine Follows.put ?_ rfl
    | with_reducible assumption
    | with_reducible apply berthLoad_follows
    | with_reducible apply Follows.ite
    | with_reducible apply Follows.fold
    | with_reducible apply FollowsP2.mk
    | with_reducible refine FollowsP2.snd (berthLoad_follows ?_)
    | split

theorem sealStart_follows {a1} {a2} {a3} (h : Follows z s) :
    Follows z (sealStart a1 a2 a3 s) := by
  unfold sealStart
  try dsimp only
  repeat' first
    | (intro _)
    | fail_if_no_progress with_reducible refine Follows.put ?_ rfl
    | with_reducible assumption
    | with_reducible apply sealCheck_follows
    | with_reducible apply setModel_follows
    | with_reducible apply finishOp_follows
    | with_reducible apply frzWrite_follows
    | with_reducible apply State.updOp_follows
    | with_reducible apply Follows.ite
    | with_reducible apply Follows.fold
    | with_reducible apply FollowsP.ite
    | with_reducible apply FollowsP.mk
    | with_reducible refine FollowsP2.snd (sealCheck_follows ?_)
    | with_reducible refine FollowsP.snd (frzWrite_follows ?_)

theorem sealGo_follows {a1} {a2} (h : Follows z s) :
    Follows z (sealGo a1 a2 s) := by
  unfold sealGo
  try dsimp only
  repeat' first
    | (intro _)
    | fail_if_no_progress with_reducible refine Follows.put ?_ rfl
    | with_reducible assumption
    | with_reducible apply sealStart_follows
    | with_reducible apply Follows.ite
    | with_reducible apply Follows.fold
    | split

theorem insSealld_follows {a1} {a2} {a3} (h : Follows z s) :
    Follows z (insSealld a1 a2 a3 s) := by
  unfold insSealld
  try dsimp only
  repeat' first
    | (intro _)
    | fail_if_no_progress with_reducible refine Follows.put ?_ rfl
    | with_reducible assumption
    | with_reducible apply sealStart_follows
    | with_reducible apply strandOp_follows
    | with_reducible apply checked_follows
    | with_reducible apply insFault_follows
    | with_reducible apply insNext_follows
    | with_reducible apply Follows.ite
    | with_reducible apply Follows.fold
    | with_reducible apply FollowsP.ite
    | with_reducible apply FollowsP.mk
    | with_reducible refine FollowsP.snd (strandOp_follows ?_)

theorem sealAbortGo_follows {a1} {a2} (h : Follows z s) :
    Follows z (sealAbortGo a1 a2 s) := by
  unfold sealAbortGo
  try dsimp only
  repeat' first
    | (intro _)
    | fail_if_no_progress with_reducible refine Follows.put ?_ rfl
    | with_reducible assumption
    | with_reducible apply sealFail_follows
    | with_reducible apply finishOp_follows
    | with_reducible apply frzWrite_follows
    | with_reducible apply Follows.ite
    | with_reducible apply Follows.fold
    | with_reducible apply FollowsP.ite
    | with_reducible apply FollowsP.mk
    | with_reducible refine FollowsP.snd (frzWrite_follows ?_)
    | split

theorem regionReleaseGo_follows {a1} {a2} (h : Follows z s) :
    Follows z (regionReleaseGo a1 a2 s) := by
  unfold regionReleaseGo
  try dsimp only
  repeat' first
    | (intro _)
    | fail_if_no_progress with_reducible refine Follows.put ?_ rfl
    | with_reducible assumption
    | with_reducible apply setModel_follows
    | with_reducible apply finishOp_follows
    | with_reducible apply frzWrite_follows
    | with_reducible apply Follows.ite
    | with_reducible apply Follows.fold
    | with_reducible apply FollowsP.ite
    | with_reducible apply FollowsP.mk
    | with_reducible refine FollowsP.snd (frzWrite_follows ?_)

theorem failSeals_follows {a1} {a2} (h : Follows z s) :
    Follows z (failSeals a1 a2 s) := by
  unfold failSeals
  try dsimp only
  repeat' first
    | (intro _)
    | fail_if_no_progress with_reducible refine Follows.put ?_ rfl
    | with_reducible assumption
    | with_reducible apply sealFail_follows
    | with_reducible apply Follows.ite
    | with_reducible apply Follows.fold
    | split

theorem unwrapGo_follows {a1} {a2} (h : Follows z s) :
    Follows z (unwrapGo a1 a2 s) := by
  unfold unwrapGo
  try dsimp only
  repeat' first
    | (intro _)
    | fail_if_no_progress with_reducible refine Follows.put ?_ rfl
    | with_reducible assumption
    | with_reducible apply ioRead_follows
    | with_reducible apply State.updOp_follows

theorem keyUnwrap_follows {a1} {a2} (h : Follows z s) :
    FollowsP2 z (keyUnwrap a1 a2 s) := by
  unfold keyUnwrap
  try dsimp only
  repeat' first
    | (intro _)
    | fail_if_no_progress with_reducible refine Follows.put ?_ rfl
    | with_reducible assumption
    | with_reducible apply berthEnd_follows
    | with_reducible apply berthUnwrap_follows
    | with_reducible apply Follows.ite
    | with_reducible apply Follows.fold
    | with_reducible apply FollowsP.ite
    | with_reducible apply FollowsP.mk
    | with_reducible apply FollowsP2.mk
    | with_reducible refine FollowsP.snd (berthUnwrap_follows ?_)
    | split

theorem unwrapBack_follows {a1} {a2} {a3} (h : Follows z s) :
    Follows z (unwrapBack a1 a2 a3 s) := by
  unfold unwrapBack
  try dsimp only
  repeat' first
    | (intro _)
    | fail_if_no_progress with_reducible refine Follows.put ?_ rfl
    | with_reducible assumption
    | with_reducible apply keyUnwrap_follows
    | with_reducible apply finishOp_follows
    | with_reducible apply submitPiece_follows
    | with_reducible apply State.updOp_follows
    | with_reducible apply Follows.ite
    | with_reducible apply Follows.fold
    | with_reducible refine FollowsP2.snd (keyUnwrap_follows ?_)

end Sys2Proof.Machine
end

