-- ==== Sys2Proof/Laws/FollowsFault.lean ====
section
/-! SUPPORT. The operations of Machine/Fault.lean follow. -/

namespace Sys2Proof.Machine

variable {z s : State}

theorem chainClose_follows {a1} {a2} (h : Follows z s) :
    Follows z (chainClose a1 a2 s) := by
  unfold chainClose
  try dsimp only
  repeat' first
    | (intro _)
    | fail_if_no_progress with_reducible refine Follows.put ?_ rfl
    | with_reducible assumption
    | with_reducible apply writeAfter_follows
    | with_reducible apply endWrite_follows
    | with_reducible apply Follows.ite
    | with_reducible apply Follows.fold
    | split

theorem engineLimit_follows {a1} (h : Follows z s) :
    Follows z (engineLimit a1 s) := by
  unfold engineLimit
  try dsimp only
  repeat' first
    | (intro _)
    | fail_if_no_progress with_reducible refine Follows.put ?_ rfl
    | with_reducible assumption
    | with_reducible apply chainClose_follows
    | with_reducible apply advance_follows
    | with_reducible apply endLine_follows
    | with_reducible apply deliver_follows
    | with_reducible apply putLine_follows
    | with_reducible apply State.updEng_follows
    | with_reducible apply Follows.ite
    | with_reducible apply Follows.fold

theorem quayCut_follows {a1} (h : Follows z s) :
    Follows z (quayCut a1 s) := by
  unfold quayCut
  try dsimp only
  repeat' first
    | (intro _)
    | fail_if_no_progress with_reducible refine Follows.put ?_ rfl
    | with_reducible assumption
    | with_reducible apply sealFail_follows
    | with_reducible apply breakSess_follows
    | with_reducible apply endSessOps_follows
    | with_reducible apply allocZeroFail_follows
    | with_reducible apply finishOp_follows
    | with_reducible apply State.dropOp_follows
    | with_reducible apply Follows.ite
    | with_reducible apply Follows.fold
    | split

theorem domCut_follows {a1} (h : Follows z s) :
    Follows z (domCut a1 s) := by
  unfold domCut
  try dsimp only
  repeat' first
    | (intro _)
    | fail_if_no_progress with_reducible refine Follows.put ?_ rfl
    | with_reducible assumption
    | with_reducible apply quayCut_follows
    | with_reducible apply failSeals_follows
    | with_reducible apply failSlots_follows
    | with_reducible apply bumpBy_follows
    | with_reducible apply Follows.ite

theorem areaNext_follows {a1} {a2} {a3} {a4} (h : Follows z s) :
    FollowsP z (areaNext a1 a2 a3 a4 s) := by
  induction a4 generalizing s a3 with
  | nil =>
    unfold areaNext
    try dsimp only
    repeat' first
      | (intro _)
      | fail_if_no_progress with_reducible refine Follows.put ?_ rfl
      | with_reducible assumption
      | with_reducible apply submitPiece_follows
      | with_reducible apply bump_follows
      | with_reducible apply Follows.ite
      | with_reducible apply Follows.fold
      | with_reducible apply FollowsP.ite
      | with_reducible apply FollowsP.mk
  | cons x l ih =>
    unfold areaNext
    try dsimp only
    repeat' first
      | (intro _)
      | fail_if_no_progress with_reducible refine Follows.put ?_ rfl
      | with_reducible apply ih
      | with_reducible refine FollowsP.snd (ih ?_)
      | with_reducible assumption
      | with_reducible apply submitPiece_follows
      | with_reducible apply bump_follows
      | with_reducible apply Follows.ite
      | with_reducible apply Follows.fold
      | with_reducible apply FollowsP.ite
      | with_reducible apply FollowsP.mk

theorem dumpGo_follows {a1} {a2} {a3} (h : Follows z s) :
    Follows z (dumpGo a1 a2 a3 s) := by
  unfold dumpGo
  try dsimp only
  repeat' first
    | (intro _)
    | fail_if_no_progress with_reducible refine Follows.put ?_ rfl
    | with_reducible assumption
    | with_reducible apply areaNext_follows
    | with_reducible apply State.setDom_follows
    | with_reducible apply Follows.ite
    | with_reducible apply Follows.fold
    | with_reducible apply FollowsP.ite
    | with_reducible apply FollowsP.mk
    | with_reducible refine FollowsP.snd (areaNext_follows ?_)

theorem dumpBack_follows {a1} {a2} {a3} (h : Follows z s) :
    Follows z (dumpBack a1 a2 a3 s) := by
  unfold dumpBack
  try dsimp only
  repeat' first
    | (intro _)
    | fail_if_no_progress with_reducible refine Follows.put ?_ rfl
    | with_reducible assumption
    | with_reducible apply dumpGo_follows
    | with_reducible apply submitPiece_follows
    | with_reducible apply bump_follows
    | with_reducible apply State.setDom_follows
    | with_reducible apply State.updWin_follows
    | with_reducible apply Follows.ite
    | with_reducible apply Follows.fold
    | split

theorem enterDump_follows {a1} (h : Follows z s) :
    Follows z (enterDump a1 s) := by
  unfold enterDump
  try dsimp only
  repeat' first
    | (intro _)
    | fail_if_no_progress with_reducible refine Follows.put ?_ rfl
    | with_reducible assumption
    | with_reducible apply dumpGo_follows
    | with_reducible apply domCut_follows
    | with_reducible apply State.setDom_follows
    | with_reducible apply Follows.ite
    | with_reducible apply Follows.fold
    | split

theorem fencePump_follows (h : Follows z s) :
    Follows z (fencePump s) := by
  unfold fencePump
  try dsimp only
  repeat' first
    | (intro _)
    | fail_if_no_progress with_reducible refine Follows.put ?_ rfl
    | with_reducible assumption
    | with_reducible apply enterDump_follows
    | with_reducible apply Follows.ite
    | with_reducible apply Follows.fold

theorem fenceGroup_follows {a1} {a2} {a3} (h : Follows z s) :
    Follows z (fenceGroup a1 a2 a3 s) := by
  unfold fenceGroup
  try dsimp only
  repeat' first
    | (intro _)
    | fail_if_no_progress with_reducible refine Follows.put ?_ rfl
    | with_reducible assumption
    | with_reducible apply stopStrands_follows
    | with_reducible apply tideHold_follows
    | with_reducible apply advance_follows
    | with_reducible apply State.setDom_follows
    | with_reducible apply State.updEng_follows
    | with_reducible apply Follows.ite
    | with_reducible apply Follows.fold

theorem keeperEnter_follows {a1} {a2} (h : Follows z s) :
    Follows z (keeperEnter a1 a2 s) := by
  unfold keeperEnter
  try dsimp only
  repeat' first
    | (intro _)
    | fail_if_no_progress with_reducible refine Follows.put ?_ rfl
    | with_reducible assumption
    | with_reducible apply fenceGroup_follows
    | with_reducible apply Follows.ite
    | with_reducible apply Follows.fold
    | split
    | with_reducible refine Follows.putMode ?_ (.inl rfl) rfl
    | with_reducible refine Follows.putMode ?_ (.inr rfl) rfl

theorem fenceDomain_follows {a1} {a2} (h : Follows z s) :
    Follows z (fenceDomain a1 a2 s) := by
  unfold fenceDomain
  try dsimp only
  repeat' first
    | (intro _)
    | fail_if_no_progress with_reducible refine Follows.put ?_ rfl
    | with_reducible assumption
    | with_reducible apply keeperEnter_follows
    | with_reducible apply fenceGroup_follows
    | with_reducible apply bump_follows
    | with_reducible apply Follows.ite

theorem drainLimit_follows {a1} (h : Follows z s) :
    Follows z (drainLimit a1 s) := by
  unfold drainLimit
  try dsimp only
  repeat' first
    | (intro _)
    | fail_if_no_progress with_reducible refine Follows.put ?_ rfl
    | with_reducible assumption
    | with_reducible apply domCut_follows
    | with_reducible apply engineLimit_follows
    | with_reducible apply State.setDom_follows
    | with_reducible apply Follows.ite
    | with_reducible apply Follows.fold

theorem domClear_follows {a1} (h : Follows z s) :
    Follows z (domClear a1 s) := by
  unfold domClear
  try dsimp only
  repeat' first
    | (intro _)
    | fail_if_no_progress with_reducible refine Follows.put ?_ rfl
    | with_reducible assumption
    | with_reducible apply State.updQuay_follows
    | with_reducible apply State.updEng_follows
    | with_reducible apply Follows.ite

theorem fencedNow_follows {a1} (h : Follows z s) :
    Follows z (fencedNow a1 s) := by
  unfold fencedNow
  try dsimp only
  repeat' first
    | (intro _)
    | fail_if_no_progress with_reducible refine Follows.put ?_ rfl
    | with_reducible assumption
    | with_reducible apply domClear_follows
    | with_reducible apply State.updIsland_follows
    | with_reducible apply State.setDom_follows
    | with_reducible apply Follows.ite
    | with_reducible apply Follows.fold

theorem dumpLimit_follows {a1} (h : Follows z s) :
    Follows z (dumpLimit a1 s) := by
  unfold dumpLimit
  try dsimp only
  repeat' first
    | (intro _)
    | fail_if_no_progress with_reducible refine Follows.put ?_ rfl
    | with_reducible assumption
    | with_reducible apply fencedNow_follows
    | with_reducible apply dumpGo_follows
    | with_reducible apply bumpBy_follows
    | with_reducible apply State.setDom_follows
    | with_reducible apply Follows.ite
    | with_reducible apply Follows.fold
    | split

theorem bistPump_follows (h : Follows z s) :
    Follows z (bistPump s) := by
  unfold bistPump
  try dsimp only
  repeat' first
    | (intro _)
    | fail_if_no_progress with_reducible refine Follows.put ?_ rfl
    | with_reducible assumption
    | with_reducible apply State.setIsland_follows
    | with_reducible apply Follows.ite
    | with_reducible apply Follows.fold

theorem enterSafe_follows (h : Follows z s) :
    Follows z (enterSafe s) := by
  unfold enterSafe
  try dsimp only
  repeat' first
    | (intro _)
    | fail_if_no_progress with_reducible refine Follows.put ?_ rfl
    | with_reducible assumption
    | with_reducible apply raisePrivOpen_follows
    | with_reducible apply Follows.ite
    | with_reducible apply Follows.fold
    | split
    | with_reducible refine Follows.putMode ?_ (.inl rfl) rfl
    | with_reducible refine Follows.putMode ?_ (.inr rfl) rfl

theorem domOpen_follows {a1} (h : Follows z s) :
    Follows z (domOpen a1 s) := by
  unfold domOpen
  try dsimp only
  repeat' first
    | (intro _)
    | fail_if_no_progress with_reducible refine Follows.put ?_ rfl
    | with_reducible assumption
    | with_reducible apply tideResume_follows
    | with_reducible apply putRecord_follows
    | with_reducible apply State.updIsland_follows
    | with_reducible apply State.setDom_follows
    | with_reducible apply Follows.ite
    | with_reducible apply Follows.fold

theorem returnDone_follows (h : Follows z s) :
    Follows z (returnDone s) := by
  unfold returnDone
  try dsimp only
  repeat' first
    | (intro _)
    | fail_if_no_progress with_reducible refine Follows.put ?_ rfl
    | with_reducible assumption
    | with_reducible apply domOpen_follows
    | with_reducible apply enterSafe_follows
    | with_reducible apply State.setDom_follows
    | with_reducible apply Follows.ite
    | with_reducible apply Follows.fold
    | split
    | with_reducible refine Follows.putMode ?_ (.inl rfl) rfl

theorem bistComplete_follows {a1} {a2} (h : Follows z s) :
    Follows z (bistComplete a1 a2 s) := by
  unfold bistComplete
  try dsimp only
  repeat' first
    | (intro _)
    | fail_if_no_progress with_reducible refine Follows.put ?_ rfl
    | with_reducible assumption
    | with_reducible apply returnDone_follows
    | with_reducible apply bistPump_follows
    | with_reducible apply mbEnd_follows
    | with_reducible apply State.setIsland_follows
    | with_reducible apply Follows.ite
    | with_reducible apply Follows.fold
    | split

theorem bistRun_follows (h : Follows z s) :
    Follows z (bistRun s) := by
  unfold bistRun
  try dsimp only
  repeat' first
    | (intro _)
    | fail_if_no_progress with_reducible refine Follows.put ?_ rfl
    | with_reducible assumption
    | with_reducible apply mbRun_follows
    | with_reducible apply mbRefuse_follows
    | with_reducible apply State.updIsland_follows
    | with_reducible apply Follows.ite
    | with_reducible apply Follows.fold
    | with_reducible apply FollowsP.ite
    | with_reducible apply FollowsP.mk

theorem dftBistStart_follows {a1} (h : Follows z s) :
    Follows z (dftBistStart a1 s) := by
  unfold dftBistStart
  try dsimp only
  repeat' first
    | (intro _)
    | fail_if_no_progress with_reducible refine Follows.put ?_ rfl
    | with_reducible assumption
    | with_reducible apply bistPump_follows
    | with_reducible apply State.updIsland_follows
    | with_reducible apply Follows.ite

theorem releaseRefuse_follows {a1} (h : Follows z s) :
    Follows z (releaseRefuse a1 s) := by
  unfold releaseRefuse
  try dsimp only
  repeat' first
    | (intro _)
    | fail_if_no_progress with_reducible refine Follows.put ?_ rfl
    | with_reducible assumption
    | with_reducible apply auditLog_follows

theorem releaseDomain_follows {a1} (h : Follows z s) :
    Follows z (releaseDomain a1 s) := by
  unfold releaseDomain
  try dsimp only
  repeat' first
    | (intro _)
    | fail_if_no_progress with_reducible refine Follows.put ?_ rfl
    | with_reducible assumption
    | with_reducible apply releaseRefuse_follows
    | with_reducible apply domOpen_follows
    | with_reducible apply bistPump_follows
    | with_reducible apply State.updIsland_follows
    | with_reducible apply Follows.ite
    | with_reducible apply Follows.fold

theorem drainLimitExpiry_follows {a1} (h : Follows z s) :
    Follows z (drainLimitExpiry a1 s) := by
  unfold drainLimitExpiry
  try dsimp only
  repeat' first
    | (intro _)
    | fail_if_no_progress with_reducible refine Follows.put ?_ rfl
    | with_reducible assumption
    | with_reducible apply drainLimit_follows
    | with_reducible apply fencePump_follows

theorem dumpWritten_follows {a1} (h : Follows z s) :
    Follows z (dumpWritten a1 s) := by
  unfold dumpWritten
  try dsimp only
  repeat' first
    | (intro _)
    | fail_if_no_progress with_reducible refine Follows.put ?_ rfl
    | with_reducible assumption
    | with_reducible apply fencedNow_follows

end Sys2Proof.Machine
end

