-- ==== Sys2Proof/Laws/FollowsLifeCycle.lean ====
section
/-! SUPPORT. The operations of Machine/LifeCycle.lean follow. -/

namespace Sys2Proof.Machine

variable {z s : State}

theorem pregPush_follows {a1} {a2} {a3} (h : Follows z s) :
    FollowsP z (pregPush a1 a2 a3 s) := by
  unfold pregPush
  try dsimp only
  repeat' first
    | (intro _)
    | fail_if_no_progress with_reducible refine Follows.put ?_ rfl
    | with_reducible assumption
    | with_reducible apply nvPush_follows
    | with_reducible apply Follows.ite
    | with_reducible apply Follows.fold
    | with_reducible apply FollowsP.ite
    | with_reducible apply FollowsP.mk

theorem pregStatus_follows {a1} {a2} (h : Follows z s) :
    Follows z (pregStatus a1 a2 s) := by
  unfold pregStatus
  try dsimp only
  repeat' first
    | (intro _)
    | fail_if_no_progress with_reducible refine Follows.put ?_ rfl
    | with_reducible assumption

theorem pregWrite_follows {a1} {a2} {a3} (h : Follows z s) :
    Follows z (pregWrite a1 a2 a3 s) := by
  unfold pregWrite
  try dsimp only
  repeat' first
    | (intro _)
    | fail_if_no_progress with_reducible refine Follows.put ?_ rfl
    | with_reducible assumption
    | with_reducible apply pregStatus_follows
    | with_reducible apply pregPush_follows
    | with_reducible apply regGuard_follows
    | with_reducible apply Follows.ite
    | with_reducible apply Follows.fold
    | with_reducible apply FollowsP.ite
    | with_reducible apply FollowsP.mk
    | with_reducible refine FollowsP.snd (pregPush_follows ?_)

theorem eraseBegin_follows (h : Follows z s) :
    FollowsP z (eraseBegin s) := by
  unfold eraseBegin
  try dsimp only
  repeat' first
    | (intro _)
    | fail_if_no_progress with_reducible refine Follows.put ?_ rfl
    | with_reducible assumption
    | with_reducible apply pregPush_follows
    | with_reducible apply emptyBerth_follows
    | with_reducible apply Follows.ite
    | with_reducible apply Follows.fold
    | with_reducible apply FollowsP.ite
    | with_reducible apply FollowsP.mk

theorem fillBegin_follows (h : Follows z s) :
    Follows z (fillBegin s) := by
  unfold fillBegin
  try dsimp only
  repeat' first
    | (intro _)
    | fail_if_no_progress with_reducible refine Follows.put ?_ rfl
    | with_reducible assumption
    | with_reducible apply nvPush_follows

theorem fillNext_follows (h : Follows z s) :
    Follows z (fillNext s) := by
  unfold fillNext
  try dsimp only
  repeat' first
    | (intro _)
    | fail_if_no_progress with_reducible refine Follows.put ?_ rfl
    | with_reducible assumption
    | with_reducible apply nvPush_follows
    | with_reducible apply Follows.ite

theorem eraseUserSecrets_follows (h : Follows z s) :
    Follows z (eraseUserSecrets s) := by
  unfold eraseUserSecrets
  try dsimp only
  repeat' first
    | (intro _)
    | fail_if_no_progress with_reducible refine Follows.put ?_ rfl
    | with_reducible assumption
    | with_reducible apply eraseBegin_follows
    | with_reducible apply mbRun_follows
    | with_reducible apply mbRefuse_follows
    | with_reducible apply Follows.ite
    | with_reducible apply Follows.fold
    | with_reducible apply FollowsP.ite
    | with_reducible apply FollowsP.mk
    | with_reducible refine FollowsP.snd (eraseBegin_follows ?_)

theorem lcOutcome_follows {a1} (h : Follows z s) :
    Follows z (lcOutcome a1 s) := by
  unfold lcOutcome
  try dsimp only
  repeat' first
    | (intro _)
    | fail_if_no_progress with_reducible refine Follows.put ?_ rfl
    | with_reducible assumption
    | with_reducible apply auditLog_follows
    | with_reducible apply bumpIf_follows

theorem lcProgram_follows (h : Follows z s) :
    Follows z (lcProgram s) := by
  unfold lcProgram
  try dsimp only
  repeat' first
    | (intro _)
    | fail_if_no_progress with_reducible refine Follows.put ?_ rfl
    | with_reducible assumption
    | with_reducible apply otpPush_follows
    | with_reducible apply Follows.ite
    | with_reducible apply Follows.fold

theorem tokenFail_follows (h : Follows z s) :
    Follows z (tokenFail s) := by
  unfold tokenFail
  dsimp only
  split
  · apply raisePrivOpen_follows
    exact { h with lc := h.lc.trans ⟨rfl, id, fun _ => rfl, Nat.le_succ _, fun _ _ => rfl, .inl rfl⟩ }
  · rename_i hn
    have k : LcKept s.lc { s.lc with tokenFails := s.lc.tokenFails + 1 } :=
      ⟨rfl, id, id, Nat.le_succ _, fun k (g : 16 ≤ s.lc.tokenFails + 1) => k (by omega), .inl rfl⟩
    exact { h with lc := h.lc.trans k }

theorem lcTransition_follows (h : Follows z s) :
    Follows z (lcTransition s) := by
  unfold lcTransition
  try dsimp only
  repeat' first
    | (intro _)
    | fail_if_no_progress with_reducible refine Follows.put ?_ rfl
    | with_reducible assumption
    | with_reducible apply tokenFail_follows
    | with_reducible apply lcProgram_follows
    | with_reducible apply lcOutcome_follows
    | with_reducible apply eraseBegin_follows
    | with_reducible apply mbRun_follows
    | with_reducible apply Follows.ite
    | with_reducible apply Follows.fold
    | with_reducible apply FollowsP.ite
    | with_reducible apply FollowsP.mk
    | with_reducible refine FollowsP.snd (eraseBegin_follows ?_)

theorem lcDone_follows (h : Follows z s) :
    Follows z (lcDone s) := by
  unfold lcDone
  have h1 : Follows z { s with lc := { s.lc with pending := true, pendTarget := s.lc.target, prog := [] } } :=
    { h with lc := h.lc.trans ⟨rfl, fun _ => rfl, id, Nat.le_refl _, id, .inl rfl⟩ }
  try dsimp only
  repeat' first
    | (intro _)
    | fail_if_no_progress with_reducible refine Follows.put ?_ rfl
    | with_reducible apply h1
    | with_reducible assumption
    | with_reducible apply lcOutcome_follows
    | with_reducible apply fenceGroup_follows
    | with_reducible apply mbEnd_follows
    | with_reducible apply emptyBerth_follows
    | with_reducible apply raisePrivOpen_follows
    | with_reducible apply State.free_follows
    | with_reducible apply Follows.ite
    | with_reducible apply Follows.fold
    | with_reducible apply FollowsP.ite
    | with_reducible apply FollowsP.mk
    | with_reducible refine FollowsP.snd (State.free_follows ?_)

theorem lcBack_follows {a1} {a2} (h : Follows z s) :
    Follows z (lcBack a1 a2 s) := by
  unfold lcBack
  try dsimp only
  repeat' first
    | (intro _)
    | fail_if_no_progress with_reducible refine Follows.put ?_ rfl
    | with_reducible assumption
    | with_reducible apply lcDone_follows
    | with_reducible apply lcOutcome_follows
    | with_reducible apply mbEnd_follows
    | with_reducible apply otpPush_follows
    | with_reducible apply Follows.ite
    | with_reducible apply Follows.fold
    | split

theorem eraseOn_follows {a1} {a2} (h : Follows z s) :
    Follows z (eraseOn a1 a2 s) := by
  unfold eraseOn
  try dsimp only
  repeat' first
    | (intro _)
    | fail_if_no_progress with_reducible refine Follows.put ?_ rfl
    | with_reducible assumption
    | with_reducible apply lcProgram_follows
    | with_reducible apply lcOutcome_follows
    | with_reducible apply fillBegin_follows
    | with_reducible apply pregPush_follows
    | with_reducible apply mbEnd_follows
    | with_reducible apply Follows.ite
    | with_reducible apply Follows.fold
    | with_reducible apply FollowsP.ite
    | with_reducible apply FollowsP.mk
    | with_reducible refine FollowsP.snd (pregPush_follows ?_)

theorem eraseFail_follows (h : Follows z s) :
    Follows z (eraseFail s) := by
  unfold eraseFail
  try dsimp only
  repeat' first
    | (intro _)
    | fail_if_no_progress with_reducible refine Follows.put ?_ rfl
    | with_reducible assumption
    | with_reducible apply lcOutcome_follows
    | with_reducible apply mbEnd_follows
    | with_reducible apply Follows.ite

end Sys2Proof.Machine
end

