-- ==== Sys2Proof/Laws/FollowsTenants.lean ====
section
/-! SUPPORT. The operations of Machine/Tenants.lean follow. -/

namespace Sys2Proof.Machine

variable {z s : State}

theorem prityPut_follows {a1} {a2} {a3} {a4 : State → State} (h : Follows z s) (ha4 : ∀ u, Follows z u → Follows z (a4 u)) :
    FollowsP z (prityPut a1 a2 a3 a4 s) := by
  unfold prityPut
  try dsimp only
  repeat' first
    | (intro _)
    | fail_if_no_progress with_reducible refine Follows.put ?_ rfl
    | with_reducible assumption
    | with_reducible apply ha4
    | with_reducible apply readBackFails_follows
    | with_reducible apply auditLog_follows
    | with_reducible apply Follows.ite
    | with_reducible apply Follows.fold
    | with_reducible apply FollowsP.ite
    | with_reducible apply FollowsP.mk
    | with_reducible refine FollowsP.snd (readBackFails_follows ?_)

theorem steps_follows {a1} (h : Follows z s) (hl : FollowsL z a1) :
    FollowsP z (steps a1 s) := by
  obtain ⟨hl⟩ := hl
  induction a1 generalizing s with
  | nil => exact h
  | cons f l ih =>
    have hf := hl f List.mem_cons_self s h
    unfold steps
    dsimp only
    split
    · exact ih hf fun g hg => hl g (List.mem_cons_of_mem _ hg)
    · exact hf

theorem berthStep_follows {a1} {a2 : State → Status × State} (h : Follows z s) (ha2 : ∀ u, Follows z u → FollowsP z (a2 u)) :
    FollowsP z (berthStep a1 a2 s) := by
  unfold berthStep
  try dsimp only
  repeat' first
    | (intro _)
    | fail_if_no_progress with_reducible refine Follows.put ?_ rfl
    | with_reducible assumption
    | with_reducible apply ha2
    | with_reducible apply auditLog_follows
    | with_reducible apply Follows.ite
    | with_reducible apply Follows.fold
    | with_reducible apply FollowsP.ite
    | with_reducible apply FollowsP.mk
    | with_reducible refine FollowsP.snd (ha2 _ ?_)

theorem admKey_follows {a1} {a2} (h : Follows z s) :
    FollowsP z (admKey a1 a2 s) := by
  unfold admKey
  try dsimp only
  repeat' first
    | (intro _)
    | fail_if_no_progress with_reducible refine Follows.put ?_ rfl
    | with_reducible assumption
    | with_reducible apply berthStep_follows
    | with_reducible apply steps_follows
    | with_reducible apply prityPut_follows
    | with_reducible apply kmapPut_follows
    | with_reducible apply berthGen_follows
    | with_reducible apply Follows.ite
    | with_reducible apply Follows.fold
    | with_reducible apply FollowsP.ite
    | with_reducible apply FollowsP.mk
    | with_reducible refine FollowsP.snd (berthStep_follows ?_ ?_)
    | with_reducible refine FollowsP.snd (steps_follows ?_ ?_)
    | with_reducible refine FollowsP.snd (prityPut_follows ?_ ?_)
    | with_reducible refine FollowsP.snd (berthGen_follows ?_)
    | split
    | refine FollowsP.eq (by assumption) ?_
    | with_reducible refine Follows.putMode ?_ (.inl rfl) rfl
    | with_reducible refine Follows.putMode ?_ (.inr rfl) rfl
    | with_reducible refine Follows.putCnt ?_ (fun e => countersOk_set e (Nat.zero_le _)) rfl
    | with_reducible apply Follows.foldP
    | with_reducible exact FollowsL.nil
    | with_reducible apply FollowsL.cons

theorem admDerive_follows {a1} {a2} {a3} {a4} {a5} (h : Follows z s) :
    FollowsP z (admDerive a1 a2 a3 a4 a5 s) := by
  unfold admDerive
  try dsimp only
  repeat' first
    | (intro _)
    | fail_if_no_progress with_reducible refine Follows.put ?_ rfl
    | with_reducible assumption
    | with_reducible apply berthStep_follows
    | with_reducible apply berthDerive_follows
    | with_reducible apply State.updMoor_follows
    | with_reducible apply Follows.ite
    | with_reducible apply Follows.fold
    | with_reducible apply FollowsP.ite
    | with_reducible apply FollowsP.mk
    | with_reducible refine FollowsP.snd (berthStep_follows ?_ ?_)

theorem tideRecord_follows {a1} {a2} (h : Follows z s) :
    Follows z (tideRecord a1 a2 s) := by
  unfold tideRecord
  try dsimp only
  repeat' first
    | (intro _)
    | fail_if_no_progress with_reducible refine Follows.put ?_ rfl
    | with_reducible assumption
    | with_reducible apply Follows.ite
    | with_reducible apply Follows.fold

theorem frzPut_follows {a1} {a2} {a3} (h : Follows z s) :
    FollowsP z (frzPut a1 a2 a3 s) := by
  unfold frzPut
  try dsimp only
  repeat' first
    | (intro _)
    | fail_if_no_progress with_reducible refine Follows.put ?_ rfl
    | with_reducible assumption
    | with_reducible apply steps_follows
    | with_reducible apply prityPut_follows
    | with_reducible apply State.updEng_follows
    | with_reducible apply Follows.ite
    | with_reducible apply Follows.fold
    | with_reducible apply FollowsP.ite
    | with_reducible apply FollowsP.mk
    | with_reducible refine FollowsP.snd (steps_follows ?_ ?_)
    | with_reducible refine FollowsP.snd (prityPut_follows ?_ ?_)
    | split
    | refine FollowsP.eq (by assumption) ?_
    | with_reducible refine Follows.putMode ?_ (.inl rfl) rfl
    | with_reducible refine Follows.putMode ?_ (.inr rfl) rfl
    | with_reducible refine Follows.putCnt ?_ (fun e => countersOk_set e (Nat.zero_le _)) rfl
    | with_reducible apply Follows.foldP
    | with_reducible exact FollowsL.nil
    | with_reducible apply FollowsL.cons

theorem phomePut_follows {a1} {a2} {a3} (h : Follows z s) :
    FollowsP z (phomePut a1 a2 a3 s) := by
  unfold phomePut
  try dsimp only
  repeat' first
    | (intro _)
    | fail_if_no_progress with_reducible refine Follows.put ?_ rfl
    | with_reducible assumption
    | with_reducible apply steps_follows
    | with_reducible apply prityPut_follows
    | with_reducible apply State.updEng_follows
    | with_reducible apply Follows.ite
    | with_reducible apply Follows.fold
    | with_reducible apply FollowsP.ite
    | with_reducible apply FollowsP.mk
    | with_reducible refine FollowsP.snd (steps_follows ?_ ?_)
    | with_reducible refine FollowsP.snd (prityPut_follows ?_ ?_)
    | split
    | refine FollowsP.eq (by assumption) ?_
    | with_reducible refine Follows.putMode ?_ (.inl rfl) rfl
    | with_reducible refine Follows.putMode ?_ (.inr rfl) rfl
    | with_reducible refine Follows.putCnt ?_ (fun e => countersOk_set e (Nat.zero_le _)) rfl
    | with_reducible apply Follows.foldP
    | with_reducible exact FollowsL.nil
    | with_reducible apply FollowsL.cons

theorem proutePut_follows {a1} {a2} (h : Follows z s) :
    FollowsP z (proutePut a1 a2 s) := by
  unfold proutePut
  try dsimp only
  repeat' first
    | (intro _)
    | fail_if_no_progress with_reducible refine Follows.put ?_ rfl
    | with_reducible assumption
    | with_reducible apply steps_follows
    | with_reducible apply prityPut_follows
    | with_reducible apply Follows.ite
    | with_reducible apply Follows.fold
    | with_reducible apply FollowsP.ite
    | with_reducible apply FollowsP.mk
    | with_reducible refine FollowsP.snd (steps_follows ?_ ?_)
    | with_reducible refine FollowsP.snd (prityPut_follows ?_ ?_)
    | split
    | refine FollowsP.eq (by assumption) ?_
    | with_reducible refine Follows.putMode ?_ (.inl rfl) rfl
    | with_reducible refine Follows.putMode ?_ (.inr rfl) rfl
    | with_reducible refine Follows.putCnt ?_ (fun e => countersOk_set e (Nat.zero_le _)) rfl
    | with_reducible apply Follows.foldP
    | with_reducible exact FollowsL.nil
    | with_reducible apply FollowsL.cons

theorem admEnd_follows {a1} {a2} (h : Follows z s) :
    Follows z (admEnd a1 a2 s) := by
  unfold admEnd
  try dsimp only
  repeat' first
    | (intro _)
    | fail_if_no_progress with_reducible refine Follows.put ?_ rfl
    | with_reducible assumption
    | with_reducible apply mbEnd_follows
    | with_reducible apply State.updMoor_follows

theorem admRest_follows {a1} (h : Follows z s) :
    Follows z (admRest a1 s) := by
  unfold admRest
  try dsimp only
  repeat' first
    | (intro _)
    | fail_if_no_progress with_reducible refine Follows.put ?_ rfl
    | with_reducible assumption
    | with_reducible apply admEnd_follows
    | with_reducible apply proutePut_follows
    | with_reducible apply phomePut_follows
    | with_reducible apply frzPut_follows
    | with_reducible apply tideRecord_follows
    | with_reducible apply steps_follows
    | with_reducible apply pregPush_follows
    | with_reducible apply State.updEq_follows
    | with_reducible apply State.updQueue_follows
    | with_reducible apply State.updMoor_follows
    | with_reducible apply Follows.ite
    | with_reducible apply Follows.fold
    | with_reducible apply FollowsP.ite
    | with_reducible apply FollowsP.mk
    | with_reducible refine FollowsP.snd (proutePut_follows ?_)
    | with_reducible refine FollowsP.snd (phomePut_follows ?_)
    | with_reducible refine FollowsP.snd (frzPut_follows ?_)
    | with_reducible refine FollowsP.snd (steps_follows ?_ ?_)
    | with_reducible refine FollowsP.snd (pregPush_follows ?_)
    | split
    | refine FollowsP.eq (by assumption) ?_
    | with_reducible refine Follows.putMode ?_ (.inl rfl) rfl
    | with_reducible refine Follows.putMode ?_ (.inr rfl) rfl
    | with_reducible refine Follows.putCnt ?_ (fun e => countersOk_set e (Nat.zero_le _)) rfl
    | with_reducible apply Follows.foldP
    | with_reducible exact FollowsL.nil
    | with_reducible apply FollowsL.cons
    | with_reducible apply FollowsL.append
    | with_reducible apply FollowsL.map
    | with_reducible apply FollowsL.flatMap

theorem admFillNext_follows {a1} {a2} {a3} {a4} (h : Follows z s) :
    Follows z (admFillNext a1 a2 a3 a4 s) := by
  unfold admFillNext
  try dsimp only
  repeat' first
    | (intro _)
    | fail_if_no_progress with_reducible refine Follows.put ?_ rfl
    | with_reducible assumption
    | with_reducible apply admRest_follows
    | with_reducible apply ioWrite_follows
    | with_reducible apply State.dropOp_follows
    | with_reducible apply State.setOp_follows
    | with_reducible apply Follows.ite

theorem admFillFail_follows {a1} {a2} (h : Follows z s) :
    Follows z (admFillFail a1 a2 s) := by
  unfold admFillFail
  try dsimp only
  repeat' first
    | (intro _)
    | fail_if_no_progress with_reducible refine Follows.put ?_ rfl
    | with_reducible assumption
    | with_reducible apply admEnd_follows
    | with_reducible apply State.dropOp_follows
    | with_reducible apply Follows.ite

theorem tenantAdmit_follows (h : Follows z s) :
    Follows z (tenantAdmit s) := by
  unfold tenantAdmit
  apply mbRun_follows h
  intro u hu
  with_reducible apply FollowsP.ite (.mk (State.updMoor_follows hu))
  dsimp only
  have hr {v t k j a f g} (h : Follows z v) : Follows z (steps ([admKey t k] ++
      (if j = 0 then [] else [admKey t j]) ++ [admDerive t 1 3 a f, admDerive t 2 1 a g]) v).2 :=
    FollowsP.snd (steps_follows h (.append (.append (.cons (fun u => admKey_follows) .nil)
      (.ite .nil (.cons (fun u => admKey_follows) .nil)))
      (.cons (fun u => admDerive_follows) (.cons (fun u => admDerive_follows) .nil))))
  with_reducible apply FollowsP.ite
  · with_reducible exact .mk (State.updMoor_follows (hr (State.setMoor_follows hu)))
  · with_reducible exact .mk (ioWrite_follows (FollowsP.snd (startOp_follows (hr (State.setMoor_follows hu)))))

theorem admStop_follows {a1} (h : Follows z s) :
    Follows z (admStop a1 s) := by
  unfold admStop
  try dsimp only
  repeat' first
    | (intro _)
    | fail_if_no_progress with_reducible refine Follows.put ?_ rfl
    | with_reducible assumption
    | with_reducible apply admEnd_follows
    | with_reducible apply State.dropOp_follows
    | with_reducible apply Follows.ite
    | with_reducible apply Follows.fold

theorem tdiError_follows {a1} (h : Follows z s) :
    Follows z (tdiError a1 s) := by
  unfold tdiError
  try dsimp only
  repeat' first
    | (intro _)
    | fail_if_no_progress with_reducible refine Follows.put ?_ rfl
    | with_reducible assumption
    | with_reducible apply Follows.ite

theorem intakePump_follows {a1} (h : Follows z s) :
    Follows z (intakePump a1 s) := by
  unfold intakePump
  try dsimp only
  repeat' first
    | (intro _)
    | fail_if_no_progress with_reducible refine Follows.put ?_ rfl
    | with_reducible assumption
    | with_reducible apply squashQueue_follows
    | with_reducible apply Follows.ite
    | with_reducible apply Follows.fold
    | with_reducible apply FollowsP.ite
    | with_reducible apply FollowsP.mk
    | with_reducible refine FollowsP.snd (squashQueue_follows ?_)

theorem abortOps_follows {a1} (h : Follows z s) :
    Follows z (abortOps a1 s) := by
  unfold abortOps
  try dsimp only
  repeat' first
    | (intro _)
    | fail_if_no_progress with_reducible refine Follows.put ?_ rfl
    | with_reducible assumption
    | with_reducible apply sealFail_follows
    | with_reducible apply allocZeroFail_follows
    | with_reducible apply finishOp_follows
    | with_reducible apply State.dropOp_follows
    | with_reducible apply State.updObj_follows
    | with_reducible apply Follows.ite
    | with_reducible apply Follows.fold
    | split

theorem dropReduce_follows {a1} (h : Follows z s) :
    Follows z (dropReduce a1 s) := by
  unfold dropReduce
  try dsimp only
  repeat' first
    | (intro _)
    | fail_if_no_progress with_reducible refine Follows.put ?_ rfl
    | with_reducible assumption
    | with_reducible apply failSlots_follows
    | with_reducible apply bumpBy_follows

theorem berthsStep_follows {a1} {a2} {a3 : ℕ → State → State} (h : Follows z s) (ha3 : ∀ y0 u, Follows z u → Follows z (a3 y0 u)) :
    Follows z (berthsStep a1 a2 a3 s) := by
  unfold berthsStep
  try dsimp only
  repeat' first
    | (intro _)
    | fail_if_no_progress with_reducible refine Follows.put ?_ rfl
    | with_reducible assumption
    | with_reducible apply ha3
    | with_reducible apply berthStep_follows
    | with_reducible apply makeBad_follows
    | with_reducible apply readBackFails_follows
    | with_reducible apply Follows.ite
    | with_reducible apply Follows.fold
    | with_reducible apply FollowsP.ite
    | with_reducible apply FollowsP.mk
    | with_reducible refine FollowsP.snd (berthStep_follows ?_ ?_)
    | with_reducible refine FollowsP.snd (readBackFails_follows ?_)

theorem revokePoint_follows {a1} (h : Follows z s) :
    Follows z (revokePoint a1 s) := by
  unfold revokePoint
  try dsimp only
  repeat' first
    | (intro _)
    | fail_if_no_progress with_reducible refine Follows.put ?_ rfl
    | with_reducible assumption
    | with_reducible apply berthsStep_follows
    | with_reducible apply dropReduce_follows
    | with_reducible apply abortOps_follows
    | with_reducible apply stopStrands_follows
    | with_reducible apply revokeSess_follows
    | with_reducible apply cancelJobs_follows
    | with_reducible apply revokeBerth_follows
    | with_reducible apply State.setMoor_follows
    | with_reducible apply Follows.ite
    | with_reducible apply Follows.fold

theorem removeBegin_follows {a1} {a2} (h : Follows z s) :
    Follows z (removeBegin a1 a2 s) := by
  unfold removeBegin
  try dsimp only
  repeat' first
    | (intro _)
    | fail_if_no_progress with_reducible refine Follows.put ?_ rfl
    | with_reducible assumption
    | with_reducible apply revokePoint_follows
    | with_reducible apply intakePump_follows
    | with_reducible apply tdiError_follows
    | with_reducible apply admStop_follows
    | with_reducible apply State.updMoor_follows
    | with_reducible apply Follows.ite
    | with_reducible apply Follows.fold
    | split

theorem drainWindowEnd_follows {a1} (h : Follows z s) :
    Follows z (drainWindowEnd a1 s) := by
  unfold drainWindowEnd
  try dsimp only
  repeat' first
    | (intro _)
    | fail_if_no_progress with_reducible refine Follows.put ?_ rfl
    | with_reducible assumption
    | with_reducible apply revokePoint_follows

theorem drainMerges_follows {a1} {a2} (h : Follows z s) :
    Follows z (drainMerges a1 a2 s) := by
  unfold drainMerges
  try dsimp only
  repeat' first
    | (intro _)
    | fail_if_no_progress with_reducible refine Follows.put ?_ rfl
    | with_reducible assumption
    | with_reducible apply chainClose_follows
    | with_reducible apply advance_follows
    | with_reducible apply endLine_follows
    | with_reducible apply Follows.ite
    | with_reducible apply Follows.fold

theorem moorObjs_follows {a1} (h : Follows z s) :
    Follows z (moorObjs a1 s) := by
  unfold moorObjs
  try dsimp only
  repeat' first
    | (intro _)
    | fail_if_no_progress with_reducible refine Follows.put ?_ rfl
    | with_reducible assumption
    | with_reducible apply retireObj_follows
    | with_reducible apply freeingObj_follows
    | with_reducible apply Follows.ite
    | with_reducible apply Follows.fold

theorem removeEnd_follows {a1} {a2} (h : Follows z s) :
    Follows z (removeEnd a1 a2 s) := by
  unfold removeEnd
  try dsimp only
  repeat' first
    | (intro _)
    | fail_if_no_progress with_reducible refine Follows.put ?_ rfl
    | with_reducible assumption
    | with_reducible apply mbEnd_follows
    | with_reducible apply State.updMoor_follows
    | with_reducible apply Follows.ite

theorem moorQuarantine_follows {a1} {a2} (h : Follows z s) :
    Follows z (moorQuarantine a1 a2 s) := by
  unfold moorQuarantine
  try dsimp only
  repeat' first
    | (intro _)
    | fail_if_no_progress with_reducible refine Follows.put ?_ rfl
    | with_reducible assumption
    | with_reducible apply removeEnd_follows
    | with_reducible apply berthsStep_follows
    | with_reducible apply quarantineBerth_follows
    | with_reducible apply State.updMoor_follows
    | with_reducible apply Follows.ite

theorem scrubQueue_follows {a1} (h : Follows z s) :
    Follows z (scrubQueue a1 s) := by
  unfold scrubQueue
  try dsimp only
  repeat' first
    | (intro _)
    | fail_if_no_progress with_reducible refine Follows.put ?_ rfl
    | with_reducible assumption
    | with_reducible apply queueJob_follows
    | with_reducible apply State.updMoor_follows
    | with_reducible apply Follows.ite
    | with_reducible apply Follows.fold
    | split

theorem moorScrub_follows {a1} (h : Follows z s) :
    Follows z (moorScrub a1 s) := by
  unfold moorScrub
  try dsimp only
  repeat' first
    | (intro _)
    | fail_if_no_progress with_reducible refine Follows.put ?_ rfl
    | with_reducible assumption
    | with_reducible apply scrubQueue_follows
    | with_reducible apply berthsStep_follows
    | with_reducible apply prityPut_follows
    | with_reducible apply kmapPut_follows
    | with_reducible apply releaseBerth_follows
    | with_reducible apply State.setMoor_follows
    | with_reducible apply State.updEng_follows
    | with_reducible apply Follows.ite
    | with_reducible apply Follows.fold
    | with_reducible apply FollowsP.ite
    | with_reducible apply FollowsP.mk
    | with_reducible refine FollowsP.snd (prityPut_follows ?_ ?_)

theorem moorFree_follows {a1} (h : Follows z s) :
    Follows z (moorFree a1 s) := by
  unfold moorFree
  dsimp only
  with_reducible apply State.setMoor_follows
  with_reducible refine Follows.putCnt ?_ countersOk_filter rfl
  with_reducible apply Follows.fold
  · intro s x hs
    exact Follows.ite (FollowsP.snd (proutePut_follows hs)) hs
  with_reducible apply Follows.fold
  · intro s x hs
    with_reducible apply Follows.fold
    · intro s x hs
      exact Follows.ite (FollowsP.snd (phomePut_follows hs)) hs
    · assumption
  repeat' first
    | (intro _)
    | with_reducible assumption
    | with_reducible apply State.setEq_follows
    | with_reducible apply State.setQueue_follows
    | with_reducible apply Follows.ite
    | with_reducible apply Follows.fold

theorem scrubDone_follows (h : Follows z s) :
    Follows z (scrubDone s) := by
  unfold scrubDone
  try dsimp only
  repeat' first
    | (intro _)
    | fail_if_no_progress with_reducible refine Follows.put ?_ rfl
    | with_reducible assumption
    | with_reducible apply moorFree_follows
    | with_reducible apply State.setJob_follows
    | with_reducible apply trace_follows
    | with_reducible apply Follows.ite
    | with_reducible apply Follows.fold

theorem moorPump_follows (h : Follows z s) :
    Follows z (moorPump s) := by
  unfold moorPump
  try dsimp only
  repeat' first
    | (intro _)
    | fail_if_no_progress with_reducible refine Follows.put ?_ rfl
    | with_reducible assumption
    | with_reducible apply scrubDone_follows
    | with_reducible apply moorScrub_follows
    | with_reducible apply scrubQueue_follows
    | with_reducible apply moorQuarantine_follows
    | with_reducible apply moorObjs_follows
    | with_reducible apply intakePump_follows
    | with_reducible apply Follows.ite
    | with_reducible apply Follows.fold

theorem lichenDrainEnd_follows {a1} (h : Follows z s) :
    Follows z (lichenDrainEnd a1 s) := by
  unfold lichenDrainEnd
  try dsimp only
  repeat' first
    | (intro _)
    | fail_if_no_progress with_reducible refine Follows.put ?_ rfl
    | with_reducible assumption
    | with_reducible apply moorPump_follows
    | with_reducible apply drainMerges_follows
    | with_reducible apply State.updMoor_follows
    | with_reducible apply Follows.ite
    | with_reducible apply Follows.fold

theorem removeAlone_follows (h : Follows z s) :
    Follows z (removeAlone s) := by
  unfold removeAlone
  try dsimp only
  repeat' first
    | (intro _)
    | fail_if_no_progress with_reducible refine Follows.put ?_ rfl
    | with_reducible assumption
    | with_reducible apply State.updMoor_follows
    | with_reducible apply Follows.ite
    | with_reducible apply Follows.fold

end Sys2Proof.Machine
end

