-- ==== Sys2Proof/Laws/FollowsAttest.lean ====
section
/-! SUPPORT. The operations of Machine/Attest.lean follow. -/

namespace Sys2Proof.Machine

variable {z s : State}

theorem buildIdentity_follows (h : Follows z s) :
    Follows z (buildIdentity s) := by
  unfold buildIdentity
  try dsimp only
  repeat' first
    | (intro _)
    | fail_if_no_progress with_reducible refine Follows.put ?_ rfl
    | with_reducible assumption
    | with_reducible apply berthStep_follows
    | with_reducible apply berthDerive_follows
    | with_reducible apply Follows.ite
    | with_reducible apply Follows.fold
    | with_reducible apply FollowsP.ite
    | with_reducible apply FollowsP.mk
    | with_reducible refine FollowsP.snd (berthStep_follows ?_ ?_)
    | with_reducible refine FollowsP.snd (berthDerive_follows ?_)
    | split

theorem signEc_follows {a1} (h : Follows z s) :
    FollowsOP z (signEc a1 s) := by
  unfold signEc
  try dsimp only
  repeat' first
    | (intro _)
    | fail_if_no_progress with_reducible refine Follows.put ?_ rfl
    | with_reducible assumption
    | with_reducible apply drbg_follows
    | with_reducible apply State.free_follows
    | with_reducible apply Follows.ite
    | with_reducible apply Follows.fold
    | with_reducible apply FollowsP.ite
    | with_reducible apply FollowsP.mk
    | with_reducible refine FollowsP.snd (State.free_follows ?_)
    | with_reducible exact FollowsOP.none
    | with_reducible apply FollowsOP.some
    | with_reducible apply FollowsOP.getD
    | with_reducible apply FollowsOP.mapP
    | with_reducible apply FollowsOP.map
    | split

theorem signMl_follows {a1} {a2} (h : Follows z s) :
    FollowsOP z (signMl a1 a2 s) := by
  unfold signMl
  try dsimp only
  repeat' first
    | (intro _)
    | fail_if_no_progress with_reducible refine Follows.put ?_ rfl
    | with_reducible assumption
    | with_reducible apply drbg_follows
    | with_reducible apply State.free_follows
    | with_reducible apply Follows.ite
    | with_reducible apply Follows.fold
    | with_reducible apply FollowsP.ite
    | with_reducible apply FollowsP.mk
    | with_reducible refine FollowsP.snd (State.free_follows ?_)
    | with_reducible exact FollowsOP.none
    | with_reducible apply FollowsOP.some
    | with_reducible apply FollowsOP.getD
    | with_reducible apply FollowsOP.mapP
    | with_reducible apply FollowsOP.map
    | split

theorem d2dSend_follows {a1} {a2} {a3} (h : Follows z s) :
    Follows z (d2dSend a1 a2 a3 s) := by
  unfold d2dSend
  try dsimp only
  repeat' first
    | (intro _)
    | fail_if_no_progress with_reducible refine Follows.put ?_ rfl
    | with_reducible assumption
    | with_reducible apply emit_follows
    | with_reducible apply Follows.ite
    | with_reducible apply Follows.fold
    | split

theorem d2dFragments_follows {a1} {a2} {a3} {a4} {a5} (h : Follows z s) :
    Follows z (d2dFragments a1 a2 a3 a4 a5 s) := by
  unfold d2dFragments
  try dsimp only
  repeat' first
    | (intro _)
    | fail_if_no_progress with_reducible refine Follows.put ?_ rfl
    | with_reducible assumption
    | with_reducible apply d2dSend_follows
    | with_reducible apply Follows.ite
    | with_reducible apply Follows.fold

theorem gatherFrag_follows {a1} {a2} (h : Follows z s) :
    FollowsP2 z (gatherFrag a1 a2 s) := by
  unfold gatherFrag
  try dsimp only
  repeat' first
    | (intro _)
    | fail_if_no_progress with_reducible refine Follows.put ?_ rfl
    | with_reducible assumption
    | with_reducible apply Follows.ite
    | with_reducible apply Follows.fold
    | with_reducible apply FollowsP2.mk
    | split

theorem makeReport_follows {a1} {a2} {a3} {a4} {a5} {a6} (h : Follows z s) :
    FollowsOP z (makeReport a1 a2 a3 a4 a5 a6 s) := by
  unfold makeReport
  try dsimp only
  repeat' first
    | (intro _)
    | fail_if_no_progress with_reducible refine Follows.put ?_ rfl
    | with_reducible assumption
    | with_reducible apply signMl_follows
    | with_reducible apply signEc_follows
    | with_reducible apply Follows.ite
    | with_reducible apply Follows.fold
    | with_reducible exact FollowsOP.none
    | with_reducible apply FollowsOP.some
    | with_reducible apply FollowsOP.getD
    | with_reducible apply FollowsOP.mapP
    | with_reducible apply FollowsOP.map
    | split
    | refine FollowsOP.eq (by assumption) ?_

theorem instanceReport_follows {a1} (h : Follows z s) :
    FollowsOP z (instanceReport a1 s) := by
  unfold instanceReport
  try dsimp only
  repeat' first
    | (intro _)
    | fail_if_no_progress with_reducible refine Follows.put ?_ rfl
    | with_reducible assumption
    | with_reducible apply makeReport_follows

theorem assembleReport_follows {a1} (h : Follows z s) :
    FollowsOP z (assembleReport a1 s) := by
  unfold assembleReport
  try dsimp only
  repeat' first
    | (intro _)
    | fail_if_no_progress with_reducible refine Follows.put ?_ rfl
    | with_reducible assumption
    | with_reducible apply makeReport_follows

theorem spdmAnswer_follows {a1} {a2} (h : Follows z s) :
    Follows z (spdmAnswer a1 a2 s) := by
  unfold spdmAnswer
  try dsimp only
  repeat' first
    | (intro _)
    | fail_if_no_progress with_reducible refine Follows.put ?_ rfl
    | with_reducible assumption
    | with_reducible apply emit_follows

theorem spdmError_follows {a1} {a2} {a3} {a4} (h : Follows z s) :
    Follows z (spdmError a1 a2 a3 a4 s) := by
  unfold spdmError
  try dsimp only
  repeat' first
    | (intro _)
    | fail_if_no_progress with_reducible refine Follows.put ?_ rfl
    | with_reducible assumption
    | with_reducible apply spdmAnswer_follows

theorem vendorAnswer_follows {a1} {a2} (h : Follows z s) :
    Follows z (vendorAnswer a1 a2 s) := by
  unfold vendorAnswer
  try dsimp only
  repeat' first
    | (intro _)
    | fail_if_no_progress with_reducible refine Follows.put ?_ rfl
    | with_reducible assumption
    | with_reducible apply spdmAnswer_follows

theorem vendorStatus_follows {a1} {a2} (h : Follows z s) :
    Follows z (vendorStatus a1 a2 s) := by
  unfold vendorStatus
  try dsimp only
  repeat' first
    | (intro _)
    | fail_if_no_progress with_reducible refine Follows.put ?_ rfl
    | with_reducible assumption
    | with_reducible apply vendorAnswer_follows

theorem setConn_follows {a1} {a2} (h : Follows z s) :
    Follows z (setConn a1 a2 s) := by
  unfold setConn
  try dsimp only
  repeat' first
    | (intro _)
    | fail_if_no_progress with_reducible refine Follows.put ?_ rfl
    | with_reducible assumption

theorem updSess_follows {a1} {a2} (h : Follows z s) :
    Follows z (updSess a1 a2 s) := by
  unfold updSess
  try dsimp only
  repeat' first
    | (intro _)
    | fail_if_no_progress with_reducible refine Follows.put ?_ rfl
    | with_reducible assumption
    | with_reducible apply setConn_follows
    | with_reducible apply Follows.ite
    | with_reducible apply Follows.fold
    | split

theorem holdObj_follows {a1} {a2} (h : Follows z s) :
    Follows z (holdObj a1 a2 s) := by
  unfold holdObj
  try dsimp only
  repeat' first
    | (intro _)
    | fail_if_no_progress with_reducible refine Follows.put ?_ rfl
    | with_reducible assumption
    | with_reducible apply updSess_follows
    | with_reducible apply setConn_follows
    | with_reducible apply Follows.ite
    | with_reducible apply Follows.fold
    | split

theorem objectAnswer_follows {a1} {a2} {a3} {a4} (h : Follows z s) :
    Follows z (objectAnswer a1 a2 a3 a4 s) := by
  unfold objectAnswer
  try dsimp only
  repeat' first
    | (intro _)
    | fail_if_no_progress with_reducible refine Follows.put ?_ rfl
    | with_reducible assumption
    | with_reducible apply vendorStatus_follows
    | with_reducible apply vendorAnswer_follows
    | with_reducible apply Follows.ite

theorem reportDone_follows {a1} {a2} {a3} (h : Follows z s) :
    Follows z (reportDone a1 a2 a3 s) := by
  unfold reportDone
  try dsimp only
  repeat' first
    | (intro _)
    | fail_if_no_progress with_reducible refine Follows.put ?_ rfl
    | with_reducible assumption
    | with_reducible apply objectAnswer_follows
    | with_reducible apply holdObj_follows
    | with_reducible apply vendorStatus_follows
    | with_reducible apply d2dFragments_follows
    | with_reducible apply mbPut_follows
    | with_reducible apply mbEnd_follows
    | with_reducible apply Follows.ite
    | with_reducible apply Follows.fold
    | split

theorem reportFinish_follows {a1} (h : Follows z s) :
    Follows z (reportFinish a1 s) := by
  unfold reportFinish
  try dsimp only
  repeat' first
    | (intro _)
    | fail_if_no_progress with_reducible refine Follows.put ?_ rfl
    | with_reducible assumption
    | with_reducible apply reportDone_follows
    | with_reducible apply assembleReport_follows
    | with_reducible apply Follows.ite
    | with_reducible apply Follows.fold
    | with_reducible exact FollowsOP.none
    | with_reducible apply FollowsOP.some
    | with_reducible apply FollowsOP.getD
    | with_reducible apply FollowsOP.mapP
    | with_reducible apply FollowsOP.map
    | split
    | refine FollowsOP.eq (by assumption) ?_

theorem reportBegin_follows {a1} (h : Follows z s) :
    Follows z (reportBegin a1 s) := by
  unfold reportBegin
  try dsimp only
  repeat' first
    | (intro _)
    | fail_if_no_progress with_reducible refine Follows.put ?_ rfl
    | with_reducible assumption
    | with_reducible apply reportFinish_follows
    | with_reducible apply reportDone_follows
    | with_reducible apply d2dSend_follows
    | with_reducible apply Follows.ite
    | with_reducible apply Follows.fold

theorem entryAsked_follows {a1} {a2} (h : Follows z s) :
    Follows z (entryAsked a1 a2 s) := by
  unfold entryAsked
  try dsimp only
  repeat' first
    | (intro _)
    | fail_if_no_progress with_reducible refine Follows.put ?_ rfl
    | with_reducible assumption
    | with_reducible apply d2dFragments_follows

theorem entryIn_follows {a1} {a2} (h : Follows z s) :
    Follows z (entryIn a1 a2 s) := by
  unfold entryIn
  try dsimp only
  repeat' first
    | (intro _)
    | fail_if_no_progress with_reducible refine Follows.put ?_ rfl
    | with_reducible assumption
    | with_reducible apply reportFinish_follows
    | with_reducible apply Follows.ite
    | with_reducible apply Follows.fold
    | split

theorem reportAsked_follows {a1} {a2} (h : Follows z s) :
    Follows z (reportAsked a1 a2 s) := by
  unfold reportAsked
  try dsimp only
  repeat' first
    | (intro _)
    | fail_if_no_progress with_reducible refine Follows.put ?_ rfl
    | with_reducible assumption
    | with_reducible apply reportBegin_follows
    | with_reducible apply Follows.ite

theorem reportIn_follows {a1} {a2} {a3} (h : Follows z s) :
    Follows z (reportIn a1 a2 a3 s) := by
  unfold reportIn
  try dsimp only
  repeat' first
    | (intro _)
    | fail_if_no_progress with_reducible refine Follows.put ?_ rfl
    | with_reducible assumption
    | with_reducible apply reportDone_follows
    | with_reducible apply Follows.ite
    | with_reducible apply Follows.fold
    | split

theorem dieEntryTimeout_follows (h : Follows z s) :
    Follows z (dieEntryTimeout s) := by
  unfold dieEntryTimeout
  try dsimp only
  repeat' first
    | (intro _)
    | fail_if_no_progress with_reducible refine Follows.put ?_ rfl
    | with_reducible assumption
    | with_reducible apply reportFinish_follows
    | with_reducible apply Follows.ite
    | with_reducible apply Follows.fold
    | split

theorem quote_follows {a1} (h : Follows z s) :
    Follows z (quote a1 s) := by
  unfold quote
  try dsimp only
  repeat' first
    | (intro _)
    | fail_if_no_progress with_reducible refine Follows.put ?_ rfl
    | with_reducible assumption
    | with_reducible apply reportBegin_follows
    | with_reducible apply instanceReport_follows
    | with_reducible apply mbPut_follows
    | with_reducible apply mbRun_follows
    | with_reducible apply Follows.ite
    | with_reducible apply Follows.fold
    | with_reducible apply FollowsP.ite
    | with_reducible apply FollowsP.mk
    | with_reducible exact FollowsOP.none
    | with_reducible apply FollowsOP.some
    | with_reducible apply FollowsOP.getD
    | with_reducible apply FollowsOP.mapP
    | with_reducible apply FollowsOP.map
    | split
    | refine FollowsOP.eq (by assumption) ?_

end Sys2Proof.Machine
end

