-- ==== Sys2Proof/Laws/FollowsFed.lean ====
section
/-! SUPPORT. The operations of Machine/Fed.lean follow. -/

namespace Sys2Proof.Machine

variable {z s : State}

theorem updFed_follows {a1} (h : Follows z s) :
    Follows z (updFed a1 s) := by
  unfold updFed
  try dsimp only
  repeat' first
    | (intro _)
    | fail_if_no_progress with_reducible refine Follows.put ?_ rfl
    | with_reducible assumption

theorem fedSend_follows {a1} {a2} (h : Follows z s) :
    Follows z (fedSend a1 a2 s) := by
  unfold fedSend
  try dsimp only
  repeat' first
    | (intro _)
    | fail_if_no_progress with_reducible refine Follows.put ?_ rfl
    | with_reducible assumption
    | with_reducible apply State.updQuay_follows
    | with_reducible apply Follows.ite

theorem sendUp_follows {a1} (h : Follows z s) :
    Follows z (sendUp a1 s) := by
  unfold sendUp
  try dsimp only
  repeat' first
    | (intro _)
    | fail_if_no_progress with_reducible refine Follows.put ?_ rfl
    | with_reducible assumption
    | with_reducible apply fedSend_follows
    | with_reducible apply d2dSend_follows
    | with_reducible apply Follows.ite
    | with_reducible apply Follows.fold
    | split

theorem sendDies_follows {a1} (h : Follows z s) :
    Follows z (sendDies a1 s) := by
  unfold sendDies
  try dsimp only
  repeat' first
    | (intro _)
    | fail_if_no_progress with_reducible refine Follows.put ?_ rfl
    | with_reducible assumption
    | with_reducible apply d2dSend_follows
    | with_reducible apply Follows.ite
    | with_reducible apply Follows.fold

theorem sendAll_follows {a1} (h : Follows z s) :
    Follows z (sendAll a1 s) := by
  unfold sendAll
  try dsimp only
  repeat' first
    | (intro _)
    | fail_if_no_progress with_reducible refine Follows.put ?_ rfl
    | with_reducible assumption
    | with_reducible apply sendDies_follows
    | with_reducible apply fedSend_follows
    | with_reducible apply Follows.ite
    | with_reducible apply Follows.fold

theorem fedFault_follows {a1} {a2} (h : Follows z s) :
    Follows z (fedFault a1 a2 s) := by
  unfold fedFault
  try dsimp only
  repeat' first
    | (intro _)
    | fail_if_no_progress with_reducible refine Follows.put ?_ rfl
    | with_reducible assumption
    | with_reducible apply startData_follows
    | with_reducible apply Follows.ite
    | with_reducible apply Follows.fold
    | with_reducible apply FollowsP.ite
    | with_reducible apply FollowsP.mk
    | with_reducible refine FollowsP.snd (startData_follows ?_)

theorem changeEnd_follows {a1} (h : Follows z s) :
    Follows z (changeEnd a1 s) := by
  unfold changeEnd
  try dsimp only
  repeat' first
    | (intro _)
    | fail_if_no_progress with_reducible refine Follows.put ?_ rfl
    | with_reducible assumption
    | with_reducible apply mbEnd_follows
    | with_reducible apply Follows.ite

theorem domainFault_follows {a1} (h : Follows z s) :
    Follows z (domainFault a1 s) := by
  unfold domainFault
  try dsimp only
  repeat' first
    | (intro _)
    | fail_if_no_progress with_reducible refine Follows.put ?_ rfl
    | with_reducible assumption
    | with_reducible apply changeEnd_follows
    | with_reducible apply fedFault_follows
    | with_reducible apply sendDies_follows
    | with_reducible apply sendUp_follows
    | with_reducible apply updFed_follows
    | with_reducible apply removeAlone_follows
    | with_reducible apply keeperEnter_follows
    | with_reducible apply raisePriv_follows
    | with_reducible apply Follows.ite
    | with_reducible apply Follows.fold

theorem domainFaultOpen_follows (h : Follows z s) :
    Follows z (domainFaultOpen s) := by
  unfold domainFaultOpen
  try dsimp only
  repeat' first
    | (intro _)
    | fail_if_no_progress with_reducible refine Follows.put ?_ rfl
    | with_reducible assumption
    | with_reducible apply domainFault_follows
    | with_reducible apply State.free_follows
    | with_reducible apply Follows.ite
    | with_reducible apply Follows.fold
    | with_reducible apply FollowsP.ite
    | with_reducible apply FollowsP.mk
    | with_reducible refine FollowsP.snd (State.free_follows ?_)

theorem injCommit_follows (h : Follows z s) :
    Follows z (injCommit s) := by
  unfold injCommit
  try dsimp only
  repeat' first
    | (intro _)
    | fail_if_no_progress with_reducible refine Follows.put ?_ rfl
    | with_reducible assumption
    | with_reducible apply State.updQuay_follows
    | with_reducible apply Follows.ite
    | with_reducible apply Follows.fold

theorem prepareLocal_follows {a1} (h : Follows z s) :
    Follows z (prepareLocal a1 s) := by
  unfold prepareLocal
  try dsimp only
  repeat' first
    | (intro _)
    | fail_if_no_progress with_reducible refine Follows.put ?_ rfl
    | with_reducible assumption
    | with_reducible apply updFed_follows
    | with_reducible apply moorQuarantine_follows
    | with_reducible apply removeBegin_follows
    | with_reducible apply Follows.ite
    | with_reducible apply Follows.fold

theorem replayGate_follows (h : Follows z s) :
    Follows z (replayGate s) := by
  unfold replayGate
  try dsimp only
  repeat' first
    | (intro _)
    | fail_if_no_progress with_reducible refine Follows.put ?_ rfl
    | with_reducible assumption
    | with_reducible apply State.updWin_follows
    | with_reducible apply Follows.ite
    | with_reducible apply Follows.fold

theorem commitLocal_follows {a1} (h : Follows z s) :
    Follows z (commitLocal a1 s) := by
  unfold commitLocal
  try dsimp only
  repeat' first
    | (intro _)
    | fail_if_no_progress with_reducible refine Follows.put ?_ rfl
    | with_reducible assumption
    | with_reducible apply replayGate_follows
    | with_reducible apply injCommit_follows
    | with_reducible apply updFed_follows
    | with_reducible apply moorScrub_follows
    | with_reducible apply bwCommit_follows
    | with_reducible apply bumpIf_follows
    | with_reducible apply bump_follows
    | with_reducible apply Follows.ite
    | with_reducible apply Follows.fold
    | split

theorem caughtUp_follows (h : Follows z s) :
    Follows z (caughtUp s) := by
  unfold caughtUp
  try dsimp only
  repeat' first
    | (intro _)
    | fail_if_no_progress with_reducible refine Follows.put ?_ rfl
    | with_reducible assumption
    | with_reducible apply changeEnd_follows
    | with_reducible apply updFed_follows
    | with_reducible apply Follows.ite

theorem abortChange_follows {a1} (h : Follows z s) :
    Follows z (abortChange a1 s) := by
  unfold abortChange
  try dsimp only
  repeat' first
    | (intro _)
    | fail_if_no_progress with_reducible refine Follows.put ?_ rfl
    | with_reducible assumption
    | with_reducible apply domainFault_follows
    | with_reducible apply changeEnd_follows
    | with_reducible apply sendAll_follows
    | with_reducible apply updFed_follows
    | with_reducible apply bump_follows
    | with_reducible apply Follows.ite
    | with_reducible apply Follows.fold
    | split

theorem anchorCheck_follows (h : Follows z s) :
    Follows z (anchorCheck s) := by
  unfold anchorCheck
  try dsimp only
  repeat' first
    | (intro _)
    | fail_if_no_progress with_reducible refine Follows.put ?_ rfl
    | with_reducible assumption
    | with_reducible apply caughtUp_follows
    | with_reducible apply commitLocal_follows
    | with_reducible apply sendAll_follows
    | with_reducible apply updFed_follows
    | with_reducible apply Follows.ite
    | with_reducible apply Follows.fold
    | split

theorem queueChange_follows {a1} (h : Follows z s) :
    FollowsP z (queueChange a1 s) := by
  unfold queueChange
  try dsimp only
  repeat' first
    | (intro _)
    | fail_if_no_progress with_reducible refine Follows.put ?_ rfl
    | with_reducible assumption
    | with_reducible apply updFed_follows
    | with_reducible apply Follows.ite
    | with_reducible apply Follows.fold
    | with_reducible apply FollowsP.ite
    | with_reducible apply FollowsP.mk

theorem changeStart_follows (h : Follows z s) :
    Follows z (changeStart s) := by
  unfold changeStart
  try dsimp only
  repeat' first
    | (intro _)
    | fail_if_no_progress with_reducible refine Follows.put ?_ rfl
    | with_reducible assumption
    | with_reducible apply anchorCheck_follows
    | with_reducible apply abortChange_follows
    | with_reducible apply prepareLocal_follows
    | with_reducible apply sendAll_follows
    | with_reducible apply updFed_follows
    | with_reducible apply State.free_follows
    | with_reducible apply Follows.ite
    | with_reducible apply Follows.fold
    | with_reducible apply FollowsP.ite
    | with_reducible apply FollowsP.mk
    | with_reducible refine FollowsP.snd (State.free_follows ?_)
    | split

theorem prepareTimeout_follows (h : Follows z s) :
    Follows z (prepareTimeout s) := by
  unfold prepareTimeout
  try dsimp only
  repeat' first
    | (intro _)
    | fail_if_no_progress with_reducible refine Follows.put ?_ rfl
    | with_reducible assumption
    | with_reducible apply abortChange_follows
    | with_reducible apply Follows.ite

theorem catchupTimeout_follows (h : Follows z s) :
    Follows z (catchupTimeout s) := by
  unfold catchupTimeout
  try dsimp only
  repeat' first
    | (intro _)
    | fail_if_no_progress with_reducible refine Follows.put ?_ rfl
    | with_reducible assumption
    | with_reducible apply domainFault_follows
    | with_reducible apply Follows.ite

theorem domainChange_follows {a1} (h : Follows z s) :
    Follows z (domainChange a1 s) := by
  unfold domainChange
  try dsimp only
  repeat' first
    | (intro _)
    | fail_if_no_progress with_reducible refine Follows.put ?_ rfl
    | with_reducible assumption
    | with_reducible apply queueChange_follows
    | with_reducible apply mbRun_follows
    | with_reducible apply Follows.ite
    | with_reducible apply Follows.fold
    | with_reducible apply FollowsP.ite
    | with_reducible apply FollowsP.mk
    | with_reducible refine FollowsP.snd (queueChange_follows ?_)

theorem tenantRemove_follows (h : Follows z s) :
    Follows z (tenantRemove s) := by
  unfold tenantRemove
  try dsimp only
  repeat' first
    | (intro _)
    | fail_if_no_progress with_reducible refine Follows.put ?_ rfl
    | with_reducible assumption
    | with_reducible apply queueChange_follows
    | with_reducible apply sendUp_follows
    | with_reducible apply removeBegin_follows
    | with_reducible apply mbRun_follows
    | with_reducible apply State.updMoor_follows
    | with_reducible apply Follows.ite
    | with_reducible apply Follows.fold
    | with_reducible apply FollowsP.ite
    | with_reducible apply FollowsP.mk
    | with_reducible refine FollowsP.snd (queueChange_follows ?_)

theorem revokePump_follows (h : Follows z s) :
    Follows z (revokePump s) := by
  unfold revokePump
  try dsimp only
  repeat' first
    | (intro _)
    | fail_if_no_progress with_reducible refine Follows.put ?_ rfl
    | with_reducible assumption
    | with_reducible apply queueChange_follows
    | with_reducible apply sendUp_follows
    | with_reducible apply updFed_follows
    | with_reducible apply Follows.ite
    | with_reducible apply Follows.fold
    | with_reducible apply FollowsP.ite
    | with_reducible apply FollowsP.mk
    | with_reducible refine FollowsP.snd (queueChange_follows ?_)
    | split

theorem pilotAck_follows (h : Follows z s) :
    Follows z (pilotAck s) := by
  unfold pilotAck
  try dsimp only
  repeat' first
    | (intro _)
    | fail_if_no_progress with_reducible refine Follows.put ?_ rfl
    | with_reducible assumption
    | with_reducible apply anchorCheck_follows
    | with_reducible apply sendUp_follows
    | with_reducible apply Follows.ite
    | with_reducible apply Follows.fold
    | split

theorem pilotHb_follows (h : Follows z s) :
    Follows z (pilotHb s) := by
  unfold pilotHb
  try dsimp only
  repeat' first
    | (intro _)
    | fail_if_no_progress with_reducible refine Follows.put ?_ rfl
    | with_reducible assumption
    | with_reducible apply caughtUp_follows
    | with_reducible apply sendUp_follows
    | with_reducible apply Follows.ite

theorem hbIn_follows {a1} (h : Follows z s) :
    Follows z (hbIn a1 s) := by
  unfold hbIn
  try dsimp only
  repeat' first
    | (intro _)
    | fail_if_no_progress with_reducible refine Follows.put ?_ rfl
    | with_reducible assumption
    | with_reducible apply pilotHb_follows
    | with_reducible apply commitLocal_follows
    | with_reducible apply domainFaultOpen_follows
    | with_reducible apply sendDies_follows
    | with_reducible apply sendUp_follows
    | with_reducible apply updFed_follows
    | with_reducible apply Follows.ite

theorem hbAckIn_follows {a1} (h : Follows z s) :
    Follows z (hbAckIn a1 s) := by
  unfold hbAckIn
  try dsimp only
  repeat' first
    | (intro _)
    | fail_if_no_progress with_reducible refine Follows.put ?_ rfl
    | with_reducible assumption
    | with_reducible apply pilotHb_follows
    | with_reducible apply caughtUp_follows
    | with_reducible apply updFed_follows
    | with_reducible apply Follows.ite
    | with_reducible apply Follows.fold
    | split

theorem requestIn_follows {a1} (h : Follows z s) :
    Follows z (requestIn a1 s) := by
  unfold requestIn
  try dsimp only
  repeat' first
    | (intro _)
    | fail_if_no_progress with_reducible refine Follows.put ?_ rfl
    | with_reducible assumption
    | with_reducible apply queueChange_follows
    | with_reducible apply sendUp_follows
    | with_reducible apply fedSend_follows
    | with_reducible apply d2dSend_follows
    | with_reducible apply bumpIf_follows
    | with_reducible apply Follows.ite
    | with_reducible apply Follows.fold
    | with_reducible apply FollowsP.ite
    | with_reducible apply FollowsP.mk
    | with_reducible refine FollowsP.snd (queueChange_follows ?_)
    | split

theorem prepareIn_follows {a1} (h : Follows z s) :
    Follows z (prepareIn a1 s) := by
  unfold prepareIn
  try dsimp only
  repeat' first
    | (intro _)
    | fail_if_no_progress with_reducible refine Follows.put ?_ rfl
    | with_reducible assumption
    | with_reducible apply pilotAck_follows
    | with_reducible apply prepareLocal_follows
    | with_reducible apply sendDies_follows
    | with_reducible apply sendUp_follows
    | with_reducible apply updFed_follows
    | with_reducible apply State.free_follows
    | with_reducible apply Follows.ite
    | with_reducible apply Follows.fold
    | with_reducible apply FollowsP.ite
    | with_reducible apply FollowsP.mk
    | with_reducible refine FollowsP.snd (State.free_follows ?_)

theorem prepAckIn_follows {a1} (h : Follows z s) :
    Follows z (prepAckIn a1 s) := by
  unfold prepAckIn
  try dsimp only
  repeat' first
    | (intro _)
    | fail_if_no_progress with_reducible refine Follows.put ?_ rfl
    | with_reducible assumption
    | with_reducible apply pilotAck_follows
    | with_reducible apply anchorCheck_follows
    | with_reducible apply updFed_follows
    | with_reducible apply Follows.ite
    | with_reducible apply Follows.fold
    | split

theorem prepNakIn_follows {a1} (h : Follows z s) :
    Follows z (prepNakIn a1 s) := by
  unfold prepNakIn
  try dsimp only
  repeat' first
    | (intro _)
    | fail_if_no_progress with_reducible refine Follows.put ?_ rfl
    | with_reducible assumption
    | with_reducible apply abortChange_follows
    | with_reducible apply sendUp_follows
    | with_reducible apply d2dSend_follows
    | with_reducible apply moorPump_follows
    | with_reducible apply State.updMoor_follows
    | with_reducible apply Follows.ite
    | with_reducible apply Follows.fold
    | split

theorem commitIn_follows {a1} (h : Follows z s) :
    Follows z (commitIn a1 s) := by
  unfold commitIn
  try dsimp only
  repeat' first
    | (intro _)
    | fail_if_no_progress with_reducible refine Follows.put ?_ rfl
    | with_reducible assumption
    | with_reducible apply revokePump_follows
    | with_reducible apply commitLocal_follows
    | with_reducible apply sendDies_follows
    | with_reducible apply Follows.ite

theorem abortIn_follows {a1} (h : Follows z s) :
    Follows z (abortIn a1 s) := by
  unfold abortIn
  try dsimp only
  repeat' first
    | (intro _)
    | fail_if_no_progress with_reducible refine Follows.put ?_ rfl
    | with_reducible assumption
    | with_reducible apply sendDies_follows
    | with_reducible apply updFed_follows
    | with_reducible apply Follows.ite

theorem drainedIn_follows {a1} (h : Follows z s) :
    Follows z (drainedIn a1 s) := by
  unfold drainedIn
  try dsimp only
  repeat' first
    | (intro _)
    | fail_if_no_progress with_reducible refine Follows.put ?_ rfl
    | with_reducible assumption
    | with_reducible apply revokePump_follows
    | with_reducible apply updFed_follows
    | with_reducible apply Follows.ite
    | with_reducible apply Follows.fold
    | split

theorem faultIn_follows {a1} (h : Follows z s) :
    Follows z (faultIn a1 s) := by
  unfold faultIn
  try dsimp only
  repeat' first
    | (intro _)
    | fail_if_no_progress with_reducible refine Follows.put ?_ rfl
    | with_reducible assumption
    | with_reducible apply domainFault_follows
    | with_reducible apply Follows.ite

theorem imageIn_follows {a1} (h : Follows z s) :
    Follows z (imageIn a1 s) := by
  unfold imageIn
  try dsimp only
  repeat' first
    | (intro _)
    | fail_if_no_progress with_reducible refine Follows.put ?_ rfl
    | with_reducible assumption
    | with_reducible apply replayGate_follows
    | with_reducible apply sendDies_follows
    | with_reducible apply updFed_follows
    | with_reducible apply Follows.ite

theorem takeFed_follows {a1} {a2 : FedMsg → State → State} (h : Follows z s) (ha2 : ∀ y0 u, Follows z u → Follows z (a2 y0 u)) :
    Follows z (takeFed a1 a2 s) := by
  unfold takeFed
  try dsimp only
  repeat' first
    | (intro _)
    | fail_if_no_progress with_reducible refine Follows.put ?_ rfl
    | with_reducible assumption
    | with_reducible apply ha2
    | with_reducible apply updFed_follows
    | with_reducible apply Follows.ite
    | with_reducible apply Follows.fold
    | split

theorem fedArrive_follows {a1} {a2} {a3} (h : Follows z s) :
    Follows z (fedArrive a1 a2 a3 s) := by
  unfold fedArrive
  try dsimp only
  repeat' first
    | (intro _)
    | fail_if_no_progress with_reducible refine Follows.put ?_ rfl
    | with_reducible assumption
    | with_reducible apply updFed_follows
    | with_reducible apply raiseHm_follows
    | with_reducible apply bump_follows
    | with_reducible apply Follows.ite

theorem fedFrame_follows {a1} {a2} (h : Follows z s) :
    Follows z (fedFrame a1 a2 s) := by
  unfold fedFrame
  try dsimp only
  repeat' first
    | (intro _)
    | fail_if_no_progress with_reducible refine Follows.put ?_ rfl
    | with_reducible assumption
    | with_reducible apply fedArrive_follows

theorem heartbeatTimer_follows (h : Follows z s) :
    Follows z (heartbeatTimer s) := by
  unfold heartbeatTimer
  try dsimp only
  repeat' first
    | (intro _)
    | fail_if_no_progress with_reducible refine Follows.put ?_ rfl
    | with_reducible assumption
    | with_reducible apply caughtUp_follows
    | with_reducible apply sendAll_follows
    | with_reducible apply updFed_follows
    | with_reducible apply bumpIf_follows
    | with_reducible apply Follows.ite

theorem heartbeatLoss_follows (h : Follows z s) :
    Follows z (heartbeatLoss s) := by
  unfold heartbeatLoss
  try dsimp only
  repeat' first
    | (intro _)
    | fail_if_no_progress with_reducible refine Follows.put ?_ rfl
    | with_reducible assumption
    | with_reducible apply domainFaultOpen_follows
    | with_reducible apply Follows.ite

theorem fedPump_follows (h : Follows z s) :
    Follows z (fedPump s) := by
  unfold fedPump
  try dsimp only
  repeat' first
    | (intro _)
    | fail_if_no_progress with_reducible refine Follows.put ?_ rfl
    | with_reducible assumption
    | with_reducible apply queueChange_follows
    | with_reducible apply domainFault_follows
    | with_reducible apply updFed_follows
    | with_reducible apply Follows.ite
    | with_reducible apply Follows.fold
    | with_reducible apply FollowsP.ite
    | with_reducible apply FollowsP.mk
    | with_reducible refine FollowsP.snd (queueChange_follows ?_)
    | split

theorem fedBerth_follows {a1} {a2} {a3} {a4} (h : Follows z s) :
    FollowsP z (fedBerth a1 a2 a3 a4 s) := by
  unfold fedBerth
  try dsimp only
  repeat' first
    | (intro _)
    | fail_if_no_progress with_reducible refine Follows.put ?_ rfl
    | with_reducible assumption
    | with_reducible apply berthStep_follows
    | with_reducible apply fillBerth_follows
    | with_reducible apply Follows.ite
    | with_reducible apply Follows.fold
    | with_reducible apply FollowsP.ite
    | with_reducible apply FollowsP.mk
    | with_reducible refine FollowsP.snd (berthStep_follows ?_ ?_)
    | with_reducible refine FollowsP.snd (fillBerth_follows ?_)
    | split

theorem takePkgSecret_follows {a1} (h : Follows z s) :
    Follows z (takePkgSecret a1 s) := by
  unfold takePkgSecret
  try dsimp only
  repeat' first
    | (intro _)
    | fail_if_no_progress with_reducible refine Follows.put ?_ rfl
    | with_reducible assumption
    | with_reducible apply fedBerth_follows
    | with_reducible apply updFed_follows
    | with_reducible apply Follows.ite
    | with_reducible apply Follows.fold
    | with_reducible apply FollowsP.ite
    | with_reducible apply FollowsP.mk
    | with_reducible refine FollowsP.snd (fedBerth_follows ?_)

theorem quayAddrs_follows (h : Follows z s) :
    Follows z (quayAddrs s) := by
  unfold quayAddrs
  try dsimp only
  repeat' first
    | (intro _)
    | fail_if_no_progress with_reducible refine Follows.put ?_ rfl
    | with_reducible assumption
    | with_reducible apply prityPut_follows
    | with_reducible apply State.updQuay_follows
    | with_reducible apply Follows.ite
    | with_reducible apply Follows.fold
    | with_reducible apply FollowsP.ite
    | with_reducible apply FollowsP.mk
    | with_reducible refine FollowsP.snd (prityPut_follows ?_ ?_)

theorem takeDomSecret_follows {a1} (h : Follows z s) :
    Follows z (takeDomSecret a1 s) := by
  unfold takeDomSecret
  try dsimp only
  repeat' first
    | (intro _)
    | fail_if_no_progress with_reducible refine Follows.put ?_ rfl
    | with_reducible assumption
    | with_reducible apply quayAddrs_follows
    | with_reducible apply fedBerth_follows
    | with_reducible apply updFed_follows
    | with_reducible apply Follows.ite
    | with_reducible apply Follows.fold
    | with_reducible apply FollowsP.ite
    | with_reducible apply FollowsP.mk
    | with_reducible refine FollowsP.snd (fedBerth_follows ?_)

theorem giveSecret_follows {a1} (h : Follows z s) :
    Follows z (giveSecret a1 s) := by
  unfold giveSecret
  try dsimp only
  repeat' first
    | (intro _)
    | fail_if_no_progress with_reducible refine Follows.put ?_ rfl
    | with_reducible assumption
    | with_reducible apply d2dSend_follows
    | with_reducible apply drbg_follows
    | with_reducible apply Follows.ite
    | with_reducible apply Follows.fold
    | with_reducible exact FollowsOP.none
    | with_reducible apply FollowsOP.some
    | with_reducible apply FollowsOP.getD
    | with_reducible apply FollowsOP.mapP
    | with_reducible apply FollowsOP.map
    | split
    | refine FollowsOP.eq (by assumption) ?_

theorem secretIn_follows {a1} {a2} (h : Follows z s) :
    Follows z (secretIn a1 a2 s) := by
  unfold secretIn
  try dsimp only
  repeat' first
    | (intro _)
    | fail_if_no_progress with_reducible refine Follows.put ?_ rfl
    | with_reducible assumption
    | with_reducible apply takeDomSecret_follows
    | with_reducible apply Follows.ite
    | with_reducible apply Follows.fold
    | split

theorem joinRefuse_follows {a1} (h : Follows z s) :
    Follows z (joinRefuse a1 s) := by
  unfold joinRefuse
  try dsimp only
  repeat' first
    | (intro _)
    | fail_if_no_progress with_reducible refine Follows.put ?_ rfl
    | with_reducible assumption
    | with_reducible apply auditLog_follows
    | with_reducible apply bump_follows

theorem joinSign_follows {a1} {a2} (h : Follows z s) :
    FollowsOP z (joinSign a1 a2 s) := by
  unfold joinSign
  try dsimp only
  repeat' first
    | (intro _)
    | fail_if_no_progress with_reducible refine Follows.put ?_ rfl
    | with_reducible assumption
    | with_reducible apply drbg_follows
    | with_reducible apply Follows.ite
    | with_reducible apply Follows.fold
    | with_reducible exact FollowsOP.none
    | with_reducible apply FollowsOP.some
    | with_reducible apply FollowsOP.getD
    | with_reducible apply FollowsOP.mapP
    | with_reducible apply FollowsOP.map
    | split
    | refine FollowsOP.eq (by assumption) ?_

theorem relayPump_follows (h : Follows z s) :
    Follows z (relayPump s) := by
  unfold relayPump
  try dsimp only
  repeat' first
    | (intro _)
    | fail_if_no_progress with_reducible refine Follows.put ?_ rfl
    | with_reducible assumption
    | with_reducible apply updFed_follows
    | with_reducible apply Follows.ite
    | with_reducible apply Follows.fold
    | split

theorem joinSend_follows {a1} {a2} (h : Follows z s) :
    Follows z (joinSend a1 a2 s) := by
  unfold joinSend
  try dsimp only
  repeat' first
    | (intro _)
    | fail_if_no_progress with_reducible refine Follows.put ?_ rfl
    | with_reducible assumption
    | with_reducible apply relayPump_follows
    | with_reducible apply updFed_follows
    | with_reducible apply d2dFragments_follows
    | with_reducible apply Follows.ite

theorem joinBegin_follows {a1} (h : Follows z s) :
    FollowsO z (joinBegin a1 s) := by
  unfold joinBegin
  try dsimp only
  repeat' first
    | (intro _)
    | fail_if_no_progress with_reducible refine Follows.put ?_ rfl
    | with_reducible assumption
    | with_reducible apply joinSend_follows
    | with_reducible apply joinSign_follows
    | with_reducible apply updFed_follows
    | with_reducible apply drbg_follows
    | with_reducible apply Follows.ite
    | with_reducible apply Follows.fold
    | with_reducible exact FollowsO.none
    | with_reducible apply FollowsO.some
    | with_reducible apply FollowsO.getD
    | with_reducible apply FollowsO.orElse
    | with_reducible apply FollowsO.map
    | with_reducible exact FollowsOP.none
    | with_reducible apply FollowsOP.some
    | with_reducible apply FollowsOP.getD
    | with_reducible apply FollowsOP.mapP
    | with_reducible apply FollowsOP.map
    | split
    | refine FollowsO.eq (by assumption) ?_
    | refine FollowsOP.eq (by assumption) ?_

theorem joinRespond_follows {a1} {a2} {a3} {a4} (h : Follows z s) :
    FollowsOP z (joinRespond a1 a2 a3 a4 s) := by
  unfold joinRespond
  try dsimp only
  repeat' first
    | (intro _)
    | fail_if_no_progress with_reducible refine Follows.put ?_ rfl
    | with_reducible assumption
    | with_reducible apply joinSign_follows
    | with_reducible apply drbg_follows
    | with_reducible apply Follows.ite
    | with_reducible apply Follows.fold
    | with_reducible exact FollowsOP.none
    | with_reducible apply FollowsOP.some
    | with_reducible apply FollowsOP.getD
    | with_reducible apply FollowsOP.mapP
    | with_reducible apply FollowsOP.map
    | split
    | refine FollowsOP.eq (by assumption) ?_

theorem joinReqIn_follows {a1} {a2} (h : Follows z s) :
    Follows z (joinReqIn a1 a2 s) := by
  unfold joinReqIn
  try dsimp only
  repeat' first
    | (intro _)
    | fail_if_no_progress with_reducible refine Follows.put ?_ rfl
    | with_reducible assumption
    | with_reducible apply joinRespond_follows
    | with_reducible apply joinSend_follows
    | with_reducible apply joinRefuse_follows
    | with_reducible apply giveSecret_follows
    | with_reducible apply updFed_follows
    | with_reducible apply Follows.ite
    | with_reducible apply Follows.fold
    | with_reducible exact FollowsOP.none
    | with_reducible apply FollowsOP.some
    | with_reducible apply FollowsOP.getD
    | with_reducible apply FollowsOP.mapP
    | with_reducible apply FollowsOP.map
    | split
    | refine FollowsOP.eq (by assumption) ?_

theorem joinRspIn_follows {a1} {a2} (h : Follows z s) :
    Follows z (joinRspIn a1 a2 s) := by
  unfold joinRspIn
  try dsimp only
  repeat' first
    | (intro _)
    | fail_if_no_progress with_reducible refine Follows.put ?_ rfl
    | with_reducible assumption
    | with_reducible apply joinRefuse_follows
    | with_reducible apply giveSecret_follows
    | with_reducible apply takeDomSecret_follows
    | with_reducible apply takePkgSecret_follows
    | with_reducible apply updFed_follows
    | with_reducible apply Follows.ite
    | with_reducible apply Follows.fold
    | split

theorem takeJoin_follows {a1} {a2 : ℕ → Bytes → State → State} (h : Follows z s) (ha2 : ∀ y0 y1 u, Follows z u → Follows z (a2 y0 y1 u)) :
    Follows z (takeJoin a1 a2 s) := by
  unfold takeJoin
  try dsimp only
  repeat' first
    | (intro _)
    | fail_if_no_progress with_reducible refine Follows.put ?_ rfl
    | with_reducible assumption
    | with_reducible apply ha2
    | with_reducible apply updFed_follows
    | with_reducible apply Follows.ite
    | with_reducible apply Follows.fold
    | split

theorem joinArrive_follows {a1} {a2} {a3} (h : Follows z s) :
    Follows z (joinArrive a1 a2 a3 s) := by
  unfold joinArrive
  try dsimp only
  repeat' first
    | (intro _)
    | fail_if_no_progress with_reducible refine Follows.put ?_ rfl
    | with_reducible assumption
    | with_reducible apply joinRefuse_follows
    | with_reducible apply updFed_follows
    | with_reducible apply Follows.ite

theorem relayTake_follows (h : Follows z s) :
    Follows z (relayTake s) := by
  unfold relayTake
  try dsimp only
  repeat' first
    | (intro _)
    | fail_if_no_progress with_reducible refine Follows.put ?_ rfl
    | with_reducible assumption
    | with_reducible apply joinArrive_follows
    | with_reducible apply updFed_follows
    | with_reducible apply Follows.ite

theorem fedCtrlWrite_follows {a1} {a2} (h : Follows z s) :
    Follows z (fedCtrlWrite a1 a2 s) := by
  unfold fedCtrlWrite
  try dsimp only
  repeat' first
    | (intro _)
    | fail_if_no_progress with_reducible refine Follows.put ?_ rfl
    | with_reducible assumption
    | with_reducible apply joinBegin_follows
    | with_reducible apply takeDomSecret_follows
    | with_reducible apply takePkgSecret_follows
    | with_reducible apply updFed_follows
    | with_reducible apply drbg_follows
    | with_reducible apply policyWrite_follows
    | with_reducible apply regGuard_follows
    | with_reducible apply Follows.ite
    | with_reducible apply Follows.fold
    | with_reducible exact FollowsO.none
    | with_reducible apply FollowsO.some
    | with_reducible apply FollowsO.getD
    | with_reducible apply FollowsO.orElse
    | with_reducible apply FollowsO.map
    | with_reducible exact FollowsOP.none
    | with_reducible apply FollowsOP.some
    | with_reducible apply FollowsOP.getD
    | with_reducible apply FollowsOP.mapP
    | with_reducible apply FollowsOP.map
    | split
    | refine FollowsO.eq (by assumption) ?_
    | refine FollowsOP.eq (by assumption) ?_

theorem relayCtrlWrite_follows {a1} {a2} (h : Follows z s) :
    Follows z (relayCtrlWrite a1 a2 s) := by
  unfold relayCtrlWrite
  try dsimp only
  repeat' first
    | (intro _)
    | fail_if_no_progress with_reducible refine Follows.put ?_ rfl
    | with_reducible assumption
    | with_reducible apply relayTake_follows
    | with_reducible apply relayPump_follows
    | with_reducible apply updFed_follows
    | with_reducible apply regGuard_follows
    | with_reducible apply raiseHm_follows
    | with_reducible apply permFault_follows
    | with_reducible apply Follows.ite

theorem relayOutTaken_follows {a1} (h : Follows z s) :
    Follows z (relayOutTaken a1 s) := by
  unfold relayOutTaken
  try dsimp only
  repeat' first
    | (intro _)
    | fail_if_no_progress with_reducible refine Follows.put ?_ rfl
    | with_reducible assumption
    | with_reducible apply relayCtrlWrite_follows

theorem d2dMessage_follows {a1} {a2} (h : Follows z s) :
    Follows z (d2dMessage a1 a2 s) := by
  unfold d2dMessage
  try dsimp only
  repeat' first
    | (intro _)
    | fail_if_no_progress with_reducible refine Follows.put ?_ rfl
    | with_reducible assumption
    | with_reducible apply joinArrive_follows
    | with_reducible apply joinRefuse_follows
    | with_reducible apply secretIn_follows
    | with_reducible apply fedArrive_follows
    | with_reducible apply reportIn_follows
    | with_reducible apply reportAsked_follows
    | with_reducible apply entryIn_follows
    | with_reducible apply entryAsked_follows
    | with_reducible apply gatherFrag_follows
    | with_reducible apply fenceDomain_follows
    | with_reducible apply raiseHm_follows
    | with_reducible apply bump_follows
    | with_reducible apply Follows.ite
    | with_reducible apply Follows.fold
    | with_reducible refine FollowsP2.snd (gatherFrag_follows ?_)
    | split

theorem fenceWrite_follows {a1} {a2} (h : Follows z s) :
    Follows z (fenceWrite a1 a2 s) := by
  unfold fenceWrite
  try dsimp only
  repeat' first
    | (intro _)
    | fail_if_no_progress with_reducible refine Follows.put ?_ rfl
    | with_reducible assumption
    | with_reducible apply d2dSend_follows
    | with_reducible apply fenceDomain_follows
    | with_reducible apply regGuard_follows
    | with_reducible apply bump_follows
    | with_reducible apply Follows.ite
    | with_reducible apply Follows.fold

end Sys2Proof.Machine
end

