-- ==== Sys2Proof/Laws/FollowsSpdm.lean ====
section
/-! SUPPORT. The operations of Machine/Spdm.lean follow. -/

namespace Sys2Proof.Machine

variable {z s : State}

theorem openBytes_follows {a1} (h : Follows z s) :
    FollowsP z (openBytes a1 s) := by
  unfold openBytes
  try dsimp only
  repeat' first
    | (intro _)
    | fail_if_no_progress with_reducible refine Follows.put ?_ rfl
    | with_reducible assumption
    | with_reducible apply State.free_follows
    | with_reducible apply Follows.ite
    | with_reducible apply Follows.fold
    | with_reducible apply FollowsP.ite
    | with_reducible apply FollowsP.mk
    | with_reducible refine FollowsP.snd (State.free_follows ?_)

theorem spdmTake_follows {a1} {a2} {a3} {a4} {a5 : State → State} (h : Follows z s) (ha5 : ∀ u, Follows z u → Follows z (a5 u)) :
    Follows z (spdmTake a1 a2 a3 a4 a5 s) := by
  unfold spdmTake
  try dsimp only
  repeat' first
    | (intro _)
    | fail_if_no_progress with_reducible refine Follows.put ?_ rfl
    | with_reducible assumption
    | with_reducible apply ha5
    | with_reducible apply updSess_follows
    | with_reducible apply spdmError_follows
    | with_reducible apply raiseHm_follows
    | with_reducible apply Follows.ite
    | with_reducible apply Follows.fold
    | split

theorem noteVca_follows {a1} {a2} {a3} {a4} (h : Follows z s) :
    Follows z (noteVca a1 a2 a3 a4 s) := by
  unfold noteVca
  try dsimp only
  repeat' first
    | (intro _)
    | fail_if_no_progress with_reducible refine Follows.put ?_ rfl
    | with_reducible assumption
    | with_reducible apply setConn_follows

theorem getVersion_follows {a1} (h : Follows z s) :
    Follows z (getVersion a1 s) := by
  unfold getVersion
  try dsimp only
  repeat' first
    | (intro _)
    | fail_if_no_progress with_reducible refine Follows.put ?_ rfl
    | with_reducible assumption
    | with_reducible apply noteVca_follows
    | with_reducible apply spdmTake_follows
    | with_reducible apply setConn_follows
    | with_reducible apply spdmAnswer_follows

theorem getCapabilities_follows {a1} (h : Follows z s) :
    Follows z (getCapabilities a1 s) := by
  unfold getCapabilities
  try dsimp only
  repeat' first
    | (intro _)
    | fail_if_no_progress with_reducible refine Follows.put ?_ rfl
    | with_reducible assumption
    | with_reducible apply noteVca_follows
    | with_reducible apply spdmTake_follows
    | with_reducible apply openBytes_follows
    | with_reducible apply spdmAnswer_follows
    | with_reducible apply State.free_follows
    | with_reducible apply Follows.ite
    | with_reducible apply Follows.fold
    | with_reducible apply FollowsP.ite
    | with_reducible apply FollowsP.mk
    | with_reducible refine FollowsP.snd (openBytes_follows ?_)
    | with_reducible refine FollowsP.snd (State.free_follows ?_)

theorem negotiateAlgorithms_follows {a1} (h : Follows z s) :
    Follows z (negotiateAlgorithms a1 s) := by
  unfold negotiateAlgorithms
  try dsimp only
  repeat' first
    | (intro _)
    | fail_if_no_progress with_reducible refine Follows.put ?_ rfl
    | with_reducible assumption
    | with_reducible apply noteVca_follows
    | with_reducible apply spdmTake_follows
    | with_reducible apply openBytes_follows
    | with_reducible apply spdmAnswer_follows
    | with_reducible apply Follows.ite
    | with_reducible apply Follows.fold
    | with_reducible apply FollowsP.ite
    | with_reducible apply FollowsP.mk
    | with_reducible refine FollowsP.snd (openBytes_follows ?_)

theorem getDigests_follows {a1} (h : Follows z s) :
    Follows z (getDigests a1 s) := by
  unfold getDigests
  try dsimp only
  repeat' first
    | (intro _)
    | fail_if_no_progress with_reducible refine Follows.put ?_ rfl
    | with_reducible assumption
    | with_reducible apply spdmTake_follows
    | with_reducible apply setConn_follows
    | with_reducible apply spdmAnswer_follows

theorem getCertificate_follows {a1} {a2} {a3} {a4} (h : Follows z s) :
    Follows z (getCertificate a1 a2 a3 a4 s) := by
  unfold getCertificate
  try dsimp only
  repeat' first
    | (intro _)
    | fail_if_no_progress with_reducible refine Follows.put ?_ rfl
    | with_reducible assumption
    | with_reducible apply spdmTake_follows
    | with_reducible apply setConn_follows
    | with_reducible apply spdmError_follows
    | with_reducible apply spdmAnswer_follows
    | with_reducible apply Follows.ite

theorem challenge_follows {a1} {a2} {a3} (h : Follows z s) :
    Follows z (challenge a1 a2 a3 s) := by
  unfold challenge
  try dsimp only
  repeat' first
    | (intro _)
    | fail_if_no_progress with_reducible refine Follows.put ?_ rfl
    | with_reducible assumption
    | with_reducible apply spdmTake_follows
    | with_reducible apply setConn_follows
    | with_reducible apply spdmError_follows
    | with_reducible apply spdmAnswer_follows
    | with_reducible apply signEc_follows
    | with_reducible apply drbg_follows
    | with_reducible apply Follows.ite
    | with_reducible apply Follows.fold
    | with_reducible exact FollowsOP.none
    | with_reducible apply FollowsOP.some
    | with_reducible apply FollowsOP.getD
    | with_reducible apply FollowsOP.mapP
    | with_reducible apply FollowsOP.map
    | split
    | refine FollowsOP.eq (by assumption) ?_

theorem getMeasurements_follows {a1} {a2} {a3} (h : Follows z s) :
    Follows z (getMeasurements a1 a2 a3 s) := by
  unfold getMeasurements
  try dsimp only
  repeat' first
    | (intro _)
    | fail_if_no_progress with_reducible refine Follows.put ?_ rfl
    | with_reducible assumption
    | with_reducible apply spdmTake_follows
    | with_reducible apply setConn_follows
    | with_reducible apply spdmError_follows
    | with_reducible apply spdmAnswer_follows
    | with_reducible apply signEc_follows
    | with_reducible apply drbg_follows
    | with_reducible apply Follows.ite
    | with_reducible apply Follows.fold
    | with_reducible exact FollowsOP.none
    | with_reducible apply FollowsOP.some
    | with_reducible apply FollowsOP.getD
    | with_reducible apply FollowsOP.mapP
    | with_reducible apply FollowsOP.map
    | split
    | refine FollowsOP.eq (by assumption) ?_

theorem keyExchange_follows {a1} {a2} (h : Follows z s) :
    Follows z (keyExchange a1 a2 s) := by
  unfold keyExchange
  try dsimp only
  repeat' first
    | (intro _)
    | fail_if_no_progress with_reducible refine Follows.put ?_ rfl
    | with_reducible assumption
    | with_reducible apply spdmTake_follows
    | with_reducible apply openBytes_follows
    | with_reducible apply setConn_follows
    | with_reducible apply spdmError_follows
    | with_reducible apply spdmAnswer_follows
    | with_reducible apply signEc_follows
    | with_reducible apply drbg_follows
    | with_reducible apply Follows.ite
    | with_reducible apply Follows.fold
    | with_reducible apply FollowsP.ite
    | with_reducible apply FollowsP.mk
    | with_reducible refine FollowsP.snd (openBytes_follows ?_)
    | with_reducible exact FollowsOP.none
    | with_reducible apply FollowsOP.some
    | with_reducible apply FollowsOP.getD
    | with_reducible apply FollowsOP.mapP
    | with_reducible apply FollowsOP.map
    | split
    | refine FollowsP.eq (by assumption) ?_
    | refine FollowsOP.eq (by assumption) ?_

theorem dropSess_follows {a1} (h : Follows z s) :
    Follows z (dropSess a1 s) := by
  unfold dropSess
  try dsimp only
  repeat' first
    | (intro _)
    | fail_if_no_progress with_reducible refine Follows.put ?_ rfl
    | with_reducible assumption
    | with_reducible apply setConn_follows

theorem finish_follows {a1} {a2} (h : Follows z s) :
    Follows z (finish a1 a2 s) := by
  unfold finish
  try dsimp only
  repeat' first
    | (intro _)
    | fail_if_no_progress with_reducible refine Follows.put ?_ rfl
    | with_reducible assumption
    | with_reducible apply dropSess_follows
    | with_reducible apply spdmTake_follows
    | with_reducible apply updSess_follows
    | with_reducible apply spdmError_follows
    | with_reducible apply spdmAnswer_follows
    | with_reducible apply Follows.ite
    | with_reducible apply Follows.fold
    | split

theorem spdmHeartbeat_follows {a1} (h : Follows z s) :
    Follows z (spdmHeartbeat a1 s) := by
  unfold spdmHeartbeat
  try dsimp only
  repeat' first
    | (intro _)
    | fail_if_no_progress with_reducible refine Follows.put ?_ rfl
    | with_reducible assumption
    | with_reducible apply spdmTake_follows
    | with_reducible apply spdmAnswer_follows

theorem keyUpdate_follows {a1} {a2} (h : Follows z s) :
    Follows z (keyUpdate a1 a2 s) := by
  unfold keyUpdate
  try dsimp only
  repeat' first
    | (intro _)
    | fail_if_no_progress with_reducible refine Follows.put ?_ rfl
    | with_reducible assumption
    | with_reducible apply spdmTake_follows
    | with_reducible apply updSess_follows
    | with_reducible apply spdmAnswer_follows

theorem endSession_follows {a1} (h : Follows z s) :
    Follows z (endSession a1 s) := by
  unfold endSession
  try dsimp only
  repeat' first
    | (intro _)
    | fail_if_no_progress with_reducible refine Follows.put ?_ rfl
    | with_reducible assumption
    | with_reducible apply dropSess_follows
    | with_reducible apply spdmTake_follows
    | with_reducible apply spdmAnswer_follows

theorem unsupportedRequest_follows {a1} {a2} (h : Follows z s) :
    Follows z (unsupportedRequest a1 a2 s) := by
  unfold unsupportedRequest
  try dsimp only
  repeat' first
    | (intro _)
    | fail_if_no_progress with_reducible refine Follows.put ?_ rfl
    | with_reducible assumption
    | with_reducible apply spdmError_follows
    | with_reducible apply Follows.ite

theorem buildObject_follows {a1} {a2} (h : Follows z s) :
    Follows z (buildObject a1 a2 s) := by
  unfold buildObject
  try dsimp only
  repeat' first
    | (intro _)
    | fail_if_no_progress with_reducible refine Follows.put ?_ rfl
    | with_reducible assumption
    | with_reducible apply reportBegin_follows
    | with_reducible apply objectAnswer_follows
    | with_reducible apply holdObj_follows
    | with_reducible apply updSess_follows
    | with_reducible apply vendorStatus_follows
    | with_reducible apply signMl_follows
    | with_reducible apply drbg_follows
    | with_reducible apply Follows.ite
    | with_reducible apply Follows.fold
    | with_reducible exact FollowsOP.none
    | with_reducible apply FollowsOP.some
    | with_reducible apply FollowsOP.getD
    | with_reducible apply FollowsOP.mapP
    | with_reducible apply FollowsOP.map
    | split
    | refine FollowsOP.eq (by assumption) ?_

theorem getObject_follows {a1} {a2} (h : Follows z s) :
    Follows z (getObject a1 a2 s) := by
  unfold getObject
  try dsimp only
  repeat' first
    | (intro _)
    | fail_if_no_progress with_reducible refine Follows.put ?_ rfl
    | with_reducible assumption
    | with_reducible apply buildObject_follows
    | with_reducible apply spdmTake_follows
    | with_reducible apply objectAnswer_follows
    | with_reducible apply vendorStatus_follows
    | with_reducible apply Follows.ite
    | with_reducible apply Follows.fold
    | split

theorem pqBind_follows {a1} {a2} (h : Follows z s) :
    Follows z (pqBind a1 a2 s) := by
  unfold pqBind
  try dsimp only
  repeat' first
    | (intro _)
    | fail_if_no_progress with_reducible refine Follows.put ?_ rfl
    | with_reducible assumption
    | with_reducible apply spdmTake_follows
    | with_reducible apply updSess_follows
    | with_reducible apply vendorStatus_follows
    | with_reducible apply Follows.ite
    | with_reducible apply Follows.fold
    | split

theorem setOwnerKey_follows {a1} {a2} (h : Follows z s) :
    Follows z (setOwnerKey a1 a2 s) := by
  unfold setOwnerKey
  try dsimp only
  repeat' first
    | (intro _)
    | fail_if_no_progress with_reducible refine Follows.put ?_ rfl
    | with_reducible assumption
    | with_reducible apply spdmTake_follows
    | with_reducible apply vendorStatus_follows
    | with_reducible apply pregPush_follows
    | with_reducible apply auditLog_follows
    | with_reducible apply Follows.ite
    | with_reducible apply Follows.fold
    | with_reducible apply FollowsP.ite
    | with_reducible apply FollowsP.mk
    | with_reducible refine FollowsP.snd (pregPush_follows ?_)

theorem respondIfReady_follows {a1} (h : Follows z s) :
    Follows z (respondIfReady a1 s) := by
  unfold respondIfReady
  try dsimp only
  repeat' first
    | (intro _)
    | fail_if_no_progress with_reducible refine Follows.put ?_ rfl
    | with_reducible assumption
    | with_reducible apply spdmTake_follows
    | with_reducible apply updSess_follows
    | with_reducible apply vendorAnswer_follows
    | with_reducible apply spdmError_follows
    | with_reducible apply Follows.ite
    | with_reducible apply Follows.fold
    | split

theorem vendorMbox_follows {a1 : ℕ → State → State} {a2} {a3} (h : Follows z s) (ha1 : ∀ y0 u, Follows z u → Follows z (a1 y0 u)) :
    Follows z (vendorMbox a1 a2 a3 s) := by
  unfold vendorMbox
  try dsimp only
  repeat' first
    | (intro _)
    | fail_if_no_progress with_reducible refine Follows.put ?_ rfl
    | with_reducible assumption
    | with_reducible apply ha1
    | with_reducible apply spdmTake_follows
    | with_reducible apply updSess_follows
    | with_reducible apply vendorStatus_follows
    | with_reducible apply spdmError_follows
    | with_reducible apply mbPut_follows
    | with_reducible apply Follows.ite

theorem pciAnswer_follows {a1} {a2} {a3} (h : Follows z s) :
    Follows z (pciAnswer a1 a2 a3 s) := by
  unfold pciAnswer
  try dsimp only
  repeat' first
    | (intro _)
    | fail_if_no_progress with_reducible refine Follows.put ?_ rfl
    | with_reducible assumption
    | with_reducible apply spdmAnswer_follows

theorem tdispAnswer_follows {a1} {a2} {a3} {a4} (h : Follows z s) :
    Follows z (tdispAnswer a1 a2 a3 a4 s) := by
  unfold tdispAnswer
  try dsimp only
  repeat' first
    | (intro _)
    | fail_if_no_progress with_reducible refine Follows.put ?_ rfl
    | with_reducible assumption
    | with_reducible apply pciAnswer_follows

theorem tdispError_follows {a1} {a2} {a3} (h : Follows z s) :
    Follows z (tdispError a1 a2 a3 s) := by
  unfold tdispError
  try dsimp only
  repeat' first
    | (intro _)
    | fail_if_no_progress with_reducible refine Follows.put ?_ rfl
    | with_reducible assumption
    | with_reducible apply tdispAnswer_follows

theorem tdispTake_follows {a1} {a2} {a3 : State → State} (h : Follows z s) (ha3 : ∀ u, Follows z u → Follows z (a3 u)) :
    Follows z (tdispTake a1 a2 a3 s) := by
  unfold tdispTake
  try dsimp only
  repeat' first
    | (intro _)
    | fail_if_no_progress with_reducible refine Follows.put ?_ rfl
    | with_reducible assumption
    | with_reducible apply ha3
    | with_reducible apply tdispError_follows
    | with_reducible apply spdmTake_follows
    | with_reducible apply spdmError_follows
    | with_reducible apply Follows.ite
    | with_reducible apply Follows.fold
    | split

theorem setTdi_follows {a1} {a2} (h : Follows z s) :
    Follows z (setTdi a1 a2 s) := by
  unfold setTdi
  try dsimp only
  repeat' first
    | (intro _)
    | fail_if_no_progress with_reducible refine Follows.put ?_ rfl
    | with_reducible assumption

theorem getTdispVersion_follows {a1} {a2} (h : Follows z s) :
    Follows z (getTdispVersion a1 a2 s) := by
  unfold getTdispVersion
  try dsimp only
  repeat' first
    | (intro _)
    | fail_if_no_progress with_reducible refine Follows.put ?_ rfl
    | with_reducible assumption
    | with_reducible apply tdispTake_follows
    | with_reducible apply tdispAnswer_follows

theorem getTdispCapabilities_follows {a1} {a2} (h : Follows z s) :
    Follows z (getTdispCapabilities a1 a2 s) := by
  unfold getTdispCapabilities
  try dsimp only
  repeat' first
    | (intro _)
    | fail_if_no_progress with_reducible refine Follows.put ?_ rfl
    | with_reducible assumption
    | with_reducible apply tdispTake_follows
    | with_reducible apply tdispAnswer_follows

theorem lockInterface_follows {a1} {a2} {a3} {a4} (h : Follows z s) :
    Follows z (lockInterface a1 a2 a3 a4 s) := by
  unfold lockInterface
  try dsimp only
  repeat' first
    | (intro _)
    | fail_if_no_progress with_reducible refine Follows.put ?_ rfl
    | with_reducible assumption
    | with_reducible apply setTdi_follows
    | with_reducible apply tdispTake_follows
    | with_reducible apply tdispError_follows
    | with_reducible apply tdispAnswer_follows
    | with_reducible apply drbg_follows
    | with_reducible apply Follows.ite
    | with_reducible apply Follows.fold
    | with_reducible exact FollowsOP.none
    | with_reducible apply FollowsOP.some
    | with_reducible apply FollowsOP.getD
    | with_reducible apply FollowsOP.mapP
    | with_reducible apply FollowsOP.map
    | split
    | refine FollowsOP.eq (by assumption) ?_

theorem getInterfaceReport_follows {a1} {a2} (h : Follows z s) :
    Follows z (getInterfaceReport a1 a2 s) := by
  unfold getInterfaceReport
  try dsimp only
  repeat' first
    | (intro _)
    | fail_if_no_progress with_reducible refine Follows.put ?_ rfl
    | with_reducible assumption
    | with_reducible apply tdispTake_follows
    | with_reducible apply tdispError_follows
    | with_reducible apply tdispAnswer_follows
    | with_reducible apply Follows.ite
    | with_reducible apply Follows.fold
    | split

theorem getInterfaceState_follows {a1} {a2} (h : Follows z s) :
    Follows z (getInterfaceState a1 a2 s) := by
  unfold getInterfaceState
  try dsimp only
  repeat' first
    | (intro _)
    | fail_if_no_progress with_reducible refine Follows.put ?_ rfl
    | with_reducible assumption
    | with_reducible apply tdispTake_follows
    | with_reducible apply tdispAnswer_follows

theorem startInterface_follows {a1} {a2} {a3} (h : Follows z s) :
    Follows z (startInterface a1 a2 a3 s) := by
  unfold startInterface
  try dsimp only
  repeat' first
    | (intro _)
    | fail_if_no_progress with_reducible refine Follows.put ?_ rfl
    | with_reducible assumption
    | with_reducible apply setTdi_follows
    | with_reducible apply tdispTake_follows
    | with_reducible apply tdispError_follows
    | with_reducible apply tdispAnswer_follows
    | with_reducible apply Follows.ite

theorem stopInterface_follows {a1} {a2} (h : Follows z s) :
    Follows z (stopInterface a1 a2 s) := by
  unfold stopInterface
  try dsimp only
  repeat' first
    | (intro _)
    | fail_if_no_progress with_reducible refine Follows.put ?_ rfl
    | with_reducible assumption
    | with_reducible apply setTdi_follows
    | with_reducible apply tdispTake_follows
    | with_reducible apply tdispError_follows
    | with_reducible apply tdispAnswer_follows
    | with_reducible apply Follows.ite

theorem tdispUnsupported_follows {a1} {a2} (h : Follows z s) :
    Follows z (tdispUnsupported a1 a2 s) := by
  unfold tdispUnsupported
  try dsimp only
  repeat' first
    | (intro _)
    | fail_if_no_progress with_reducible refine Follows.put ?_ rfl
    | with_reducible assumption
    | with_reducible apply tdispTake_follows
    | with_reducible apply tdispError_follows

theorem tdiPump_follows (h : Follows z s) :
    Follows z (tdiPump s) := by
  unfold tdiPump
  try dsimp only
  repeat' first
    | (intro _)
    | fail_if_no_progress with_reducible refine Follows.put ?_ rfl
    | with_reducible assumption
    | with_reducible apply tdiError_follows
    | with_reducible apply Follows.ite
    | with_reducible apply Follows.fold

theorem ideTake_follows {a1} {a2 : State → State} (h : Follows z s) (ha2 : ∀ u, Follows z u → Follows z (a2 u)) :
    Follows z (ideTake a1 a2 s) := by
  unfold ideTake
  try dsimp only
  repeat' first
    | (intro _)
    | fail_if_no_progress with_reducible refine Follows.put ?_ rfl
    | with_reducible assumption
    | with_reducible apply ha2
    | with_reducible apply spdmTake_follows
    | with_reducible apply spdmError_follows
    | with_reducible apply Follows.ite
    | with_reducible apply Follows.fold
    | split

theorem kpAck_follows {a1} {a2} {a3} (h : Follows z s) :
    Follows z (kpAck a1 a2 a3 s) := by
  unfold kpAck
  try dsimp only
  repeat' first
    | (intro _)
    | fail_if_no_progress with_reducible refine Follows.put ?_ rfl
    | with_reducible assumption
    | with_reducible apply pciAnswer_follows

theorem goStopAck_follows {a1} {a2} (h : Follows z s) :
    Follows z (goStopAck a1 a2 s) := by
  unfold goStopAck
  try dsimp only
  repeat' first
    | (intro _)
    | fail_if_no_progress with_reducible refine Follows.put ?_ rfl
    | with_reducible assumption
    | with_reducible apply pciAnswer_follows

theorem ideKmQuery_follows {a1} {a2} (h : Follows z s) :
    Follows z (ideKmQuery a1 a2 s) := by
  unfold ideKmQuery
  try dsimp only
  repeat' first
    | (intro _)
    | fail_if_no_progress with_reducible refine Follows.put ?_ rfl
    | with_reducible assumption
    | with_reducible apply ideTake_follows
    | with_reducible apply pciAnswer_follows
    | with_reducible apply spdmError_follows
    | with_reducible apply Follows.ite

theorem idePut_follows {a1} {a2} {a3} (h : Follows z s) :
    Follows z (idePut a1 a2 a3 s) := by
  unfold idePut
  try dsimp only
  repeat' first
    | (intro _)
    | fail_if_no_progress with_reducible refine Follows.put ?_ rfl
    | with_reducible assumption
    | with_reducible apply emit_follows
    | with_reducible apply Follows.ite

theorem keyProg_follows {a1} {a2} (h : Follows z s) :
    Follows z (keyProg a1 a2 s) := by
  unfold keyProg
  try dsimp only
  repeat' first
    | (intro _)
    | fail_if_no_progress with_reducible refine Follows.put ?_ rfl
    | with_reducible assumption
    | with_reducible apply idePut_follows
    | with_reducible apply kpAck_follows
    | with_reducible apply ideTake_follows
    | with_reducible apply Follows.ite

theorem kSet_follows {a1} {a2} {a3} (h : Follows z s) :
    Follows z (kSet a1 a2 a3 s) := by
  unfold kSet
  try dsimp only
  repeat' first
    | (intro _)
    | fail_if_no_progress with_reducible refine Follows.put ?_ rfl
    | with_reducible assumption
    | with_reducible apply idePut_follows
    | with_reducible apply ideTake_follows
    | with_reducible apply spdmError_follows
    | with_reducible apply Follows.ite

theorem idekAck_follows {a1} (h : Follows z s) :
    Follows z (idekAck a1 s) := by
  unfold idekAck
  try dsimp only
  repeat' first
    | (intro _)
    | fail_if_no_progress with_reducible refine Follows.put ?_ rfl
    | with_reducible assumption
    | with_reducible apply goStopAck_follows
    | with_reducible apply kpAck_follows
    | with_reducible apply tdiError_follows
    | with_reducible apply raiseHm_follows
    | with_reducible apply emit_follows
    | with_reducible apply Follows.ite
    | with_reducible apply Follows.fold
    | split

theorem doeObject_follows {a1} {a2} (h : Follows z s) :
    Follows z (doeObject a1 a2 s) := by
  unfold doeObject
  try dsimp only
  repeat' first
    | (intro _)
    | fail_if_no_progress with_reducible refine Follows.put ?_ rfl
    | with_reducible assumption
    | with_reducible apply raiseHm_follows
    | with_reducible apply emit_follows
    | with_reducible apply Follows.ite

theorem dynamicAddress_follows {a1} (h : Follows z s) :
    Follows z (dynamicAddress a1 s) := by
  unfold dynamicAddress
  try dsimp only
  repeat' first
    | (intro _)
    | fail_if_no_progress with_reducible refine Follows.put ?_ rfl
    | with_reducible assumption

end Sys2Proof.Machine
end

