-- ==== Sys2Proof/Laws/FollowsFw.lean ====
section
/-! SUPPORT. The operations of Machine/Fw.lean follow. -/

namespace Sys2Proof.Machine

variable {z s : State}

theorem State.setFwBank_follows {a1} {a2} (h : Follows z s) :
    Follows z (State.setFwBank s a1 a2) := by
  unfold State.setFwBank
  try dsimp only
  repeat' first
    | (intro _)
    | fail_if_no_progress with_reducible refine Follows.put ?_ rfl
    | with_reducible assumption

theorem endSessions_follows (h : Follows z s) :
    Follows z (endSessions s) := by
  unfold endSessions
  try dsimp only
  repeat' first
    | (intro _)
    | fail_if_no_progress with_reducible refine Follows.put ?_ rfl
    | with_reducible assumption

theorem prityBoot_follows {a1} (h : Follows z s) :
    Follows z (prityBoot a1 s) := by
  unfold prityBoot
  try dsimp only
  repeat' first
    | (intro _)
    | fail_if_no_progress with_reducible refine Follows.put ?_ rfl
    | with_reducible assumption
    | with_reducible apply buildIdentity_follows

theorem restartNote_follows (h : Follows z s) :
    Follows z (restartNote s) := by
  unfold restartNote
  try dsimp only
  repeat' first
    | (intro _)
    | fail_if_no_progress with_reducible refine Follows.put ?_ rfl
    | with_reducible assumption
    | with_reducible apply auditLog_follows
    | with_reducible apply raisePrivOpen_follows

theorem mbAbort_follows (h : Follows z s) :
    Follows z (mbAbort s) := by
  unfold mbAbort
  try dsimp only
  repeat' first
    | (intro _)
    | fail_if_no_progress with_reducible refine Follows.put ?_ rfl
    | with_reducible assumption
    | with_reducible apply mbEnd_follows
    | with_reducible apply Follows.ite

theorem prityRestart_follows {a1} (h : Follows z s) :
    Follows z (prityRestart a1 s) := by
  unfold prityRestart
  try dsimp only
  repeat' first
    | (intro _)
    | fail_if_no_progress with_reducible refine Follows.put ?_ rfl
    | with_reducible assumption
    | with_reducible apply mbAbort_follows
    | with_reducible apply restartNote_follows
    | with_reducible apply prityBoot_follows
    | with_reducible apply endSessions_follows
    | with_reducible apply raisePrivOpen_follows
    | with_reducible apply Follows.ite

theorem fwNo_follows {a1} (h : Follows z s) :
    FollowsP z (fwNo a1 s) := by
  unfold fwNo
  try dsimp only
  repeat' first
    | (intro _)
    | fail_if_no_progress with_reducible refine Follows.put ?_ rfl
    | with_reducible assumption
    | with_reducible apply mbRefuse_follows
    | with_reducible apply Follows.ite
    | with_reducible apply Follows.fold
    | with_reducible apply FollowsP.ite
    | with_reducible apply FollowsP.mk

theorem fwOk_follows {a1} (h : Follows z s) :
    FollowsP z (fwOk a1 s) := by
  unfold fwOk
  try dsimp only
  repeat' first
    | (intro _)
    | fail_if_no_progress with_reducible refine Follows.put ?_ rfl
    | with_reducible assumption
    | with_reducible apply auditLog_follows
    | with_reducible apply Follows.ite
    | with_reducible apply Follows.fold
    | with_reducible apply FollowsP.ite
    | with_reducible apply FollowsP.mk

theorem fwStage_follows {a1} {a2 : State → MbAns} (h : Follows z s) (ha2 : ∀ u, Follows z u → FollowsP z (a2 u)) :
    Follows z (fwStage a1 a2 s) := by
  unfold fwStage
  try dsimp only
  repeat' first
    | (intro _)
    | fail_if_no_progress with_reducible refine Follows.put ?_ rfl
    | with_reducible assumption
    | with_reducible apply ha2
    | with_reducible apply mbRun_follows
    | with_reducible apply Follows.ite

theorem fwBegin_follows (h : Follows z s) :
    Follows z (fwBegin s) := by
  unfold fwBegin
  try dsimp only
  repeat' first
    | (intro _)
    | fail_if_no_progress with_reducible refine Follows.put ?_ rfl
    | with_reducible assumption
    | with_reducible apply fwStage_follows
    | with_reducible apply fwOk_follows
    | with_reducible apply fwNo_follows
    | with_reducible apply State.setFwBank_follows
    | with_reducible apply Follows.ite
    | with_reducible apply Follows.fold
    | with_reducible apply FollowsP.ite

theorem fwData_follows (h : Follows z s) :
    Follows z (fwData s) := by
  unfold fwData
  try dsimp only
  repeat' first
    | (intro _)
    | fail_if_no_progress with_reducible refine Follows.put ?_ rfl
    | with_reducible assumption
    | with_reducible apply fwStage_follows
    | with_reducible apply fwOk_follows
    | with_reducible apply fwNo_follows
    | with_reducible apply State.setFwBank_follows
    | with_reducible apply Follows.ite
    | with_reducible apply Follows.fold
    | with_reducible apply FollowsP.ite

theorem fwVerify_follows (h : Follows z s) :
    Follows z (fwVerify s) := by
  unfold fwVerify
  try dsimp only
  repeat' first
    | (intro _)
    | fail_if_no_progress with_reducible refine Follows.put ?_ rfl
    | with_reducible assumption
    | with_reducible apply fwStage_follows
    | with_reducible apply fwOk_follows
    | with_reducible apply fwNo_follows
    | with_reducible apply State.setFwBank_follows
    | with_reducible apply Follows.ite
    | with_reducible apply Follows.fold
    | with_reducible apply FollowsP.ite

theorem fwActivate_follows (h : Follows z s) :
    Follows z (fwActivate s) := by
  unfold fwActivate
  try dsimp only
  repeat' first
    | (intro _)
    | fail_if_no_progress with_reducible refine Follows.put ?_ rfl
    | with_reducible assumption
    | with_reducible apply fwStage_follows
    | with_reducible apply fwNo_follows
    | with_reducible apply endSessions_follows
    | with_reducible apply Follows.ite
    | with_reducible apply Follows.fold
    | with_reducible apply FollowsP.ite
    | with_reducible apply FollowsP.mk

theorem imageReady_follows (h : Follows z s) :
    Follows z (imageReady s) := by
  unfold imageReady
  try dsimp only
  repeat' first
    | (intro _)
    | fail_if_no_progress with_reducible refine Follows.put ?_ rfl
    | with_reducible assumption
    | with_reducible apply fwOk_follows
    | with_reducible apply restartNote_follows
    | with_reducible apply prityBoot_follows
    | with_reducible apply mbEnd_follows
    | with_reducible apply Follows.ite
    | with_reducible apply Follows.fold
    | with_reducible apply FollowsP.ite
    | with_reducible apply FollowsP.mk
    | with_reducible refine FollowsP.snd (fwOk_follows ?_)

theorem activateTimeout_follows (h : Follows z s) :
    Follows z (activateTimeout s) := by
  unfold activateTimeout
  try dsimp only
  repeat' first
    | (intro _)
    | fail_if_no_progress with_reducible refine Follows.put ?_ rfl
    | with_reducible assumption
    | with_reducible apply restartNote_follows
    | with_reducible apply prityBoot_follows
    | with_reducible apply mbEnd_follows
    | with_reducible apply Follows.ite

theorem fwCommitted_follows (h : Follows z s) :
    Follows z (fwCommitted s) := by
  unfold fwCommitted
  try dsimp only
  repeat' first
    | (intro _)
    | fail_if_no_progress with_reducible refine Follows.put ?_ rfl
    | with_reducible assumption

theorem fwCommit_follows (h : Follows z s) :
    Follows z (fwCommit s) := by
  unfold fwCommit
  try dsimp only
  repeat' first
    | (intro _)
    | fail_if_no_progress with_reducible refine Follows.put ?_ rfl
    | with_reducible assumption
    | with_reducible apply fwCommitted_follows
    | with_reducible apply fwStage_follows
    | with_reducible apply fwOk_follows
    | with_reducible apply fwNo_follows
    | with_reducible apply otpPush_follows
    | with_reducible apply Follows.ite
    | with_reducible apply Follows.fold
    | with_reducible apply FollowsP.ite
    | with_reducible apply FollowsP.mk

theorem fwCommitBack_follows {a1} (h : Follows z s) :
    Follows z (fwCommitBack a1 s) := by
  unfold fwCommitBack
  try dsimp only
  repeat' first
    | (intro _)
    | fail_if_no_progress with_reducible refine Follows.put ?_ rfl
    | with_reducible assumption
    | with_reducible apply fwCommitted_follows
    | with_reducible apply fwOk_follows
    | with_reducible apply mbEnd_follows
    | with_reducible apply Follows.ite
    | with_reducible apply Follows.fold
    | with_reducible apply FollowsP.ite
    | with_reducible apply FollowsP.mk
    | with_reducible refine FollowsP.snd (fwOk_follows ?_)

theorem fwRevert_follows (h : Follows z s) :
    Follows z (fwRevert s) := by
  unfold fwRevert
  try dsimp only
  repeat' first
    | (intro _)
    | fail_if_no_progress with_reducible refine Follows.put ?_ rfl
    | with_reducible assumption
    | with_reducible apply fwStage_follows
    | with_reducible apply fwOk_follows
    | with_reducible apply fwNo_follows
    | with_reducible apply restartNote_follows
    | with_reducible apply prityBoot_follows
    | with_reducible apply endSessions_follows
    | with_reducible apply Follows.ite
    | with_reducible apply Follows.fold
    | with_reducible apply FollowsP.ite

theorem fwAbort_follows (h : Follows z s) :
    Follows z (fwAbort s) := by
  unfold fwAbort
  try dsimp only
  repeat' first
    | (intro _)
    | fail_if_no_progress with_reducible refine Follows.put ?_ rfl
    | with_reducible assumption
    | with_reducible apply fwStage_follows
    | with_reducible apply fwOk_follows
    | with_reducible apply fwNo_follows
    | with_reducible apply State.setFwBank_follows
    | with_reducible apply Follows.ite
    | with_reducible apply Follows.fold
    | with_reducible apply FollowsP.ite

theorem fwUpdate_follows (h : Follows z s) :
    Follows z (fwUpdate s) := by
  unfold fwUpdate
  try dsimp only
  repeat' first
    | (intro _)
    | fail_if_no_progress with_reducible refine Follows.put ?_ rfl
    | with_reducible assumption
    | with_reducible apply fwAbort_follows
    | with_reducible apply fwRevert_follows
    | with_reducible apply fwCommit_follows
    | with_reducible apply fwActivate_follows
    | with_reducible apply fwVerify_follows
    | with_reducible apply fwData_follows
    | with_reducible apply fwBegin_follows
    | with_reducible apply Follows.ite
    | with_reducible apply Follows.fold
    | split

theorem nvOk_follows {a1} (h : Follows z s) :
    Follows z (nvOk a1 s) := by
  unfold nvOk
  try dsimp only
  repeat' first
    | (intro _)
    | fail_if_no_progress with_reducible refine Follows.put ?_ rfl
    | with_reducible assumption
    | with_reducible apply vendorStatus_follows
    | with_reducible apply eraseOn_follows
    | with_reducible apply fillNext_follows
    | with_reducible apply pregStatus_follows
    | with_reducible apply auditLog_follows
    | with_reducible apply nvPush_follows
    | with_reducible apply Follows.ite
    | with_reducible apply Follows.fold
    | split

theorem nvErr_follows {a1} (h : Follows z s) :
    Follows z (nvErr a1 s) := by
  unfold nvErr
  try dsimp only
  repeat' first
    | (intro _)
    | fail_if_no_progress with_reducible refine Follows.put ?_ rfl
    | with_reducible assumption
    | with_reducible apply vendorStatus_follows
    | with_reducible apply eraseFail_follows
    | with_reducible apply fillNext_follows
    | with_reducible apply pregStatus_follows
    | with_reducible apply auditLog_follows
    | with_reducible apply Follows.ite
    | with_reducible apply Follows.fold
    | split

theorem nvResponse_follows {a1} {a2} (h : Follows z s) :
    Follows z (nvResponse a1 a2 s) := by
  unfold nvResponse
  try dsimp only
  repeat' first
    | (intro _)
    | fail_if_no_progress with_reducible refine Follows.put ?_ rfl
    | with_reducible assumption
    | with_reducible apply nvErr_follows
    | with_reducible apply nvOk_follows
    | with_reducible apply raiseHm_follows
    | with_reducible apply emit_follows
    | with_reducible apply Follows.ite
    | with_reducible apply Follows.fold
    | split

theorem otpResponse_follows {a1} (h : Follows z s) :
    Follows z (otpResponse a1 s) := by
  unfold otpResponse
  try dsimp only
  repeat' first
    | (intro _)
    | fail_if_no_progress with_reducible refine Follows.put ?_ rfl
    | with_reducible assumption
    | with_reducible apply fwCommitBack_follows
    | with_reducible apply lcBack_follows
    | with_reducible apply raiseHm_follows
    | with_reducible apply emit_follows
    | with_reducible apply Follows.ite
    | with_reducible apply Follows.fold
    | split

end Sys2Proof.Machine
end

