-- ==== Sys2Proof/Laws/FollowsStart.lean ====
section
/-! SUPPORT. The operations of Machine/Start.lean follow. -/

namespace Sys2Proof.Machine

variable {z s : State}

theorem otpProgram_follows {a1} {a2} (h : Follows z s) :
    Follows z (otpProgram a1 a2 s) := by
  unfold otpProgram
  try dsimp only
  repeat' first
    | (intro _)
    | fail_if_no_progress with_reducible refine Follows.put ?_ rfl
    | with_reducible assumption
    | with_reducible apply emit_follows

theorem rootTry_follows {a1} {a2} (h : Follows z s) :
    FollowsOP z (rootTry a1 a2 s) := by
  unfold rootTry
  try dsimp only
  repeat' first
    | (intro _)
    | fail_if_no_progress with_reducible refine Follows.put ?_ rfl
    | with_reducible assumption
    | with_reducible apply otpProgram_follows
    | with_reducible apply drbg_follows
    | with_reducible apply reseed_follows
    | with_reducible apply emit_follows
    | with_reducible apply Follows.ite
    | with_reducible apply Follows.fold
    | with_reducible exact FollowsO.none
    | with_reducible apply FollowsO.some
    | with_reducible apply FollowsO.getD
    | with_reducible apply FollowsO.orElse
    | with_reducible apply FollowsO.map
    | with_reducible exact FollowsOP.none
    | with_reducible apply FollowsOP.some
    | with_reducible apply FollowsOP.getD
    | with_reducible apply FollowsOP.mapP
    | with_reducible apply FollowsOP.map
    | split
    | refine FollowsO.eq (by assumption) ?_
    | refine FollowsOP.eq (by assumption) ?_

theorem rootGenerate_follows {a1} (h : Follows z s) :
    Follows z (rootGenerate a1 s) := by
  unfold rootGenerate
  try dsimp only
  repeat' first
    | (intro _)
    | fail_if_no_progress with_reducible refine Follows.put ?_ rfl
    | with_reducible assumption
    | with_reducible apply rootTry_follows
    | with_reducible apply Follows.ite
    | with_reducible apply Follows.fold
    | with_reducible exact FollowsOP.none
    | with_reducible apply FollowsOP.some
    | with_reducible apply FollowsOP.getD

theorem fenceHeld_follows {a1} (h : Follows z s) :
    Follows z (fenceHeld a1 s) := by
  unfold fenceHeld
  try dsimp only
  repeat' first
    | (intro _)
    | fail_if_no_progress with_reducible refine Follows.put ?_ rfl
    | with_reducible assumption
    | with_reducible apply State.setDom_follows
    | with_reducible apply Follows.ite
    | with_reducible apply Follows.fold

theorem dataPathIslandRelease_follows {a1} (h : Follows z s) :
    Follows z (dataPathIslandRelease a1 s) := by
  unfold dataPathIslandRelease
  try dsimp only
  repeat' first
    | (intro _)
    | fail_if_no_progress with_reducible refine Follows.put ?_ rfl
    | with_reducible assumption
    | with_reducible apply State.updIsland_follows
    | with_reducible apply Follows.ite

theorem makeScrubKey_follows (h : Follows z s) :
    Follows z (makeScrubKey s) := by
  unfold makeScrubKey
  try dsimp only
  repeat' first
    | (intro _)
    | fail_if_no_progress with_reducible refine Follows.put ?_ rfl
    | with_reducible assumption
    | with_reducible apply berthStep_follows
    | with_reducible apply fillBerth_follows
    | with_reducible apply drbg_follows
    | with_reducible apply Follows.ite
    | with_reducible apply Follows.fold
    | with_reducible apply FollowsP.ite
    | with_reducible apply FollowsP.mk
    | with_reducible refine FollowsP.snd (berthStep_follows ?_ ?_)
    | with_reducible refine FollowsP.snd (fillBerth_follows ?_)
    | with_reducible exact FollowsOP.none
    | with_reducible apply FollowsOP.some
    | with_reducible apply FollowsOP.getD
    | with_reducible apply FollowsOP.mapP
    | with_reducible apply FollowsOP.map
    | split
    | refine FollowsP.eq (by assumption) ?_
    | refine FollowsOP.eq (by assumption) ?_

theorem prityStartupDone_follows {a1} (h : Follows z s) :
    Follows z (prityStartupDone a1 s) := by
  unfold prityStartupDone
  try dsimp only
  repeat' first
    | (intro _)
    | fail_if_no_progress with_reducible refine Follows.put ?_ rfl
    | with_reducible assumption
    | with_reducible apply makeScrubKey_follows
    | with_reducible apply fenceHeld_follows
    | with_reducible apply enterSafe_follows
    | with_reducible apply State.updIsland_follows
    | with_reducible apply Follows.ite
    | with_reducible apply Follows.fold
    | split
    | with_reducible refine Follows.putMode ?_ (.inl rfl) rfl
    | with_reducible refine Follows.putMode ?_ (.inr rfl) rfl

theorem islandPowerRemoval_follows {a1} (h : Follows z s) :
    Follows z (islandPowerRemoval a1 s) := by
  unfold islandPowerRemoval
  try dsimp only
  repeat' first
    | (intro _)
    | fail_if_no_progress with_reducible refine Follows.put ?_ rfl
    | with_reducible assumption
    | with_reducible apply keeperEnter_follows
    | with_reducible apply State.free_follows
    | with_reducible apply State.updIsland_follows
    | with_reducible apply Follows.ite
    | with_reducible apply Follows.fold
    | with_reducible apply FollowsP.ite
    | with_reducible apply FollowsP.mk
    | with_reducible refine FollowsP.snd (State.free_follows ?_)

theorem islandClockThrottle_follows {a1} {a2} {a3} (h : Follows z s) :
    Follows z (islandClockThrottle a1 a2 a3 s) := by
  unfold islandClockThrottle
  try dsimp only
  repeat' first
    | (intro _)
    | fail_if_no_progress with_reducible refine Follows.put ?_ rfl
    | with_reducible assumption
    | with_reducible apply bump_follows
    | with_reducible apply State.updIsland_follows
    | with_reducible apply Follows.ite
    | with_reducible apply Follows.fold
    | split

theorem dftScanReq_follows (h : Follows z s) :
    Follows z (dftScanReq s) := by
  unfold dftScanReq
  have h1 : ∀ u : State, Follows z u → Follows z { u with
      keys := { u.keys with tagKey := [], kdfCtx := [], ctIn := [], gate := false }
      lc := { u.lc with root := [] }
      ent := { u.ent with drbgKey := [], drbgV := [], inst := false, pool := [], raw := [] }
      att := { u.att with store := {} }
      audit := { u.audit with key := [], unkeyed := true }
      fault := { u.fault with scanAck := true } } := fun u h =>
    { h with lc := h.lc.trans ⟨rfl, id, id, Nat.le_refl _, id, .inr rfl⟩, gate := (fun e => nomatch e), scan := fun _ => rfl, sealed := fun _ _ => rfl }
  try dsimp only
  repeat' first
    | (intro _)
    | fail_if_no_progress with_reducible refine Follows.put ?_ rfl
    | with_reducible apply h1
    | with_reducible assumption
    | with_reducible apply emptyBerth_follows
    | with_reducible apply auditLog_follows
    | with_reducible apply raisePriv_follows
    | with_reducible apply bump_follows
    | with_reducible apply Follows.ite
    | with_reducible apply Follows.fold

end Sys2Proof.Machine
end

