-- ==== Sys2Proof/Laws/FollowsSettle.lean ====
section
/-! SUPPORT. The operations of Machine/Settle.lean follow. -/

namespace Sys2Proof.Machine

variable {z s : State}

theorem opLineFail_follows {a1} {a2} {a3} (h : Follows z s) :
    Follows z (opLineFail a1 a2 a3 s) := by
  unfold opLineFail
  try dsimp only
  repeat' first
    | (intro _)
    | fail_if_no_progress with_reducible refine Follows.put ?_ rfl
    | with_reducible assumption
    | with_reducible apply admFillFail_follows
    | with_reducible apply unwrapBack_follows
    | with_reducible apply sealBack_follows
    | with_reducible apply sendNext_follows
    | with_reducible apply putNext_follows
    | with_reducible apply recordRead'_follows
    | with_reducible apply writesNext_follows
    | with_reducible apply noteSt_follows
    | with_reducible apply allocZeroFail_follows
    | with_reducible apply finishOp_follows
    | with_reducible apply State.updOp_follows
    | with_reducible apply State.dropOp_follows
    | with_reducible apply Follows.ite
    | with_reducible apply Follows.fold
    | split

theorem opRangeDone_follows {a1} {a2} {a3} (h : Follows z s) :
    Follows z (opRangeDone a1 a2 a3 s) := by
  unfold opRangeDone
  try dsimp only
  repeat' first
    | (intro _)
    | fail_if_no_progress with_reducible refine Follows.put ?_ rfl
    | with_reducible assumption
    | with_reducible apply admFillNext_follows
    | with_reducible apply sendLoaded_follows
    | with_reducible apply putLoaded_follows
    | with_reducible apply poolPart_follows
    | with_reducible apply recordRead'_follows
    | with_reducible apply writesNext_follows
    | with_reducible apply allocZeroStep_follows
    | with_reducible apply copyStep_follows
    | with_reducible apply finishOp_follows
    | with_reducible apply State.updOp_follows
    | with_reducible apply State.dropOp_follows
    | with_reducible apply State.setOp_follows
    | with_reducible apply Follows.ite
    | with_reducible apply Follows.fold
    | split

theorem opLine_follows {a1} {a2} (h : Follows z s) :
    Follows z (opLine a1 a2 s) := by
  unfold opLine
  try dsimp only
  repeat' first
    | (intro _)
    | fail_if_no_progress with_reducible refine Follows.put ?_ rfl
    | with_reducible assumption
    | with_reducible apply opRangeDone_follows
    | with_reducible apply opLineFail_follows
    | with_reducible apply unwrapBack_follows
    | with_reducible apply sealBack_follows
    | with_reducible apply submitPiece_follows
    | with_reducible apply ctxBytes_follows
    | with_reducible apply State.updOp_follows
    | with_reducible apply Follows.ite
    | with_reducible apply Follows.fold
    | split

theorem lineDone_follows {a1} (h : Follows z s) :
    Follows z (lineDone a1 s) := by
  unfold lineDone
  try dsimp only
  repeat' first
    | (intro _)
    | fail_if_no_progress with_reducible refine Follows.put ?_ rfl
    | with_reducible assumption
    | with_reducible apply opLine_follows
    | with_reducible apply dumpBack_follows
    | with_reducible apply storeLine_follows
    | with_reducible apply operandLine_follows
    | with_reducible apply ringBack_follows
    | with_reducible apply turnEnd_follows
    | with_reducible apply State.updQuay_follows
    | with_reducible apply Follows.ite
    | with_reducible apply Follows.fold
    | split

theorem linesDone_follows {a1} (h : Follows z s) :
    Follows z (linesDone a1 s) := by
  induction a1 generalizing s with
  | zero =>
    unfold linesDone
    try dsimp only
    repeat' first
      | (intro _)
      | fail_if_no_progress with_reducible refine Follows.put ?_ rfl
      | with_reducible assumption
  | succ n ih =>
    unfold linesDone
    try dsimp only
    repeat' first
      | (intro _)
      | fail_if_no_progress with_reducible refine Follows.put ?_ rfl
      | with_reducible apply ih
      | with_reducible assumption
      | with_reducible apply lineDone_follows
      | with_reducible apply Follows.ite
      | with_reducible apply Follows.fold
      | split

theorem opEnded_follows {a1} (h : Follows z s) :
    Follows z (opEnded a1 s) := by
  unfold opEnded
  try dsimp only
  repeat' first
    | (intro _)
    | fail_if_no_progress with_reducible refine Follows.put ?_ rfl
    | with_reducible assumption
    | with_reducible apply strandOpEnd_follows
    | with_reducible apply poolEnd_follows
    | with_reducible apply targetEnd_follows
    | with_reducible apply allocDbEnd_follows
    | with_reducible apply queueEnd_follows
    | with_reducible apply State.dropOp_follows
    | with_reducible apply Follows.ite
    | with_reducible apply Follows.fold
    | split

theorem opsEnded_follows (h : Follows z s) :
    Follows z (opsEnded s) := by
  unfold opsEnded
  try dsimp only
  repeat' first
    | (intro _)
    | fail_if_no_progress with_reducible refine Follows.put ?_ rfl
    | with_reducible assumption
    | with_reducible apply opEnded_follows
    | with_reducible apply Follows.ite
    | with_reducible apply Follows.fold

theorem opPump_follows {a1} (h : Follows z s) :
    Follows z (opPump a1 s) := by
  unfold opPump
  try dsimp only
  repeat' first
    | (intro _)
    | fail_if_no_progress with_reducible refine Follows.put ?_ rfl
    | with_reducible assumption
    | with_reducible apply sealPump_follows
    | with_reducible apply beginOp_follows
    | with_reducible apply signalApply_follows
    | with_reducible apply retireEnd_follows
    | with_reducible apply waitGo_follows
    | with_reducible apply Follows.ite
    | with_reducible apply Follows.fold
    | split

theorem strandPump_follows {a1} {a2} (h : Follows z s) :
    Follows z (strandPump a1 a2 s) := by
  unfold strandPump
  try dsimp only
  repeat' first
    | (intro _)
    | fail_if_no_progress with_reducible refine Follows.put ?_ rfl
    | with_reducible assumption
    | with_reducible apply strandWaits_follows
    | with_reducible apply strandResume_follows
    | with_reducible apply strandFetch_follows
    | with_reducible apply strandDrained_follows

theorem traceFlush_follows {a1} (h : Follows z s) :
    Follows z (traceFlush a1 s) := by
  unfold traceFlush
  try dsimp only
  repeat' first
    | (intro _)
    | fail_if_no_progress with_reducible refine Follows.put ?_ rfl
    | with_reducible assumption
    | with_reducible apply submitPiece_follows
    | with_reducible apply Follows.ite

theorem tracePump_follows {a1} (h : Follows z s) :
    Follows z (tracePump a1 s) := by
  unfold tracePump
  try dsimp only
  repeat' first
    | (intro _)
    | fail_if_no_progress with_reducible refine Follows.put ?_ rfl
    | with_reducible assumption
    | with_reducible apply traceFlush_follows
    | with_reducible apply Follows.ite

theorem pump_follows (h : Follows z s) :
    Follows z (pump s) := by
  unfold pump
  try dsimp only
  repeat' first
    | (intro _)
    | fail_if_no_progress with_reducible refine Follows.put ?_ rfl
    | with_reducible assumption
    | with_reducible apply tracePump_follows
    | with_reducible apply strandPump_follows
    | with_reducible apply opPump_follows
    | with_reducible apply tdiPump_follows
    | with_reducible apply relayTake_follows
    | with_reducible apply relayPump_follows
    | with_reducible apply fedPump_follows
    | with_reducible apply revokePump_follows
    | with_reducible apply moorPump_follows
    | with_reducible apply fencePump_follows
    | with_reducible apply redPump_follows
    | with_reducible apply failForwards_follows
    | with_reducible apply migrNext_follows
    | with_reducible apply gwFill_follows
    | with_reducible apply revokedEnd_follows
    | with_reducible apply admitHeld_follows
    | with_reducible apply Follows.ite
    | with_reducible apply Follows.fold

theorem settleN_follows {a1} (h : Follows z s) :
    Follows z (settleN a1 s) := by
  induction a1 generalizing s with
  | zero =>
    unfold settleN
    try dsimp only
    repeat' first
      | (intro _)
      | fail_if_no_progress with_reducible refine Follows.put ?_ rfl
      | with_reducible assumption
  | succ n ih =>
    unfold settleN
    try dsimp only
    repeat' first
      | (intro _)
      | fail_if_no_progress with_reducible refine Follows.put ?_ rfl
      | with_reducible apply ih
      | with_reducible assumption
      | with_reducible apply pump_follows
      | with_reducible apply opsEnded_follows
      | with_reducible apply linesDone_follows
      | with_reducible apply Follows.ite

theorem settle_follows (h : Follows z s) :
    Follows z (settle s) := by
  unfold settle
  try dsimp only
  repeat' first
    | (intro _)
    | fail_if_no_progress with_reducible refine Follows.put ?_ rfl
    | with_reducible assumption
    | with_reducible apply settleN_follows

end Sys2Proof.Machine
end

