-- ==== Sys2Proof/Laws/FollowsQuayPort.lean ====
section
/-! SUPPORT. The operations of Machine/QuayPort.lean follow. -/

namespace Sys2Proof.Machine

variable {z s : State}

theorem orderHeads_follows {a1} (h : Follows z s) :
    Follows z (orderHeads a1 s) := by
  unfold orderHeads
  try dsimp only
  repeat' first
    | (intro _)
    | fail_if_no_progress with_reducible refine Follows.put ?_ rfl
    | with_reducible assumption
    | with_reducible apply orderFlush_follows
    | with_reducible apply Follows.ite
    | with_reducible apply Follows.fold

theorem startSource_follows {a1} {a2} (h : Follows z s) :
    FollowsO z (startSource a1 s a2) := by
  unfold startSource
  try dsimp only
  repeat' first
    | (intro _)
    | fail_if_no_progress with_reducible refine Follows.put ?_ rfl
    | with_reducible assumption
    | with_reducible apply startForward_follows
    | with_reducible apply startBulk_follows
    | with_reducible apply startItem_follows
    | with_reducible apply Follows.ite
    | with_reducible apply Follows.fold
    | with_reducible exact FollowsO.none
    | with_reducible apply FollowsO.some
    | with_reducible apply FollowsO.getD
    | with_reducible apply FollowsO.orElse
    | with_reducible apply FollowsO.map
    | split

theorem startRobin_follows {a1} {a2} (h : Follows z s) :
    FollowsO z (startRobin a1 s a2) := by
  induction a2 with
  | nil =>
    unfold startRobin
    try dsimp only
    repeat' first
      | (intro _)
      | fail_if_no_progress with_reducible refine Follows.put ?_ rfl
      | with_reducible assumption
      | with_reducible apply startSource_follows
      | with_reducible apply State.updQuay_follows
      | with_reducible apply Follows.ite
      | with_reducible apply Follows.fold
      | with_reducible exact FollowsO.none
  | cons x l ih =>
    unfold startRobin
    try dsimp only
    repeat' first
      | (intro _)
      | fail_if_no_progress with_reducible refine Follows.put ?_ rfl
      | with_reducible apply ih
      | with_reducible assumption
      | with_reducible apply startSource_follows
      | with_reducible apply State.updQuay_follows
      | with_reducible apply Follows.ite
      | with_reducible apply Follows.fold
      | with_reducible exact FollowsO.none
      | with_reducible apply FollowsO.some
      | with_reducible apply FollowsO.getD
      | with_reducible apply FollowsO.orElse
      | with_reducible apply FollowsO.map
      | split
      | refine FollowsO.eq (by assumption) ?_

theorem frameStart_follows {a1} (h : Follows z s) :
    Follows z (frameStart a1 s) := by
  unfold frameStart
  try dsimp only
  repeat' first
    | (intro _)
    | fail_if_no_progress with_reducible refine Follows.put ?_ rfl
    | with_reducible assumption
    | with_reducible apply startRobin_follows
    | with_reducible apply orderHeads_follows
    | with_reducible apply startRetx_follows
    | with_reducible apply startCtl_follows
    | with_reducible apply startResend_follows
    | with_reducible apply firstStart_follows
    | with_reducible apply Follows.ite
    | with_reducible apply Follows.fold
    | with_reducible exact FollowsO.none
    | with_reducible apply FollowsO.some
    | with_reducible apply FollowsO.getD
    | with_reducible apply FollowsO.orElse
    | with_reducible apply FollowsO.map
    | split
    | refine FollowsO.eq (by assumption) ?_

theorem sessBerths_follows {a1} {a2} {a3} {a4} {a5} (h : Follows z s) :
    FollowsP z (sessBerths a1 a2 a3 a4 a5 s) := by
  induction a5 generalizing s with
  | zero =>
    unfold sessBerths
    try dsimp only
    repeat' first
      | (intro _)
      | fail_if_no_progress with_reducible refine Follows.put ?_ rfl
      | with_reducible assumption
      | with_reducible apply berthStep_follows
      | with_reducible apply writeBerth_follows
      | with_reducible apply Follows.ite
      | with_reducible apply Follows.fold
      | with_reducible apply FollowsP.ite
      | with_reducible apply FollowsP.mk
  | succ n ih =>
    unfold sessBerths
    try dsimp only
    repeat' first
      | (intro _)
      | fail_if_no_progress with_reducible refine Follows.put ?_ rfl
      | with_reducible apply ih
      | with_reducible refine FollowsP.snd (ih ?_)
      | with_reducible assumption
      | with_reducible apply berthStep_follows
      | with_reducible apply writeBerth_follows
      | with_reducible apply Follows.ite
      | with_reducible apply Follows.fold
      | with_reducible apply FollowsP.ite
      | with_reducible apply FollowsP.mk
      | with_reducible refine FollowsP.snd (berthStep_follows ?_ ?_)

theorem openGen_follows {a1} {a2} {a3} {a4} (h : Follows z s) :
    Follows z (openGen a1 a2 a3 a4 s) := by
  unfold openGen
  try dsimp only
  repeat' first
    | (intro _)
    | fail_if_no_progress with_reducible refine Follows.put ?_ rfl
    | with_reducible assumption
    | with_reducible apply deriveGen_follows
    | with_reducible apply State.updSess_follows
    | with_reducible apply Follows.ite
    | with_reducible apply Follows.fold
    | with_reducible apply FollowsP.ite
    | with_reducible apply FollowsP.mk
    | with_reducible refine FollowsP.snd (deriveGen_follows ?_)

theorem sessReset_follows {a1} {a2} {a3} (h : Follows z s) :
    Follows z (sessReset a1 a2 a3 s) := by
  unfold sessReset
  try dsimp only
  repeat' first
    | (intro _)
    | fail_if_no_progress with_reducible refine Follows.put ?_ rfl
    | with_reducible assumption
    | with_reducible apply endSessOps_follows
    | with_reducible apply State.updQuay_follows
    | with_reducible apply Follows.ite

theorem sessBegin_follows {a1} {a2} {a3} {a4} {a5} {a6} {a7} {a8} {a9} {a10} (h : Follows z s) :
    FollowsP z (sessBegin a1 a2 a3 a4 a5 a6 a7 a8 a9 a10 s) := by
  unfold sessBegin
  try dsimp only
  repeat' first
    | (intro _)
    | fail_if_no_progress with_reducible refine Follows.put ?_ rfl
    | with_reducible assumption
    | with_reducible apply sessReset_follows
    | with_reducible apply openGen_follows
    | with_reducible apply sessBerths_follows
    | with_reducible apply State.setSess_follows
    | with_reducible apply Follows.ite
    | with_reducible apply Follows.fold
    | with_reducible apply FollowsP.ite
    | with_reducible apply FollowsP.mk
    | with_reducible refine FollowsP.snd (sessBerths_follows ?_)
    | split

theorem sessOpenRun_follows (h : Follows z s) :
    FollowsP z (sessOpenRun s) := by
  unfold sessOpenRun
  try dsimp only
  repeat' first
    | (intro _)
    | fail_if_no_progress with_reducible refine Follows.put ?_ rfl
    | with_reducible assumption
    | with_reducible apply sessBegin_follows
    | with_reducible apply mbRefuse_follows
    | with_reducible apply berthLoad_follows
    | with_reducible apply Follows.ite
    | with_reducible apply Follows.fold
    | with_reducible apply FollowsP.ite
    | with_reducible apply FollowsP.mk
    | with_reducible refine FollowsP.snd (sessBegin_follows ?_)
    | with_reducible refine FollowsP2.snd (berthLoad_follows ?_)

theorem sessionOpen_follows (h : Follows z s) :
    Follows z (sessionOpen s) := by
  unfold sessionOpen
  try dsimp only
  repeat' first
    | (intro _)
    | fail_if_no_progress with_reducible refine Follows.put ?_ rfl
    | with_reducible assumption
    | with_reducible apply sessOpenRun_follows
    | with_reducible apply mbRun_follows

theorem sessionClose_follows (h : Follows z s) :
    Follows z (sessionClose s) := by
  unfold sessionClose
  try dsimp only
  repeat' first
    | (intro _)
    | fail_if_no_progress with_reducible refine Follows.put ?_ rfl
    | with_reducible assumption
    | with_reducible apply closeSess_follows
    | with_reducible apply mbRun_follows
    | with_reducible apply Follows.ite
    | with_reducible apply Follows.fold
    | with_reducible apply FollowsP.ite
    | with_reducible apply FollowsP.mk

theorem sessionMigrate_follows (h : Follows z s) :
    Follows z (sessionMigrate s) := by
  unfold sessionMigrate
  try dsimp only
  repeat' first
    | (intro _)
    | fail_if_no_progress with_reducible refine Follows.put ?_ rfl
    | with_reducible assumption
    | with_reducible apply migrStart_follows
    | with_reducible apply mbRun_follows
    | with_reducible apply Follows.ite
    | with_reducible apply Follows.fold
    | with_reducible apply FollowsP.ite
    | with_reducible apply FollowsP.mk
    | with_reducible refine FollowsP.snd (migrStart_follows ?_)

theorem sessionRotate_follows (h : Follows z s) :
    Follows z (sessionRotate s) := by
  unfold sessionRotate
  try dsimp only
  repeat' first
    | (intro _)
    | fail_if_no_progress with_reducible refine Follows.put ?_ rfl
    | with_reducible assumption
    | with_reducible apply mbRun_follows
    | with_reducible apply State.updSess_follows
    | with_reducible apply Follows.ite
    | with_reducible apply Follows.fold
    | with_reducible apply FollowsP.ite
    | with_reducible apply FollowsP.mk

theorem rekeyCmd_follows (h : Follows z s) :
    Follows z (rekeyCmd s) := by
  unfold rekeyCmd
  try dsimp only
  repeat' first
    | (intro _)
    | fail_if_no_progress with_reducible refine Follows.put ?_ rfl
    | with_reducible assumption
    | with_reducible apply mbRun_follows
    | with_reducible apply rekeyStart_follows
    | with_reducible apply Follows.ite
    | with_reducible apply Follows.fold
    | with_reducible apply FollowsP.ite
    | with_reducible apply FollowsP.mk
    | with_reducible refine FollowsP.snd (rekeyStart_follows ?_)

end Sys2Proof.Machine
end

