-- ==== Sys2Proof/Laws/FollowsLichenRows.lean ====
section
/-! SUPPORT. The operations of Machine/LichenRows.lean follow. -/

namespace Sys2Proof.Machine

variable {z s : State}

theorem downstreamIssue_follows {a1} {a2} {a3} (h : Follows z s) :
    Follows z (downstreamIssue a1 a2 a3 s) := by
  unfold downstreamIssue
  try dsimp only
  repeat' first
    | (intro _)
    | fail_if_no_progress with_reducible refine Follows.put ?_ rfl
    | with_reducible assumption
    | with_reducible apply poolHand_follows
    | with_reducible apply State.setSlice_follows
    | with_reducible apply latePoisoned_follows
    | with_reducible apply issueLane_follows
    | with_reducible apply advance_follows
    | with_reducible apply bumpIf_follows
    | with_reducible apply State.updEng_follows
    | with_reducible apply Follows.ite
    | with_reducible apply Follows.fold

theorem licCtrl_follows {a1} {a2} {a3 : ℕ → State → State} (h : Follows z s) (ha3 : ∀ y0 u, Follows z u → Follows z (a3 y0 u)) :
    Follows z (licCtrl a1 a2 a3 s) := by
  unfold licCtrl
  try dsimp only
  repeat' first
    | (intro _)
    | fail_if_no_progress with_reducible refine Follows.put ?_ rfl
    | with_reducible assumption
    | with_reducible apply ha3
    | with_reducible apply advance_follows
    | with_reducible apply regGuard_follows
    | with_reducible apply bump_follows
    | with_reducible apply Follows.ite

end Sys2Proof.Machine
end

