-- ==== Sys2Proof/Laws/FollowsQueueRows.lean ====
section
/-! SUPPORT. The operations of Machine/QueueRows.lean follow. -/

namespace Sys2Proof.Machine

variable {z s : State}

theorem retireGo_follows {a1} {a2} (h : Follows z s) :
    Follows z (retireGo a1 a2 s) := by
  unfold retireGo
  try dsimp only
  repeat' first
    | (intro _)
    | fail_if_no_progress with_reducible refine Follows.put ?_ rfl
    | with_reducible assumption
    | with_reducible apply failSeals_follows
    | with_reducible apply stopStrands_follows
    | with_reducible apply failSlots_follows
    | with_reducible apply retireBegin_follows
    | with_reducible apply State.updOp_follows
    | with_reducible apply Follows.ite
    | with_reducible apply Follows.fold
    | with_reducible apply FollowsP.ite
    | with_reducible apply FollowsP.mk
    | with_reducible refine FollowsP.snd (retireBegin_follows ?_)

end Sys2Proof.Machine
end

