-- ==== Sys2Proof/Laws/FollowsSound.lean ====
section
/-! SUPPORT. The operations of Machine/Sound.lean follow. -/

namespace Sys2Proof.Machine

variable {z s : State}

theorem freeze_follows (h : Follows z s) :
    Follows z (freeze s) := by
  unfold freeze
  try dsimp only
  repeat' first
    | (intro _)
    | fail_if_no_progress with_reducible refine Follows.put ?_ rfl
    | with_reducible assumption
    | with_reducible apply Follows.ite

theorem gtrig_follows (h : Follows z s) :
    Follows z (gtrig s) := by
  unfold gtrig
  try dsimp only
  repeat' first
    | (intro _)
    | fail_if_no_progress with_reducible refine Follows.put ?_ rfl
    | with_reducible assumption
    | with_reducible apply freeze_follows
    | with_reducible apply Follows.ite

theorem freezeAt_follows (h : Follows z s) :
    Follows z (freezeAt s) := by
  unfold freezeAt
  refine Follows.ite h ?_
  have h1 : Follows z { s with time := { s.time with ns := max s.time.ns s.sound.freezeAt } } :=
    { h with time := Nat.le_trans h.time (Nat.le_max_left _ _) }
  exact freeze_follows (Follows.put h1 rfl)

theorem snapshotRelease_follows {a1} (h : Follows z s) :
    Follows z (snapshotRelease a1 s) := by
  unfold snapshotRelease
  try dsimp only
  repeat' first
    | (intro _)
    | fail_if_no_progress with_reducible refine Follows.put ?_ rfl
    | with_reducible assumption
    | with_reducible apply regGuard_follows

theorem reproClear_follows {a1} (h : Follows z s) :
    Follows z (reproClear a1 s) := by
  unfold reproClear
  refine regGuard_follows h fun u hu => ?_
  exact Follows.putCnt hu (countersOk_zeros _) rfl

theorem replayEnable_follows {a1} {a2} (h : Follows z s) :
    Follows z (replayEnable a1 a2 s) := by
  unfold replayEnable
  try dsimp only
  repeat' first
    | (intro _)
    | fail_if_no_progress with_reducible refine Follows.put ?_ rfl
    | with_reducible assumption
    | with_reducible apply regGuard_follows
    | with_reducible apply State.updWin_follows
    | with_reducible apply Follows.ite
    | with_reducible apply Follows.fold
    | split
    | with_reducible refine Follows.putMode ?_ (.inl rfl) rfl
    | with_reducible refine Follows.putMode ?_ (.inr rfl) rfl
    | with_reducible refine Follows.putCnt ?_ (fun e => countersOk_set e (Nat.zero_le _)) rfl
    | with_reducible apply Follows.foldP
    | (with_reducible dsimp only)
    | assumption

end Sys2Proof.Machine
end

