-- ==== Sys2Proof/Laws/RegOk.lean ====
section
/-! SUPPORT. Registers whose writes follow. -/

namespace Sys2Proof.Machine

variable {z u : State} {α : Type}

/-- Every write of a register follows. -/
structure RegOk (z : State) (r : Reg) : Prop where
  of : ∀ v u, Follows z u → Follows z (r.put v u)

theorem RegOk.put {r : Reg} {v : Nat} (h : RegOk z r) (hu : Follows z u) : Follows z (r.put v u) := h.of v u hu
theorem RegOk.lit {val fields vis mask gated frz deny pol ok own put}
    (hp : ∀ v u, Follows z u → Follows z (put v u)) : RegOk z ⟨val, fields, vis, mask, gated, frz, deny, pol, ok, own, put⟩ :=
  ⟨hp⟩
theorem RegOk.ro {f v : Nat} : RegOk z (ro f v) := ⟨fun _ _ h => h⟩
theorem RegOk.frozenCnt {a : Nat} {s : State} : RegOk z (frozenCnt a s) := ⟨fun _ _ h => h⟩
theorem RegOk.rw {m w v put} (hp : ∀ v u, Follows z u → Follows z (put v u)) : RegOk z (rw m w v put) := ⟨hp⟩
theorem RegOk.wo {m f put} (hp : ∀ v u, Follows z u → Follows z (put v u)) : RegOk z (wo m f put) := ⟨hp⟩
theorem RegOk.onlyBit {m put} (hp : ∀ u, Follows z u → Follows z (put u)) : RegOk z (onlyBit m put) :=
  ⟨fun v u h => by
    show Follows z (if bit1 0 v then put u else u)
    exact Follows.ite (hp u h) h⟩
theorem RegOk.strict {r : Reg} (h : RegOk z r) : RegOk z r.strict := by
  unfold Reg.strict
  split
  · exact ⟨h.of⟩
  · exact h
theorem RegOk.outOfRange {r : Reg} (h : RegOk z r) : RegOk z (outOfRange r) := ⟨h.of⟩
theorem RegOk.ite {c : Prop} [Decidable c] {a b : Reg} (ha : RegOk z a) (hb : RegOk z b) :
    RegOk z (if c then a else b) := by split <;> assumption

/-- Every register of a list of places. -/
structure RegsOk (z : State) (l : List (Nat × Reg)) : Prop where
  of : ∀ p ∈ l, RegOk z p.2

theorem RegsOk.nil : RegsOk z [] := ⟨fun _ h => nomatch h⟩
theorem RegsOk.cons {o r l} (h : RegOk z r) (hl : RegsOk z l) : RegsOk z ((o, r) :: l) :=
  ⟨fun p hp => (List.mem_cons.mp hp).elim (fun e => e ▸ h) (hl.of p)⟩
theorem RegsOk.append {a b} (ha : RegsOk z a) (hb : RegsOk z b) : RegsOk z (a ++ b) :=
  ⟨fun p hp => (List.mem_append.mp hp).elim (ha.of p) (hb.of p)⟩
theorem RegsOk.map {f : α → Nat × Reg} {l : List α} (hf : ∀ x, RegOk z (f x).2) : RegsOk z (l.map f) :=
  ⟨fun _ hp => (List.mem_map.mp hp).elim fun x e => e.2 ▸ hf x⟩

/-- The register of a place, where there is one. -/
structure FollowsR (z : State) (o : Option Reg) : Prop where
  of : ∀ r, o = some r → RegOk z r

theorem FollowsR.none : FollowsR z none := ⟨fun _ e => nomatch e⟩
theorem FollowsR.some {r} (h : RegOk z r) : FollowsR z (some r) := ⟨fun _ e => Option.some.inj e ▸ h⟩
theorem FollowsR.strict {o} (h : FollowsR z o) : FollowsR z (o.map Reg.strict) := by
  cases o with
  | none => exact FollowsR.none
  | some r => exact FollowsR.some (h.of r rfl).strict
theorem FollowsR.map {f : Reg → Reg} {o} (h : FollowsR z o) (hf : ∀ r, RegOk z r → RegOk z (f r)) :
    FollowsR z (o.map f) := by
  cases o with
  | none => exact FollowsR.none
  | some r => exact FollowsR.some (hf r (h.of r rfl))
theorem FollowsR.ite {c : Prop} [Decidable c] {a b : Option Reg} (ha : FollowsR z a) (hb : FollowsR z b) :
    FollowsR z (if c then a else b) := by split <;> assumption
theorem FollowsR.head {l : List (Nat × Reg)} (h : RegsOk z l) : FollowsR z (l.head?.map fun x => x.2) := by
  cases l with
  | nil => exact FollowsR.none
  | cons p l => exact FollowsR.some (h.of p List.mem_cons_self)
theorem FollowsR.eq {o : Option Reg} {r : Reg} (e : o = .some r) (h : FollowsR z o) : RegOk z r := h.of r e
theorem FollowsR.pick {o l} (h : RegsOk z l) : FollowsR z (pickReg o l) := by
  unfold pickReg
  cases e : l.find? (fun p => p.1 = o) with
  | none => exact FollowsR.none
  | some p => exact FollowsR.some (h.of p (List.mem_of_find?_eq_some e))

end Sys2Proof.Machine
end

