-- ==== Sys2Proof/Laws/FollowsRegMap.lean ====
section
/-! SUPPORT. The operations of Machine/RegMap.lean follow. -/

namespace Sys2Proof.Machine

variable {z s : State}

theorem identReg_follows {a1}  :
    FollowsR z (identReg s a1) := by
  unfold identReg
  try dsimp only
  repeat' first
    | with_reducible apply RegsOk.cons
    | (intro _)
    | fail_if_no_progress with_reducible refine Follows.put ?_ rfl
    | with_reducible assumption
    | with_reducible exact FollowsR.none
    | with_reducible apply FollowsR.some
    | with_reducible apply FollowsR.ite
    | with_reducible apply FollowsR.head
    | with_reducible apply FollowsR.strict
    | with_reducible apply FollowsR.map
    | with_reducible apply FollowsR.pick
    | with_reducible exact RegsOk.nil
    | with_reducible apply RegsOk.cons
    | with_reducible apply RegsOk.append
    | with_reducible apply RegsOk.map
    | with_reducible apply RegOk.ite
    | with_reducible apply RegOk.strict
    | with_reducible exact RegOk.ro

theorem mbCmd_follows {a1} (h : Follows z s) :
    Follows z (mbCmd a1 s) := by
  unfold mbCmd
  try dsimp only
  repeat' first
    | (intro _)
    | fail_if_no_progress with_reducible refine Follows.put ?_ rfl
    | with_reducible assumption
    | with_reducible apply rekeyCmd_follows
    | with_reducible apply sessionRotate_follows
    | with_reducible apply sessionMigrate_follows
    | with_reducible apply sessionClose_follows
    | with_reducible apply sessionOpen_follows
    | with_reducible apply fwUpdate_follows
    | with_reducible apply tenantRemove_follows
    | with_reducible apply domainChange_follows
    | with_reducible apply quote_follows
    | with_reducible apply tenantAdmit_follows
    | with_reducible apply lcTransition_follows
    | with_reducible apply eraseUserSecrets_follows
    | with_reducible apply bistRun_follows
    | with_reducible apply mbRun_follows
    | with_reducible apply Follows.ite
    | with_reducible apply Follows.fold
    | with_reducible apply FollowsP.ite
    | with_reducible apply FollowsP.mk

theorem mbIdle_follows {a1} (h : Follows z s) :
    Follows z (mbIdle a1 s) := by
  unfold mbIdle
  try dsimp only
  repeat' first
    | (intro _)
    | fail_if_no_progress with_reducible refine Follows.put ?_ rfl
    | with_reducible assumption
    | with_reducible apply Follows.ite

theorem mboxReg_follows {a1} {a2}  :
    FollowsR z (mboxReg s a1 a2) := by
  unfold mboxReg
  try dsimp only
  repeat' first
    | with_reducible apply RegsOk.cons
    | (intro _)
    | fail_if_no_progress with_reducible refine Follows.put ?_ rfl
    | with_reducible assumption
    | with_reducible apply mbIdle_follows
    | with_reducible apply mbCmd_follows
    | with_reducible exact FollowsR.none
    | with_reducible apply FollowsR.some
    | with_reducible apply FollowsR.ite
    | with_reducible apply FollowsR.head
    | with_reducible apply FollowsR.strict
    | with_reducible apply FollowsR.map
    | with_reducible apply FollowsR.pick
    | with_reducible exact RegsOk.nil
    | with_reducible apply RegsOk.cons
    | with_reducible apply RegsOk.append
    | with_reducible apply RegsOk.map
    | with_reducible apply RegOk.ite
    | with_reducible apply RegOk.strict
    | with_reducible exact RegOk.ro
    | with_reducible exact RegOk.frozenCnt
    | with_reducible apply RegOk.rw
    | with_reducible apply RegOk.wo
    | with_reducible apply RegOk.onlyBit
    | with_reducible apply RegOk.outOfRange
    | with_reducible apply RegOk.lit
    | with_reducible apply RegOk.put

theorem licReg_follows {a1} {a2} {a3}  :
    FollowsR z (licReg s a1 a2 a3) := by
  unfold licReg
  try dsimp only
  repeat' first
    | with_reducible apply RegsOk.cons
    | (intro _)
    | fail_if_no_progress with_reducible refine Follows.put ?_ rfl
    | with_reducible assumption
    | with_reducible apply frzWrite_follows
    | with_reducible apply licFlush_follows
    | with_reducible apply licInit_follows
    | with_reducible apply advance_follows
    | with_reducible apply policyWrite_follows
    | with_reducible apply permFault_follows
    | with_reducible apply State.updEng_follows
    | with_reducible exact FollowsR.none
    | with_reducible apply FollowsR.some
    | with_reducible apply FollowsR.ite
    | with_reducible apply FollowsR.head
    | with_reducible apply FollowsR.strict
    | with_reducible apply FollowsR.map
    | with_reducible apply FollowsR.pick
    | with_reducible exact RegsOk.nil
    | with_reducible apply RegsOk.cons
    | with_reducible apply RegsOk.append
    | with_reducible apply RegsOk.map
    | with_reducible apply RegOk.ite
    | with_reducible apply RegOk.strict
    | with_reducible exact RegOk.ro
    | with_reducible exact RegOk.frozenCnt
    | with_reducible apply RegOk.rw
    | with_reducible apply RegOk.wo
    | with_reducible apply RegOk.onlyBit
    | with_reducible apply RegOk.outOfRange
    | with_reducible apply RegOk.lit
    | with_reducible apply RegOk.put
    | with_reducible apply Follows.ite
    | with_reducible apply Follows.fold
    | with_reducible apply FollowsP.ite
    | with_reducible apply FollowsP.mk
    | with_reducible refine FollowsP.snd (frzWrite_follows ?_)

theorem tideReg_follows {a1} {a2}  :
    FollowsR z (tideReg s a1 a2) := by
  unfold tideReg
  try dsimp only
  repeat' first
    | with_reducible apply RegsOk.cons
    | (intro _)
    | fail_if_no_progress with_reducible refine Follows.put ?_ rfl
    | with_reducible assumption
    | with_reducible apply State.setSlice_follows
    | with_reducible exact FollowsR.none
    | with_reducible apply FollowsR.some
    | with_reducible apply FollowsR.ite
    | with_reducible apply FollowsR.head
    | with_reducible apply FollowsR.strict
    | with_reducible apply FollowsR.map
    | with_reducible apply FollowsR.pick
    | with_reducible exact RegsOk.nil
    | with_reducible apply RegsOk.cons
    | with_reducible apply RegsOk.append
    | with_reducible apply RegsOk.map
    | with_reducible apply RegOk.ite
    | with_reducible apply RegOk.strict
    | with_reducible exact RegOk.ro
    | with_reducible exact RegOk.frozenCnt
    | with_reducible apply RegOk.rw
    | with_reducible apply RegOk.wo
    | with_reducible apply RegOk.onlyBit
    | with_reducible apply RegOk.outOfRange
    | with_reducible apply RegOk.lit
    | with_reducible apply RegOk.put

theorem quayReg_follows {a1} {a2} {a3}  :
    FollowsR z (quayReg s a1 a2 a3) := by
  unfold quayReg
  try dsimp only
  repeat' first
    | with_reducible apply RegsOk.cons
    | (intro _)
    | fail_if_no_progress with_reducible refine Follows.put ?_ rfl
    | with_reducible assumption
    | with_reducible apply quayCtrl_follows
    | with_reducible apply State.updQuay_follows
    | with_reducible exact FollowsR.none
    | with_reducible apply FollowsR.some
    | with_reducible apply FollowsR.ite
    | with_reducible apply FollowsR.head
    | with_reducible apply FollowsR.strict
    | with_reducible apply FollowsR.map
    | with_reducible apply FollowsR.pick
    | with_reducible exact RegsOk.nil
    | with_reducible apply RegsOk.cons
    | with_reducible apply RegsOk.append
    | with_reducible apply RegsOk.map
    | with_reducible apply RegOk.ite
    | with_reducible apply RegOk.strict
    | with_reducible exact RegOk.ro
    | with_reducible exact RegOk.frozenCnt
    | with_reducible apply RegOk.rw
    | with_reducible apply RegOk.wo
    | with_reducible apply RegOk.onlyBit
    | with_reducible apply RegOk.outOfRange
    | with_reducible apply RegOk.lit
    | with_reducible apply RegOk.put

theorem redReg_follows {a1} {a2}  :
    FollowsR z (redReg s a1 a2) := by
  unfold redReg
  try dsimp only
  repeat' first
    | with_reducible apply RegsOk.cons
    | (intro _)
    | fail_if_no_progress with_reducible refine Follows.put ?_ rfl
    | with_reducible assumption
    | with_reducible exact FollowsR.none
    | with_reducible apply FollowsR.some
    | with_reducible apply FollowsR.ite
    | with_reducible apply FollowsR.head
    | with_reducible apply FollowsR.strict
    | with_reducible apply FollowsR.map
    | with_reducible apply FollowsR.pick
    | with_reducible exact RegsOk.nil
    | with_reducible apply RegsOk.cons
    | with_reducible apply RegsOk.append
    | with_reducible apply RegsOk.map
    | with_reducible apply RegOk.ite
    | with_reducible apply RegOk.strict
    | with_reducible exact RegOk.ro
    | with_reducible exact RegOk.frozenCnt
    | with_reducible apply RegOk.rw
    | with_reducible apply RegOk.wo
    | with_reducible apply RegOk.onlyBit
    | with_reducible apply RegOk.outOfRange
    | with_reducible apply RegOk.lit
    | with_reducible apply RegOk.put

theorem eqWord_follows {a1} {a2} {a3} {a4}  :
    FollowsR z (eqWord a1 a2 a3 a4 s) := by
  unfold eqWord
  try dsimp only
  repeat' first
    | with_reducible apply RegsOk.cons
    | (intro _)
    | fail_if_no_progress with_reducible refine Follows.put ?_ rfl
    | with_reducible assumption
    | with_reducible apply eqCtrlWrite_follows
    | with_reducible apply headWrite_follows
    | with_reducible apply State.updEq_follows
    | with_reducible exact FollowsR.none
    | with_reducible apply FollowsR.some
    | with_reducible apply FollowsR.ite
    | with_reducible apply FollowsR.head
    | with_reducible apply FollowsR.strict
    | with_reducible apply FollowsR.map
    | with_reducible apply FollowsR.pick
    | with_reducible exact RegsOk.nil
    | with_reducible apply RegsOk.cons
    | with_reducible apply RegsOk.append
    | with_reducible apply RegsOk.map
    | with_reducible apply RegOk.ite
    | with_reducible apply RegOk.strict
    | with_reducible exact RegOk.ro
    | with_reducible exact RegOk.frozenCnt
    | with_reducible apply RegOk.rw
    | with_reducible apply RegOk.wo
    | with_reducible apply RegOk.onlyBit
    | with_reducible apply RegOk.outOfRange
    | with_reducible apply RegOk.lit
    | with_reducible apply RegOk.put

theorem eventReg_follows {a1} {a2}  :
    FollowsR z (eventReg s a1 a2) := by
  unfold eventReg
  try dsimp only
  repeat' first
    | with_reducible apply RegsOk.cons
    | (intro _)
    | fail_if_no_progress with_reducible refine Follows.put ?_ rfl
    | with_reducible assumption
    | with_reducible apply eqWord_follows
    | with_reducible apply takeWrite_follows
    | with_reducible apply raiseWrite_follows
    | with_reducible apply bankResetWrite_follows
    | with_reducible apply eoiWrite_follows
    | with_reducible apply swDb_follows
    | with_reducible apply State.updEq_follows
    | with_reducible exact FollowsR.none
    | with_reducible apply FollowsR.some
    | with_reducible apply FollowsR.ite
    | with_reducible apply FollowsR.head
    | with_reducible apply FollowsR.strict
    | with_reducible apply FollowsR.map
    | with_reducible apply FollowsR.pick
    | with_reducible exact RegsOk.nil
    | with_reducible apply RegsOk.cons
    | with_reducible apply RegsOk.append
    | with_reducible apply RegsOk.map
    | with_reducible apply RegOk.ite
    | with_reducible apply RegOk.strict
    | with_reducible exact RegOk.ro
    | with_reducible exact RegOk.frozenCnt
    | with_reducible apply RegOk.rw
    | with_reducible apply RegOk.wo
    | with_reducible apply RegOk.onlyBit
    | with_reducible apply RegOk.outOfRange
    | with_reducible apply RegOk.lit
    | with_reducible apply RegOk.put
    | with_reducible apply Follows.ite

theorem bwaterReg_follows {a1} {a2}  :
    FollowsR z (bwaterReg s a1 a2) := by
  unfold bwaterReg
  try dsimp only
  repeat' first
    | with_reducible apply RegsOk.cons
    | (intro _)
    | fail_if_no_progress with_reducible refine Follows.put ?_ rfl
    | with_reducible assumption
    | with_reducible apply bwApply_follows
    | with_reducible exact FollowsR.none
    | with_reducible apply FollowsR.some
    | with_reducible apply FollowsR.ite
    | with_reducible apply FollowsR.head
    | with_reducible apply FollowsR.strict
    | with_reducible apply FollowsR.map
    | with_reducible apply FollowsR.pick
    | with_reducible exact RegsOk.nil
    | with_reducible apply RegsOk.cons
    | with_reducible apply RegsOk.append
    | with_reducible apply RegsOk.map
    | with_reducible apply RegOk.ite
    | with_reducible apply RegOk.strict
    | with_reducible exact RegOk.ro
    | with_reducible exact RegOk.frozenCnt
    | with_reducible apply RegOk.rw
    | with_reducible apply RegOk.wo
    | with_reducible apply RegOk.onlyBit
    | with_reducible apply RegOk.outOfRange
    | with_reducible apply RegOk.lit
    | with_reducible apply RegOk.put

end Sys2Proof.Machine
end

