-- ==== Sys2Proof/Laws/FollowsRegMgmt.lean ====
section
/-! SUPPORT. The operations of Machine/RegMgmt.lean follow. -/

namespace Sys2Proof.Machine

variable {z s : State}

theorem soundReg_follows {a1} {a2}  :
    FollowsR z (soundReg s a1 a2) := by
  unfold soundReg
  try dsimp only
  repeat' first
    | with_reducible apply RegsOk.cons
    | (intro _)
    | fail_if_no_progress with_reducible refine Follows.put ?_ rfl
    | with_reducible assumption
    | with_reducible apply reproClear_follows
    | with_reducible apply traceFlush_follows
    | with_reducible exact FollowsR.none
    | with_reducible apply FollowsR.some
    | with_reducible apply FollowsR.ite
    | with_reducible apply FollowsR.head
    | with_reducible apply FollowsR.strict
    | with_reducible apply FollowsR.map
    | with_reducible apply FollowsR.pick
    | with_reducible exact RegsOk.nil
    | with_reducible apply RegsOk.cons
    | with_reducible apply RegsOk.append
    | with_reducible apply RegsOk.map
    | with_reducible apply RegOk.ite
    | with_reducible apply RegOk.strict
    | with_reducible exact RegOk.ro
    | with_reducible exact RegOk.frozenCnt
    | with_reducible apply RegOk.rw
    | with_reducible apply RegOk.wo
    | with_reducible apply RegOk.onlyBit
    | with_reducible apply RegOk.outOfRange
    | with_reducible apply RegOk.lit
    | with_reducible apply RegOk.put
    | with_reducible apply Follows.ite

theorem keyReg_follows {a1} {a2}  :
    FollowsR z (keyReg s a1 a2) := by
  unfold keyReg
  try dsimp only
  repeat' first
    | with_reducible apply RegsOk.cons
    | (intro _)
    | fail_if_no_progress with_reducible refine Follows.put ?_ rfl
    | with_reducible assumption
    | with_reducible apply kmapWrite_follows
    | with_reducible apply berthCmd_follows
    | with_reducible exact FollowsR.none
    | with_reducible apply FollowsR.some
    | with_reducible apply FollowsR.ite
    | with_reducible apply FollowsR.head
    | with_reducible apply FollowsR.strict
    | with_reducible apply FollowsR.map
    | with_reducible apply FollowsR.pick
    | with_reducible exact RegsOk.nil
    | with_reducible apply RegsOk.cons
    | with_reducible apply RegsOk.append
    | with_reducible apply RegsOk.map
    | with_reducible apply RegOk.ite
    | with_reducible apply RegOk.strict
    | with_reducible exact RegOk.ro
    | with_reducible exact RegOk.frozenCnt
    | with_reducible apply RegOk.rw
    | with_reducible apply RegOk.wo
    | with_reducible apply RegOk.onlyBit
    | with_reducible apply RegOk.outOfRange
    | with_reducible apply RegOk.lit
    | with_reducible apply RegOk.put

theorem fedReg_follows {a1} {a2}  :
    FollowsR z (fedReg s a1 a2) := by
  unfold fedReg
  try dsimp only
  repeat' first
    | with_reducible apply RegsOk.cons
    | (intro _)
    | fail_if_no_progress with_reducible refine Follows.put ?_ rfl
    | with_reducible assumption
    | with_reducible apply relayCtrlWrite_follows
    | with_reducible apply fedCtrlWrite_follows
    | with_reducible apply updFed_follows
    | with_reducible exact FollowsR.none
    | with_reducible apply FollowsR.some
    | with_reducible apply FollowsR.ite
    | with_reducible apply FollowsR.head
    | with_reducible apply FollowsR.strict
    | with_reducible apply FollowsR.map
    | with_reducible apply FollowsR.pick
    | with_reducible exact RegsOk.nil
    | with_reducible apply RegsOk.cons
    | with_reducible apply RegsOk.append
    | with_reducible apply RegsOk.map
    | with_reducible apply RegOk.ite
    | with_reducible apply RegOk.strict
    | with_reducible exact RegOk.ro
    | with_reducible exact RegOk.frozenCnt
    | with_reducible apply RegOk.rw
    | with_reducible apply RegOk.wo
    | with_reducible apply RegOk.onlyBit
    | with_reducible apply RegOk.outOfRange
    | with_reducible apply RegOk.lit
    | with_reducible apply RegOk.put
    | with_reducible apply Follows.ite
    | with_reducible apply Follows.fold
    | split

theorem auditReg_follows {a1} {a2}  :
    FollowsR z (auditReg s a1 a2) := by
  unfold auditReg
  try dsimp only
  repeat' first
    | with_reducible apply RegsOk.cons
    | (intro _)
    | fail_if_no_progress with_reducible refine Follows.put ?_ rfl
    | with_reducible assumption
    | with_reducible apply pregWrite_follows
    | with_reducible exact FollowsR.none
    | with_reducible apply FollowsR.some
    | with_reducible apply FollowsR.ite
    | with_reducible apply FollowsR.head
    | with_reducible apply FollowsR.strict
    | with_reducible apply FollowsR.map
    | with_reducible apply FollowsR.pick
    | with_reducible exact RegsOk.nil
    | with_reducible apply RegsOk.cons
    | with_reducible apply RegsOk.append
    | with_reducible apply RegsOk.map
    | with_reducible apply RegOk.ite
    | with_reducible apply RegOk.strict
    | with_reducible exact RegOk.ro
    | with_reducible exact RegOk.frozenCnt
    | with_reducible apply RegOk.rw
    | with_reducible apply RegOk.wo
    | with_reducible apply RegOk.onlyBit
    | with_reducible apply RegOk.outOfRange
    | with_reducible apply RegOk.lit
    | with_reducible apply RegOk.put
    | with_reducible apply Follows.ite
    | with_reducible apply Follows.fold
    | split

theorem faultReg_follows {a1} {a2}  :
    FollowsR z (faultReg s a1 a2) := by
  unfold faultReg
  try dsimp only
  repeat' first
    | with_reducible apply RegsOk.cons
    | (intro _)
    | fail_if_no_progress with_reducible refine Follows.put ?_ rfl
    | with_reducible assumption
    | with_reducible apply fenceWrite_follows
    | with_reducible apply releaseDomain_follows
    | with_reducible exact FollowsR.none
    | with_reducible apply FollowsR.some
    | with_reducible apply FollowsR.ite
    | with_reducible apply FollowsR.head
    | with_reducible apply FollowsR.strict
    | with_reducible apply FollowsR.map
    | with_reducible apply FollowsR.pick
    | with_reducible exact RegsOk.nil
    | with_reducible apply RegsOk.cons
    | with_reducible apply RegsOk.append
    | with_reducible apply RegsOk.map
    | with_reducible apply RegOk.ite
    | with_reducible apply RegOk.strict
    | with_reducible exact RegOk.ro
    | with_reducible exact RegOk.frozenCnt
    | with_reducible apply RegOk.rw
    | with_reducible apply RegOk.wo
    | with_reducible apply RegOk.onlyBit
    | with_reducible apply RegOk.outOfRange
    | with_reducible apply RegOk.lit
    | with_reducible apply RegOk.put

theorem qctlReg_follows {a1} {a2} {a3}  :
    FollowsR z (qctlReg s a1 a2 a3) := by
  unfold qctlReg
  try dsimp only
  repeat' first
    | with_reducible apply RegsOk.cons
    | (intro _)
    | fail_if_no_progress with_reducible refine Follows.put ?_ rfl
    | with_reducible assumption
    | with_reducible apply queueCtrlWrite_follows
    | with_reducible apply queueBaseWrite_follows
    | with_reducible apply doorbellWrite_follows
    | with_reducible apply State.updQueue_follows
    | with_reducible exact FollowsR.none
    | with_reducible apply FollowsR.some
    | with_reducible apply FollowsR.ite
    | with_reducible apply FollowsR.head
    | with_reducible apply FollowsR.strict
    | with_reducible apply FollowsR.map
    | with_reducible apply FollowsR.pick
    | with_reducible exact RegsOk.nil
    | with_reducible apply RegsOk.cons
    | with_reducible apply RegsOk.append
    | with_reducible apply RegsOk.map
    | with_reducible apply RegOk.ite
    | with_reducible apply RegOk.strict
    | with_reducible exact RegOk.ro
    | with_reducible exact RegOk.frozenCnt
    | with_reducible apply RegOk.rw
    | with_reducible apply RegOk.wo
    | with_reducible apply RegOk.onlyBit
    | with_reducible apply RegOk.outOfRange
    | with_reducible apply RegOk.lit
    | with_reducible apply RegOk.put
    | with_reducible apply Follows.ite

theorem bollReg_follows {a1} {a2} {a3}  :
    FollowsR z (bollReg s a1 a2 a3) := by
  unfold bollReg
  try dsimp only
  repeat' first
    | with_reducible apply RegsOk.cons
    | (intro _)
    | fail_if_no_progress with_reducible refine Follows.put ?_ rfl
    | with_reducible assumption
    | with_reducible exact FollowsR.none
    | with_reducible apply FollowsR.some
    | with_reducible apply FollowsR.ite
    | with_reducible apply FollowsR.head
    | with_reducible apply FollowsR.strict
    | with_reducible apply FollowsR.map
    | with_reducible apply FollowsR.pick
    | with_reducible exact RegsOk.nil
    | with_reducible apply RegsOk.cons
    | with_reducible apply RegsOk.append
    | with_reducible apply RegsOk.map
    | with_reducible apply RegOk.ite
    | with_reducible apply RegOk.strict
    | with_reducible exact RegOk.ro
    | with_reducible exact RegOk.frozenCnt
    | with_reducible apply RegOk.rw
    | with_reducible apply RegOk.wo
    | with_reducible apply RegOk.onlyBit
    | with_reducible apply RegOk.outOfRange
    | with_reducible apply RegOk.lit
    | with_reducible apply RegOk.put

theorem winReg_follows {a1} {a2} {a3}  :
    FollowsR z (winReg s a1 a2 a3) := by
  unfold winReg
  dsimp only
  repeat' first
    | with_reducible apply FollowsR.ite
    | with_reducible apply FollowsR.some
    | with_reducible apply FollowsR.head
    | with_reducible apply FollowsR.pick
  all_goals repeat' first
    | with_reducible apply RegsOk.cons
    | with_reducible exact RegsOk.nil
    | with_reducible apply RegOk.ite
    | with_reducible exact RegOk.ro
    | with_reducible exact RegOk.frozenCnt
    | with_reducible apply RegOk.rw
    | with_reducible apply RegOk.wo
    | with_reducible apply RegOk.onlyBit
    | with_reducible apply RegOk.outOfRange
    | with_reducible apply RegOk.lit
  all_goals repeat' first
    | (intro _)
    | with_reducible assumption
    | with_reducible apply RegOk.put
    | with_reducible apply RegOk.rw
    | with_reducible apply RegOk.ite
    | with_reducible apply RegOk.outOfRange
    | with_reducible exact RegsOk.nil
    | with_reducible apply RegsOk.cons
    | with_reducible apply replayEnable_follows
    | with_reducible apply allocDbWrite_follows
    | with_reducible apply queueCtrlWrite_follows
    | with_reducible apply queueBaseWrite_follows
    | with_reducible apply doorbellWrite_follows
    | with_reducible apply bankResetWrite_follows
    | with_reducible apply eoiWrite_follows
    | with_reducible apply evDb_follows
    | with_reducible apply headWrite_follows
    | with_reducible apply State.updWin_follows
    | split
    | with_reducible exact FollowsR.eq (by assumption) eqWord_follows

end Sys2Proof.Machine
end

