-- ==== Sys2Proof/Laws/FollowsRegs.lean ====
section
/-! SUPPORT. The operations of Machine/Regs.lean follow. -/

namespace Sys2Proof.Machine

variable {z s : State}

theorem State.regAt_follows {a1} {a2}  :
    FollowsR z (State.regAt s a1 a2) := by
  unfold State.regAt
  try dsimp only
  repeat' first
    | with_reducible apply RegsOk.cons
    | (intro _)
    | fail_if_no_progress with_reducible refine Follows.put ?_ rfl
    | with_reducible assumption
    | with_reducible apply winReg_follows
    | with_reducible apply bollReg_follows
    | with_reducible apply qctlReg_follows
    | with_reducible apply faultReg_follows
    | with_reducible apply auditReg_follows
    | with_reducible apply fedReg_follows
    | with_reducible apply keyReg_follows
    | with_reducible apply soundReg_follows
    | with_reducible apply bwaterReg_follows
    | with_reducible apply eventReg_follows
    | with_reducible apply redReg_follows
    | with_reducible apply quayReg_follows
    | with_reducible apply tideReg_follows
    | with_reducible apply licReg_follows
    | with_reducible apply mboxReg_follows
    | with_reducible apply identReg_follows
    | with_reducible exact FollowsR.none
    | with_reducible apply FollowsR.some
    | with_reducible apply FollowsR.ite

theorem regApply_follows {a3 : Reg} {a1} {a2} {a4} {a5} (h : Follows z s) (hr : RegOk z a3) :
    Follows z (regApply a1 a2 a3 a4 a5 s) := by
  unfold regApply
  try dsimp only
  repeat' first
    | (intro _)
    | fail_if_no_progress with_reducible refine Follows.put ?_ rfl
    | with_reducible assumption
    | with_reducible apply policyWrite_follows
    | with_reducible apply permFault_follows
    | with_reducible apply Follows.ite
    | with_reducible apply Follows.fold
    | with_reducible apply RegOk.put

theorem regWrite_follows {a1} {a2} {a3} {a4} (h : Follows z s) :
    Follows z (regWrite a1 a2 a3 a4 s) := by
  unfold regWrite
  try dsimp only
  repeat' first
    | (intro _)
    | fail_if_no_progress with_reducible refine Follows.put ?_ rfl
    | with_reducible assumption
    | with_reducible apply regApply_follows
    | with_reducible apply State.regAt_follows
    | with_reducible apply permFault_follows
    | with_reducible apply bump_follows
    | with_reducible apply Follows.ite
    | with_reducible apply Follows.fold
    | with_reducible apply RegOk.put
    | split
    | refine FollowsR.eq (by assumption) ?_

theorem regRead_follows {a1} {a2} {a3} (h : Follows z s) :
    FollowsP z (regRead a1 a2 a3 s) := by
  unfold regRead
  try dsimp only
  repeat' first
    | (intro _)
    | fail_if_no_progress with_reducible refine Follows.put ?_ rfl
    | with_reducible assumption
    | with_reducible apply State.regAt_follows
    | with_reducible apply permFault_follows
    | with_reducible apply bump_follows
    | with_reducible apply Follows.ite
    | with_reducible apply Follows.fold
    | with_reducible apply FollowsP.ite
    | with_reducible apply FollowsP.mk
    | split

theorem registerRead_follows {a1} (h : Follows z s) :
    Follows z (registerRead a1 s) := by
  unfold registerRead
  try dsimp only
  repeat' first
    | (intro _)
    | fail_if_no_progress with_reducible refine Follows.put ?_ rfl
    | with_reducible assumption
    | with_reducible apply regRead_follows
    | with_reducible apply emit_follows
    | with_reducible apply Follows.ite
    | with_reducible apply Follows.fold
    | with_reducible apply FollowsP.ite
    | with_reducible apply FollowsP.mk
    | with_reducible refine FollowsP.snd (regRead_follows ?_)

end Sys2Proof.Machine
end

