-- ==== Sys2Proof/Laws/FollowsTick.lean ====
section
/-! SUPPORT. The operations of Machine/Tick.lean follow. -/

namespace Sys2Proof.Machine

variable {z s : State}

theorem tickEngine_follows {a1} (h : Follows z s) :
    Follows z (tickEngine a1 s) := by
  unfold tickEngine
  try dsimp only
  repeat' first
    | (intro _)
    | fail_if_no_progress with_reducible refine Follows.put ?_ rfl
    | with_reducible assumption
    | with_reducible apply bumpBy_follows
    | with_reducible apply Follows.ite

theorem tick_follows (h : Follows z s) :
    Follows z (tick s) := by
  unfold tick
  have h1 : Follows z { s with time := { s.time with ns := s.time.ns + 5, tick := s.time.tick + 1 } } :=
    { h with time := Nat.le_trans h.time (Nat.le_add_right _ _) }
  dsimp only
  with_reducible apply Follows.ite h
  with_reducible apply settle_follows
  with_reducible apply Follows.fold
  · intro s n hs
    exact tickEngine_follows hs
  repeat' first
    | with_reducible apply Follows.ite
    | with_reducible apply bumpBy_follows
    | exact h1

end Sys2Proof.Machine
end

