-- ==== Sys2Proof/Laws/FollowsExec.lean ====
section
/-! SUPPORT. Every command but the release from reset and the removal of power follows. -/

namespace Sys2Proof.Machine

variable {z s : State}

/-- Where a command goes on, its state follows. -/
structure OutFollows (z : State) (o : Out) : Prop where
  of : ∀ t, o = .next t → Follows z t

theorem OutFollows.next {t : State} (h : Follows z t) : OutFollows z (.next t) :=
  ⟨fun _ e => by injection e with e; exact e ▸ h⟩
theorem OutFollows.fault {r : Fault} : OutFollows z (.fault r) := ⟨fun _ e => nomatch e⟩
theorem OutFollows.ite {c : Prop} [Decidable c] {a b : Out} (ha : OutFollows z a) (hb : OutFollows z b) :
    OutFollows z (if c then a else b) := by split <;> assumption

theorem live_out {f : State → State} (h : Follows z s) (hf : ∀ u, Follows z u → Follows z (f u)) :
    OutFollows z (live f s) := .next (.ite (hf s h) h)

theorem run_out {f : State → State} (h : Follows z s) (hf : ∀ u, Follows z u → Follows z (f u)) :
    OutFollows z (run f s) := live_out h fun u hu => settle_follows (hf u hu)

theorem insRow_out {op q k : Nat} {f : Nat → Nat → Nat → State → State} (h : Follows z s)
    (hf : ∀ w u, Follows z u → Follows z (f q k w u)) : OutFollows z (insRow op q k f s) :=
  run_out h fun _ hu => issue_follows hu hf

theorem execDataPathIslandRelease_follows {a1} (h : Follows z s) : OutFollows z (execDataPathIslandRelease a1 s) := by
  unfold execDataPathIslandRelease
  repeat' first
    | (intro _)
    | with_reducible assumption
    | with_reducible apply live_out
    | with_reducible apply dataPathIslandRelease_follows

theorem execPrityStartupDone_follows {a1} (h : Follows z s) : OutFollows z (execPrityStartupDone a1 s) := by
  unfold execPrityStartupDone
  repeat' first
    | (intro _)
    | with_reducible assumption
    | with_reducible apply live_out
    | with_reducible apply prityStartupDone_follows

theorem execIslandPowerRemoval_follows {a1} (h : Follows z s) : OutFollows z (execIslandPowerRemoval a1 s) := by
  unfold execIslandPowerRemoval
  repeat' first
    | (intro _)
    | with_reducible assumption
    | with_reducible apply OutFollows.ite
    | with_reducible apply OutFollows.next
    | with_reducible exact OutFollows.fault
    | with_reducible apply settle_follows
    | with_reducible apply islandPowerRemoval_follows

theorem execPrityRestart_follows {a1} (h : Follows z s) : OutFollows z (execPrityRestart a1 s) := by
  unfold execPrityRestart
  repeat' first
    | (intro _)
    | with_reducible assumption
    | with_reducible apply live_out
    | with_reducible apply prityRestart_follows

theorem execUpstreamRequest_follows {a1} {a2} {a3} (h : Follows z s) : OutFollows z (execUpstreamRequest a1 a2 a3 s) := by
  unfold execUpstreamRequest
  repeat' first
    | (intro _)
    | with_reducible assumption
    | with_reducible apply run_out
    | with_reducible apply upstreamRequest_follows

theorem execRequestWithdrawal_follows {a1} {a2} {a3} (h : Follows z s) : OutFollows z (execRequestWithdrawal a1 a2 a3 s) := by
  unfold execRequestWithdrawal
  repeat' first
    | (intro _)
    | with_reducible assumption
    | with_reducible apply run_out
    | with_reducible apply requestWithdrawal_follows

theorem execWriteDataBeat_follows {a1} {a2} {a3} {a4} (h : Follows z s) : OutFollows z (execWriteDataBeat a1 a2 a3 a4 s) := by
  unfold execWriteDataBeat
  repeat' first
    | (intro _)
    | with_reducible assumption
    | with_reducible apply run_out
    | with_reducible apply writeDataBeat_follows

theorem execChainHandoff_follows {a1} {a2} (h : Follows z s) : OutFollows z (execChainHandoff a1 a2 s) := by
  unfold execChainHandoff
  repeat' first
    | (intro _)
    | with_reducible assumption
    | with_reducible apply run_out
    | with_reducible apply chainHandoff_follows

theorem execDownstreamIssue_follows {a1} {a2} {a3} (h : Follows z s) : OutFollows z (execDownstreamIssue a1 a2 a3 s) := by
  unfold execDownstreamIssue
  repeat' first
    | (intro _)
    | with_reducible assumption
    | with_reducible apply run_out
    | with_reducible apply downstreamIssue_follows

theorem execDownstreamReadResponse_follows {a1} {a2} {a3} {a4} {a5} (h : Follows z s) : OutFollows z (execDownstreamReadResponse a1 a2 a3 a4 a5 s) := by
  unfold execDownstreamReadResponse
  repeat' first
    | (intro _)
    | with_reducible assumption
    | with_reducible apply run_out
    | with_reducible apply readResponse_follows

theorem execDownstreamWriteComplete_follows {a1} {a2} {a3} (h : Follows z s) : OutFollows z (execDownstreamWriteComplete a1 a2 a3 s) := by
  unfold execDownstreamWriteComplete
  repeat' first
    | (intro _)
    | with_reducible assumption
    | with_reducible apply run_out
    | with_reducible apply writeComplete_follows

theorem execLichenInit_follows {a1} {a2} (h : Follows z s) : OutFollows z (execLichenInit a1 a2 s) := by
  unfold execLichenInit
  repeat' first
    | (intro _)
    | with_reducible assumption
    | with_reducible apply run_out
    | with_reducible apply licCtrl_follows
    | with_reducible apply licInit_follows

theorem execLichenFlush_follows {a1} {a2} (h : Follows z s) : OutFollows z (execLichenFlush a1 a2 s) := by
  unfold execLichenFlush
  repeat' first
    | (intro _)
    | with_reducible assumption
    | with_reducible apply run_out
    | with_reducible apply licCtrl_follows
    | with_reducible apply licFlush_follows

theorem execFrzStateWrite_follows {a1} {a2} (h : Follows z s) : OutFollows z (execFrzStateWrite a1 a2 s) := by
  unfold execFrzStateWrite
  repeat' first
    | (intro _)
    | with_reducible assumption
    | with_reducible apply run_out
    | with_reducible apply frzWrite_follows
    | with_reducible apply Follows.ite
    | with_reducible refine FollowsP.snd (frzWrite_follows ?_)

theorem execRekeyStart_follows (h : Follows z s) : OutFollows z (execRekeyStart s) := by
  unfold execRekeyStart
  repeat' first
    | (intro _)
    | with_reducible assumption
    | with_reducible apply run_out
    | with_reducible apply rekeyCmd_follows

theorem execTideJobStart_follows {a1} (h : Follows z s) : OutFollows z (execTideJobStart a1 s) := by
  unfold execTideJobStart
  repeat' first
    | (intro _)
    | with_reducible assumption
    | with_reducible apply run_out
    | with_reducible apply tideJobStart_follows

theorem execTidePaceWindow_follows {a1} (h : Follows z s) : OutFollows z (execTidePaceWindow a1 s) := by
  unfold execTidePaceWindow
  repeat' first
    | (intro _)
    | with_reducible assumption
    | with_reducible apply live_out
    | with_reducible apply tidePaceWindow_follows

theorem execTideTurn_follows {a1} (h : Follows z s) : OutFollows z (execTideTurn a1 s) := by
  unfold execTideTurn
  repeat' first
    | (intro _)
    | with_reducible assumption
    | with_reducible apply run_out
    | with_reducible apply tideTurn_follows

theorem execFlitPacket_follows {a1} {a2} (h : Follows z s) : OutFollows z (execFlitPacket a1 a2 s) := by
  unfold execFlitPacket
  repeat' first
    | (intro _)
    | with_reducible assumption
    | with_reducible apply run_out
    | with_reducible apply flitPacket_follows

theorem execFrameStart_follows {a1} (h : Follows z s) : OutFollows z (execFrameStart a1 s) := by
  unfold execFrameStart
  repeat' first
    | (intro _)
    | with_reducible assumption
    | with_reducible apply run_out
    | with_reducible apply frameStart_follows

theorem execReceivedFrame_follows {a1} {a2} {a3} {a4} (h : Follows z s) : OutFollows z (execReceivedFrame a1 a2 a3 a4 s) := by
  unfold execReceivedFrame
  repeat' first
    | (intro _)
    | with_reducible assumption
    | with_reducible apply run_out
    | with_reducible apply receiveFrame_follows

theorem execReleaseFrame_follows {a1} (h : Follows z s) : OutFollows z (execReleaseFrame a1 s) := by
  unfold execReleaseFrame
  repeat' first
    | (intro _)
    | with_reducible assumption
    | with_reducible apply run_out
    | with_reducible apply releaseFrame_follows
    | with_reducible apply fedFrame_follows

theorem execAckDelayExpiry_follows {a1} (h : Follows z s) : OutFollows z (execAckDelayExpiry a1 s) := by
  unfold execAckDelayExpiry
  repeat' first
    | (intro _)
    | with_reducible assumption
    | with_reducible apply run_out
    | with_reducible apply ackDelay_follows

theorem execRetransmission_follows {a1} {a2} (h : Follows z s) : OutFollows z (execRetransmission a1 a2 s) := by
  unfold execRetransmission
  repeat' first
    | (intro _)
    | with_reducible assumption
    | with_reducible apply run_out
    | with_reducible apply retransmit_follows

theorem execRetransmissionLimit_follows {a1} {a2} (h : Follows z s) : OutFollows z (execRetransmissionLimit a1 a2 s) := by
  unfold execRetransmissionLimit
  repeat' first
    | (intro _)
    | with_reducible assumption
    | with_reducible apply run_out
    | with_reducible apply retxLimit_follows

theorem execGenerationMove_follows {a1} (h : Follows z s) : OutFollows z (execGenerationMove a1 s) := by
  unfold execGenerationMove
  repeat' first
    | (intro _)
    | with_reducible assumption
    | with_reducible apply run_out
    | with_reducible apply txMove_follows
    | with_reducible apply Follows.ite
    | with_reducible refine FollowsP.snd (txMove_follows ?_)

theorem execRxKeyDerived_follows {a1} (h : Follows z s) : OutFollows z (execRxKeyDerived a1 s) := by
  unfold execRxKeyDerived
  repeat' first
    | (intro _)
    | with_reducible assumption
    | with_reducible apply run_out
    | with_reducible apply rxDerived_follows

theorem execLinkDown_follows {a1} (h : Follows z s) : OutFollows z (execLinkDown a1 s) := by
  unfold execLinkDown
  repeat' first
    | (intro _)
    | with_reducible assumption
    | with_reducible apply run_out
    | with_reducible apply linkFalls_follows

theorem execMigrationMoveComplete_follows {a1} (h : Follows z s) : OutFollows z (execMigrationMoveComplete a1 s) := by
  unfold execMigrationMoveComplete
  repeat' first
    | (intro _)
    | with_reducible assumption
    | with_reducible apply run_out
    | with_reducible apply moveComplete_follows

theorem execProbeRepeat_follows {a1} (h : Follows z s) : OutFollows z (execProbeRepeat a1 s) := by
  unfold execProbeRepeat
  repeat' first
    | (intro _)
    | with_reducible assumption
    | with_reducible apply run_out
    | with_reducible apply probeRepeat_follows

theorem execGwFlushTime_follows {a1} {a2} (h : Follows z s) : OutFollows z (execGwFlushTime a1 a2 s) := by
  unfold execGwFlushTime
  repeat' first
    | (intro _)
    | with_reducible assumption
    | with_reducible apply run_out
    | with_reducible apply gwTime_follows

theorem execQuayCtrlWrite_follows {a1} {a2} {a3} (h : Follows z s) : OutFollows z (execQuayCtrlWrite a1 a2 a3 s) := by
  unfold execQuayCtrlWrite
  repeat' first
    | (intro _)
    | with_reducible assumption
    | with_reducible apply run_out
    | with_reducible apply quayCtrl_follows

theorem execSessionOpen_follows (h : Follows z s) : OutFollows z (execSessionOpen s) := by
  unfold execSessionOpen
  repeat' first
    | (intro _)
    | with_reducible assumption
    | with_reducible apply run_out
    | with_reducible apply sessionOpen_follows

theorem execSessionClose_follows (h : Follows z s) : OutFollows z (execSessionClose s) := by
  unfold execSessionClose
  repeat' first
    | (intro _)
    | with_reducible assumption
    | with_reducible apply run_out
    | with_reducible apply sessionClose_follows

theorem execSessionMigrate_follows (h : Follows z s) : OutFollows z (execSessionMigrate s) := by
  unfold execSessionMigrate
  repeat' first
    | (intro _)
    | with_reducible assumption
    | with_reducible apply run_out
    | with_reducible apply sessionMigrate_follows

theorem execSessionRotate_follows (h : Follows z s) : OutFollows z (execSessionRotate s) := by
  unfold execSessionRotate
  repeat' first
    | (intro _)
    | with_reducible assumption
    | with_reducible apply run_out
    | with_reducible apply sessionRotate_follows

theorem execOperandArrival_follows {a1} {a2} (h : Follows z s) : OutFollows z (execOperandArrival a1 a2 s) := by
  unfold execOperandArrival
  repeat' first
    | (intro _)
    | with_reducible assumption
    | with_reducible apply run_out
    | with_reducible apply operandArrives_follows

theorem execChunkStoreDone_follows {a1} {a2} (h : Follows z s) : OutFollows z (execChunkStoreDone a1 a2 s) := by
  unfold execChunkStoreDone
  repeat' first
    | (intro _)
    | with_reducible assumption
    | with_reducible apply run_out
    | with_reducible apply chunkStored_follows

theorem execSqDoorbell_follows {a1} {a2} {a3} (h : Follows z s) : OutFollows z (execSqDoorbell a1 a2 a3 s) := by
  unfold execSqDoorbell
  repeat' first
    | (intro _)
    | with_reducible assumption
    | with_reducible apply run_out
    | with_reducible apply sqDoorbell_follows

theorem execRingFetch_follows {a1} (h : Follows z s) : OutFollows z (execRingFetch a1 s) := by
  unfold execRingFetch
  repeat' first
    | (intro _)
    | with_reducible assumption
    | with_reducible apply run_out
    | with_reducible apply ringFetch_follows

theorem execQueueEnable_follows {a1} {a2} {a3} (h : Follows z s) : OutFollows z (execQueueEnable a1 a2 a3 s) := by
  unfold execQueueEnable
  repeat' first
    | (intro _)
    | with_reducible assumption
    | with_reducible apply run_out
    | with_reducible apply queueEnable_follows

theorem execNop_follows {a1} (h : Follows z s) : OutFollows z (execNop a1 s) := by
  unfold execNop
  repeat' first
    | (intro _)
    | with_reducible assumption
    | with_reducible apply run_out
    | with_reducible apply qStart_follows
    | with_reducible apply finishOp_follows

theorem execObjRegisterMemory_follows {a1} (h : Follows z s) : OutFollows z (execObjRegisterMemory a1 s) := by
  unfold execObjRegisterMemory
  repeat' first
    | (intro _)
    | with_reducible assumption
    | with_reducible apply run_out
    | with_reducible apply qStart_follows
    | with_reducible apply registerMemory_follows

theorem execObjRegisterBollard_follows {a1} (h : Follows z s) : OutFollows z (execObjRegisterBollard a1 s) := by
  unfold execObjRegisterBollard
  repeat' first
    | (intro _)
    | with_reducible assumption
    | with_reducible apply run_out
    | with_reducible apply qStart_follows
    | with_reducible apply registerBollard_follows

theorem execObjFree_follows {a1} (h : Follows z s) : OutFollows z (execObjFree a1 s) := by
  unfold execObjFree
  repeat' first
    | (intro _)
    | with_reducible assumption
    | with_reducible apply run_out
    | with_reducible apply qStart_follows
    | with_reducible apply freeGo_follows

theorem execObjectReferencesZero_follows {a1} (h : Follows z s) : OutFollows z (execObjectReferencesZero a1 s) := by
  unfold execObjectReferencesZero
  repeat' first
    | (intro _)
    | with_reducible assumption
    | with_reducible apply run_out
    | with_reducible apply objZero_follows

theorem execCopy_follows {a1} (h : Follows z s) : OutFollows z (execCopy a1 s) := by
  unfold execCopy
  repeat' first
    | (intro _)
    | with_reducible assumption
    | with_reducible apply run_out
    | with_reducible apply qStart_follows
    | with_reducible apply copyGo_follows

theorem execProgramLaunch_follows {a1} (h : Follows z s) : OutFollows z (execProgramLaunch a1 s) := by
  unfold execProgramLaunch
  repeat' first
    | (intro _)
    | with_reducible assumption
    | with_reducible apply run_out
    | with_reducible apply qStart_follows
    | with_reducible apply launchGo_follows

theorem execBollardSignalAdd_follows {a1} (h : Follows z s) : OutFollows z (execBollardSignalAdd a1 s) := by
  unfold execBollardSignalAdd
  repeat' first
    | (intro _)
    | with_reducible assumption
    | with_reducible apply run_out
    | with_reducible apply qStart_follows
    | with_reducible apply signalGo_follows

theorem execBollardSignalReset_follows {a1} (h : Follows z s) : OutFollows z (execBollardSignalReset a1 s) := by
  unfold execBollardSignalReset
  repeat' first
    | (intro _)
    | with_reducible assumption
    | with_reducible apply run_out
    | with_reducible apply qStart_follows
    | with_reducible apply signalGo_follows

theorem execBollardWait_follows {a1} (h : Follows z s) : OutFollows z (execBollardWait a1 s) := by
  unfold execBollardWait
  repeat' first
    | (intro _)
    | with_reducible assumption
    | with_reducible apply run_out
    | with_reducible apply qStart_follows
    | with_reducible apply waitGo_follows

theorem execAlloc_follows {a1} (h : Follows z s) : OutFollows z (execAlloc a1 s) := by
  unfold execAlloc
  repeat' first
    | (intro _)
    | with_reducible assumption
    | with_reducible apply run_out
    | with_reducible apply qStart_follows
    | with_reducible apply allocGo_follows

theorem execFree_follows {a1} (h : Follows z s) : OutFollows z (execFree a1 s) := by
  unfold execFree
  repeat' first
    | (intro _)
    | with_reducible assumption
    | with_reducible apply run_out
    | with_reducible apply qStart_follows
    | with_reducible apply freeGo_follows

theorem execSealLoad_follows {a1} (h : Follows z s) : OutFollows z (execSealLoad a1 s) := by
  unfold execSealLoad
  repeat' first
    | (intro _)
    | with_reducible assumption
    | with_reducible apply run_out
    | with_reducible apply qStart_follows
    | with_reducible apply sealGo_follows

theorem execSealAbort_follows {a1} (h : Follows z s) : OutFollows z (execSealAbort a1 s) := by
  unfold execSealAbort
  repeat' first
    | (intro _)
    | with_reducible assumption
    | with_reducible apply run_out
    | with_reducible apply qStart_follows
    | with_reducible apply sealAbortGo_follows

theorem execRegionRelease_follows {a1} (h : Follows z s) : OutFollows z (execRegionRelease a1 s) := by
  unfold execRegionRelease
  repeat' first
    | (intro _)
    | with_reducible assumption
    | with_reducible apply run_out
    | with_reducible apply qStart_follows
    | with_reducible apply regionReleaseGo_follows

theorem execKeyUnwrap_follows {a1} (h : Follows z s) : OutFollows z (execKeyUnwrap a1 s) := by
  unfold execKeyUnwrap
  repeat' first
    | (intro _)
    | with_reducible assumption
    | with_reducible apply run_out
    | with_reducible apply qStart_follows
    | with_reducible apply unwrapGo_follows

theorem execQueryContext_follows {a1} (h : Follows z s) : OutFollows z (execQueryContext a1 s) := by
  unfold execQueryContext
  repeat' first
    | (intro _)
    | with_reducible assumption
    | with_reducible apply run_out
    | with_reducible apply qStart_follows
    | with_reducible apply queryGo_follows

theorem execContextRetire_follows {a1} (h : Follows z s) : OutFollows z (execContextRetire a1 s) := by
  unfold execContextRetire
  repeat' first
    | (intro _)
    | with_reducible assumption
    | with_reducible apply run_out
    | with_reducible apply qStart_follows
    | with_reducible apply retireGo_follows

theorem execAllocDbAlloc_follows {a1} {a2} (h : Follows z s) : OutFollows z (execAllocDbAlloc a1 a2 s) := by
  unfold execAllocDbAlloc
  repeat' first
    | (intro _)
    | with_reducible assumption
    | with_reducible apply run_out
    | with_reducible apply allocDb_follows
    | with_reducible apply Follows.ite

theorem execAllocDbFree_follows {a1} {a2} (h : Follows z s) : OutFollows z (execAllocDbFree a1 a2 s) := by
  unfold execAllocDbFree
  repeat' first
    | (intro _)
    | with_reducible assumption
    | with_reducible apply run_out
    | with_reducible apply allocDb_follows
    | with_reducible apply Follows.ite

theorem execQuoteInstance_follows (h : Follows z s) : OutFollows z (execQuoteInstance s) := by
  unfold execQuoteInstance
  repeat' first
    | (intro _)
    | with_reducible assumption
    | with_reducible apply live_out
    | with_reducible apply quote_follows

theorem execQuotePackage_follows (h : Follows z s) : OutFollows z (execQuotePackage s) := by
  unfold execQuotePackage
  repeat' first
    | (intro _)
    | with_reducible assumption
    | with_reducible apply live_out
    | with_reducible apply quote_follows

theorem execFwBegin_follows (h : Follows z s) : OutFollows z (execFwBegin s) := by
  unfold execFwBegin
  repeat' first
    | (intro _)
    | with_reducible assumption
    | with_reducible apply live_out
    | with_reducible apply fwBegin_follows

theorem execFwData_follows (h : Follows z s) : OutFollows z (execFwData s) := by
  unfold execFwData
  repeat' first
    | (intro _)
    | with_reducible assumption
    | with_reducible apply live_out
    | with_reducible apply fwData_follows

theorem execFwVerify_follows (h : Follows z s) : OutFollows z (execFwVerify s) := by
  unfold execFwVerify
  repeat' first
    | (intro _)
    | with_reducible assumption
    | with_reducible apply live_out
    | with_reducible apply fwVerify_follows

theorem execFwActivate_follows (h : Follows z s) : OutFollows z (execFwActivate s) := by
  unfold execFwActivate
  repeat' first
    | (intro _)
    | with_reducible assumption
    | with_reducible apply live_out
    | with_reducible apply fwActivate_follows

theorem execFwCommit_follows (h : Follows z s) : OutFollows z (execFwCommit s) := by
  unfold execFwCommit
  repeat' first
    | (intro _)
    | with_reducible assumption
    | with_reducible apply live_out
    | with_reducible apply fwCommit_follows

theorem execFwRevert_follows (h : Follows z s) : OutFollows z (execFwRevert s) := by
  unfold execFwRevert
  repeat' first
    | (intro _)
    | with_reducible assumption
    | with_reducible apply live_out
    | with_reducible apply fwRevert_follows

theorem execFwAbort_follows (h : Follows z s) : OutFollows z (execFwAbort s) := by
  unfold execFwAbort
  repeat' first
    | (intro _)
    | with_reducible assumption
    | with_reducible apply live_out
    | with_reducible apply fwAbort_follows

theorem execImageReady_follows (h : Follows z s) : OutFollows z (execImageReady s) := by
  unfold execImageReady
  repeat' first
    | (intro _)
    | with_reducible assumption
    | with_reducible apply live_out
    | with_reducible apply imageReady_follows

theorem execActivateTimeout_follows (h : Follows z s) : OutFollows z (execActivateTimeout s) := by
  unfold execActivateTimeout
  repeat' first
    | (intro _)
    | with_reducible assumption
    | with_reducible apply live_out
    | with_reducible apply activateTimeout_follows

theorem execTenantAdmit_follows (h : Follows z s) : OutFollows z (execTenantAdmit s) := by
  unfold execTenantAdmit
  repeat' first
    | (intro _)
    | with_reducible assumption
    | with_reducible apply run_out
    | with_reducible apply tenantAdmit_follows

theorem execTenantRemove_follows (h : Follows z s) : OutFollows z (execTenantRemove s) := by
  unfold execTenantRemove
  repeat' first
    | (intro _)
    | with_reducible assumption
    | with_reducible apply run_out
    | with_reducible apply tenantRemove_follows

theorem execDomainChangeCipher_follows (h : Follows z s) : OutFollows z (execDomainChangeCipher s) := by
  unfold execDomainChangeCipher
  repeat' first
    | (intro _)
    | with_reducible assumption
    | with_reducible apply run_out
    | with_reducible apply domainChange_follows

theorem execDomainChangeDebug_follows (h : Follows z s) : OutFollows z (execDomainChangeDebug s) := by
  unfold execDomainChangeDebug
  repeat' first
    | (intro _)
    | with_reducible assumption
    | with_reducible apply run_out
    | with_reducible apply domainChange_follows

theorem execDomainChangeBwater_follows (h : Follows z s) : OutFollows z (execDomainChangeBwater s) := by
  unfold execDomainChangeBwater
  repeat' first
    | (intro _)
    | with_reducible assumption
    | with_reducible apply run_out
    | with_reducible apply domainChange_follows

theorem execDomainChangeInj_follows (h : Follows z s) : OutFollows z (execDomainChangeInj s) := by
  unfold execDomainChangeInj
  repeat' first
    | (intro _)
    | with_reducible assumption
    | with_reducible apply run_out
    | with_reducible apply domainChange_follows

theorem execBistRun_follows (h : Follows z s) : OutFollows z (execBistRun s) := by
  unfold execBistRun
  repeat' first
    | (intro _)
    | with_reducible assumption
    | with_reducible apply live_out
    | with_reducible apply bistRun_follows

theorem execBistComplete_follows {a1} {a2} (h : Follows z s) : OutFollows z (execBistComplete a1 a2 s) := by
  unfold execBistComplete
  repeat' first
    | (intro _)
    | with_reducible assumption
    | with_reducible apply live_out
    | with_reducible apply bistComplete_follows

theorem execLcTransition_follows (h : Follows z s) : OutFollows z (execLcTransition s) := by
  unfold execLcTransition
  repeat' first
    | (intro _)
    | with_reducible assumption
    | with_reducible apply live_out
    | with_reducible apply lcTransition_follows

theorem execEraseUserSecrets_follows (h : Follows z s) : OutFollows z (execEraseUserSecrets s) := by
  unfold execEraseUserSecrets
  repeat' first
    | (intro _)
    | with_reducible assumption
    | with_reducible apply live_out
    | with_reducible apply eraseUserSecrets_follows

theorem execGen_follows {a1} (h : Follows z s) : OutFollows z (execGen a1 s) := by
  unfold execGen
  repeat' first
    | (intro _)
    | with_reducible assumption
    | with_reducible apply live_out
    | with_reducible apply berthCmd_follows

theorem execDerive_follows {a1} (h : Follows z s) : OutFollows z (execDerive a1 s) := by
  unfold execDerive
  repeat' first
    | (intro _)
    | with_reducible assumption
    | with_reducible apply live_out
    | with_reducible apply berthCmd_follows

theorem execZeroise_follows {a1} (h : Follows z s) : OutFollows z (execZeroise a1 s) := by
  unfold execZeroise
  repeat' first
    | (intro _)
    | with_reducible assumption
    | with_reducible apply run_out
    | with_reducible apply berthCmd_follows

theorem execSetState_follows {a1} (h : Follows z s) : OutFollows z (execSetState a1 s) := by
  unfold execSetState
  repeat' first
    | (intro _)
    | with_reducible assumption
    | with_reducible apply run_out
    | with_reducible apply berthCmd_follows

theorem execSetMasters_follows {a1} (h : Follows z s) : OutFollows z (execSetMasters a1 s) := by
  unfold execSetMasters
  repeat' first
    | (intro _)
    | with_reducible assumption
    | with_reducible apply live_out
    | with_reducible apply berthCmd_follows

theorem execUnwrap_follows {a1} (h : Follows z s) : OutFollows z (execUnwrap a1 s) := by
  unfold execUnwrap
  repeat' first
    | (intro _)
    | with_reducible assumption
    | with_reducible apply live_out
    | with_reducible apply berthCmd_follows

theorem execKmapWrite_follows {a1} (h : Follows z s) : OutFollows z (execKmapWrite a1 s) := by
  unfold execKmapWrite
  repeat' first
    | (intro _)
    | with_reducible assumption
    | with_reducible apply live_out
    | with_reducible apply kmapWrite_follows

theorem execEntropySample_follows {a1} (h : Follows z s) : OutFollows z (execEntropySample a1 s) := by
  unfold execEntropySample
  repeat' first
    | (intro _)
    | with_reducible assumption
    | with_reducible apply live_out
    | with_reducible apply entropySample_follows
    | with_reducible apply Follows.ite

theorem execEntropyRetryExpiry_follows (h : Follows z s) : OutFollows z (execEntropyRetryExpiry s) := by
  unfold execEntropyRetryExpiry
  repeat' first
    | (intro _)
    | with_reducible assumption
    | with_reducible apply live_out
    | with_reducible apply Follows.ite
    | fail_if_no_progress with_reducible refine Follows.put ?_ rfl

theorem execNvResponse_follows {a1} {a2} (h : Follows z s) : OutFollows z (execNvResponse a1 a2 s) := by
  unfold execNvResponse
  repeat' first
    | (intro _)
    | with_reducible assumption
    | with_reducible apply live_out
    | with_reducible apply nvResponse_follows

theorem execOtpResponse_follows {a1} (h : Follows z s) : OutFollows z (execOtpResponse a1 s) := by
  unfold execOtpResponse
  repeat' first
    | (intro _)
    | with_reducible assumption
    | with_reducible apply run_out
    | with_reducible apply otpResponse_follows

theorem execDoeObject_follows {a1} {a2} (h : Follows z s) : OutFollows z (execDoeObject a1 a2 s) := by
  unfold execDoeObject
  repeat' first
    | (intro _)
    | with_reducible assumption
    | with_reducible apply live_out
    | with_reducible apply doeObject_follows

theorem execEvErr_follows {a1} (h : Follows z s) : OutFollows z (execEvErr a1 s) := by
  unfold execEvErr
  repeat' first
    | (intro _)
    | with_reducible assumption
    | with_reducible apply live_out
    | with_reducible apply bump_follows

theorem execIdekAck_follows {a1} (h : Follows z s) : OutFollows z (execIdekAck a1 s) := by
  unfold execIdekAck
  repeat' first
    | (intro _)
    | with_reducible assumption
    | with_reducible apply live_out
    | with_reducible apply idekAck_follows

theorem execD2dMessage_follows {a1} {a2} (h : Follows z s) : OutFollows z (execD2dMessage a1 a2 s) := by
  unfold execD2dMessage
  repeat' first
    | (intro _)
    | with_reducible assumption
    | with_reducible apply run_out
    | with_reducible apply d2dMessage_follows

theorem execGtrig_follows (h : Follows z s) : OutFollows z (execGtrig s) := by
  unfold execGtrig
  repeat' first
    | (intro _)
    | with_reducible assumption
    | with_reducible apply live_out
    | with_reducible apply gtrig_follows

theorem execFreezeAt_follows (h : Follows z s) : OutFollows z (execFreezeAt s) := by
  unfold execFreezeAt
  repeat' first
    | (intro _)
    | with_reducible assumption
    | with_reducible apply live_out
    | with_reducible apply freezeAt_follows

theorem execDftScanReq_follows (h : Follows z s) : OutFollows z (execDftScanReq s) := by
  unfold execDftScanReq
  repeat' first
    | (intro _)
    | with_reducible assumption
    | with_reducible apply live_out
    | with_reducible apply dftScanReq_follows

theorem execDftBistStart_follows {a1} (h : Follows z s) : OutFollows z (execDftBistStart a1 s) := by
  unfold execDftBistStart
  repeat' first
    | (intro _)
    | with_reducible assumption
    | with_reducible apply live_out
    | with_reducible apply dftBistStart_follows

theorem execGetVersion_follows {a1} (h : Follows z s) : OutFollows z (execGetVersion a1 s) := by
  unfold execGetVersion
  repeat' first
    | (intro _)
    | with_reducible assumption
    | with_reducible apply live_out
    | with_reducible apply getVersion_follows

theorem execGetCapabilities_follows {a1} (h : Follows z s) : OutFollows z (execGetCapabilities a1 s) := by
  unfold execGetCapabilities
  repeat' first
    | (intro _)
    | with_reducible assumption
    | with_reducible apply live_out
    | with_reducible apply getCapabilities_follows

theorem execNegotiateAlgorithms_follows {a1} (h : Follows z s) : OutFollows z (execNegotiateAlgorithms a1 s) := by
  unfold execNegotiateAlgorithms
  repeat' first
    | (intro _)
    | with_reducible assumption
    | with_reducible apply live_out
    | with_reducible apply negotiateAlgorithms_follows

theorem execGetDigests_follows {a1} (h : Follows z s) : OutFollows z (execGetDigests a1 s) := by
  unfold execGetDigests
  repeat' first
    | (intro _)
    | with_reducible assumption
    | with_reducible apply live_out
    | with_reducible apply getDigests_follows

theorem execGetCertificate_follows {a1} {a2} {a3} {a4} (h : Follows z s) : OutFollows z (execGetCertificate a1 a2 a3 a4 s) := by
  unfold execGetCertificate
  repeat' first
    | (intro _)
    | with_reducible assumption
    | with_reducible apply live_out
    | with_reducible apply getCertificate_follows

theorem execChallenge_follows {a1} {a2} {a3} (h : Follows z s) : OutFollows z (execChallenge a1 a2 a3 s) := by
  unfold execChallenge
  repeat' first
    | (intro _)
    | with_reducible assumption
    | with_reducible apply live_out
    | with_reducible apply challenge_follows

theorem execGetMeasurements_follows {a1} {a2} {a3} (h : Follows z s) : OutFollows z (execGetMeasurements a1 a2 a3 s) := by
  unfold execGetMeasurements
  repeat' first
    | (intro _)
    | with_reducible assumption
    | with_reducible apply live_out
    | with_reducible apply getMeasurements_follows

theorem execKeyExchange_follows {a1} {a2} (h : Follows z s) : OutFollows z (execKeyExchange a1 a2 s) := by
  unfold execKeyExchange
  repeat' first
    | (intro _)
    | with_reducible assumption
    | with_reducible apply live_out
    | with_reducible apply keyExchange_follows

theorem execFinish_follows {a1} {a2} (h : Follows z s) : OutFollows z (execFinish a1 a2 s) := by
  unfold execFinish
  repeat' first
    | (intro _)
    | with_reducible assumption
    | with_reducible apply live_out
    | with_reducible apply finish_follows

theorem execSpdmHeartbeat_follows {a1} (h : Follows z s) : OutFollows z (execSpdmHeartbeat a1 s) := by
  unfold execSpdmHeartbeat
  repeat' first
    | (intro _)
    | with_reducible assumption
    | with_reducible apply live_out
    | with_reducible apply spdmHeartbeat_follows

theorem execKeyUpdate_follows {a1} {a2} (h : Follows z s) : OutFollows z (execKeyUpdate a1 a2 s) := by
  unfold execKeyUpdate
  repeat' first
    | (intro _)
    | with_reducible assumption
    | with_reducible apply live_out
    | with_reducible apply keyUpdate_follows

theorem execEndSession_follows {a1} (h : Follows z s) : OutFollows z (execEndSession a1 s) := by
  unfold execEndSession
  repeat' first
    | (intro _)
    | with_reducible assumption
    | with_reducible apply live_out
    | with_reducible apply endSession_follows

theorem execRespondIfReady_follows {a1} (h : Follows z s) : OutFollows z (execRespondIfReady a1 s) := by
  unfold execRespondIfReady
  repeat' first
    | (intro _)
    | with_reducible assumption
    | with_reducible apply live_out
    | with_reducible apply respondIfReady_follows

theorem execUnsupportedRequest_follows {a1} {a2} (h : Follows z s) : OutFollows z (execUnsupportedRequest a1 a2 s) := by
  unfold execUnsupportedRequest
  repeat' first
    | (intro _)
    | with_reducible assumption
    | with_reducible apply live_out
    | with_reducible apply unsupportedRequest_follows

theorem execGetObject_follows {a1} {a2} (h : Follows z s) : OutFollows z (execGetObject a1 a2 s) := by
  unfold execGetObject
  repeat' first
    | (intro _)
    | with_reducible assumption
    | with_reducible apply live_out
    | with_reducible apply getObject_follows

theorem execPqBind_follows {a1} {a2} (h : Follows z s) : OutFollows z (execPqBind a1 a2 s) := by
  unfold execPqBind
  repeat' first
    | (intro _)
    | with_reducible assumption
    | with_reducible apply live_out
    | with_reducible apply pqBind_follows

theorem execSetOwnerKey_follows {a1} {a2} (h : Follows z s) : OutFollows z (execSetOwnerKey a1 a2 s) := by
  unfold execSetOwnerKey
  repeat' first
    | (intro _)
    | with_reducible assumption
    | with_reducible apply live_out
    | with_reducible apply setOwnerKey_follows

theorem execVendorMbox_follows {a1} {a2} (h : Follows z s) : OutFollows z (execVendorMbox a1 a2 s) := by
  unfold execVendorMbox
  repeat' first
    | (intro _)
    | with_reducible assumption
    | with_reducible apply run_out
    | with_reducible apply vendorMbox_follows
    | with_reducible apply mbCmd_follows

theorem execGetTdispVersion_follows {a1} {a2} (h : Follows z s) : OutFollows z (execGetTdispVersion a1 a2 s) := by
  unfold execGetTdispVersion
  repeat' first
    | (intro _)
    | with_reducible assumption
    | with_reducible apply live_out
    | with_reducible apply getTdispVersion_follows

theorem execGetTdispCapabilities_follows {a1} {a2} (h : Follows z s) : OutFollows z (execGetTdispCapabilities a1 a2 s) := by
  unfold execGetTdispCapabilities
  repeat' first
    | (intro _)
    | with_reducible assumption
    | with_reducible apply live_out
    | with_reducible apply getTdispCapabilities_follows

theorem execLockInterfaceRequest_follows {a1} {a2} {a3} {a4} (h : Follows z s) : OutFollows z (execLockInterfaceRequest a1 a2 a3 a4 s) := by
  unfold execLockInterfaceRequest
  repeat' first
    | (intro _)
    | with_reducible assumption
    | with_reducible apply live_out
    | with_reducible apply lockInterface_follows

theorem execGetDeviceInterfaceReport_follows {a1} {a2} (h : Follows z s) : OutFollows z (execGetDeviceInterfaceReport a1 a2 s) := by
  unfold execGetDeviceInterfaceReport
  repeat' first
    | (intro _)
    | with_reducible assumption
    | with_reducible apply live_out
    | with_reducible apply getInterfaceReport_follows

theorem execGetDeviceInterfaceState_follows {a1} {a2} (h : Follows z s) : OutFollows z (execGetDeviceInterfaceState a1 a2 s) := by
  unfold execGetDeviceInterfaceState
  repeat' first
    | (intro _)
    | with_reducible assumption
    | with_reducible apply live_out
    | with_reducible apply getInterfaceState_follows

theorem execStartInterfaceRequest_follows {a1} {a2} {a3} (h : Follows z s) : OutFollows z (execStartInterfaceRequest a1 a2 a3 s) := by
  unfold execStartInterfaceRequest
  repeat' first
    | (intro _)
    | with_reducible assumption
    | with_reducible apply live_out
    | with_reducible apply startInterface_follows

theorem execStopInterfaceRequest_follows {a1} {a2} (h : Follows z s) : OutFollows z (execStopInterfaceRequest a1 a2 s) := by
  unfold execStopInterfaceRequest
  repeat' first
    | (intro _)
    | with_reducible assumption
    | with_reducible apply live_out
    | with_reducible apply stopInterface_follows

theorem execTdispUnsupported_follows {a1} {a2} (h : Follows z s) : OutFollows z (execTdispUnsupported a1 a2 s) := by
  unfold execTdispUnsupported
  repeat' first
    | (intro _)
    | with_reducible assumption
    | with_reducible apply live_out
    | with_reducible apply tdispUnsupported_follows

theorem execIdeKmQuery_follows {a1} {a2} (h : Follows z s) : OutFollows z (execIdeKmQuery a1 a2 s) := by
  unfold execIdeKmQuery
  repeat' first
    | (intro _)
    | with_reducible assumption
    | with_reducible apply live_out
    | with_reducible apply ideKmQuery_follows

theorem execKeyProg_follows {a1} {a2} (h : Follows z s) : OutFollows z (execKeyProg a1 a2 s) := by
  unfold execKeyProg
  repeat' first
    | (intro _)
    | with_reducible assumption
    | with_reducible apply live_out
    | with_reducible apply keyProg_follows

theorem execKSetGo_follows {a1} {a2} (h : Follows z s) : OutFollows z (execKSetGo a1 a2 s) := by
  unfold execKSetGo
  repeat' first
    | (intro _)
    | with_reducible assumption
    | with_reducible apply live_out
    | with_reducible apply kSet_follows

theorem execKSetStop_follows {a1} {a2} (h : Follows z s) : OutFollows z (execKSetStop a1 a2 s) := by
  unfold execKSetStop
  repeat' first
    | (intro _)
    | with_reducible assumption
    | with_reducible apply live_out
    | with_reducible apply kSet_follows

theorem execForm_follows {a1} {a2} (h : Follows z s) : OutFollows z (execForm a1 a2 s) := by
  unfold execForm
  repeat' first
    | (intro _)
    | with_reducible assumption
    | with_reducible apply run_out
    | with_reducible apply fedCtrlWrite_follows

theorem execJoinReq_follows (h : Follows z s) : OutFollows z (execJoinReq s) := by
  unfold execJoinReq
  repeat' first
    | (intro _)
    | with_reducible assumption
    | with_reducible apply run_out
    | with_reducible apply relayTake_follows
    | with_reducible apply takeJoin_follows
    | with_reducible apply joinReqIn_follows

theorem execJoinRsp_follows (h : Follows z s) : OutFollows z (execJoinRsp s) := by
  unfold execJoinRsp
  repeat' first
    | (intro _)
    | with_reducible assumption
    | with_reducible apply run_out
    | with_reducible apply relayTake_follows
    | with_reducible apply takeJoin_follows
    | with_reducible apply joinRspIn_follows

theorem execRelayInPush_follows {a1} {a2} (h : Follows z s) : OutFollows z (execRelayInPush a1 a2 s) := by
  unfold execRelayInPush
  repeat' first
    | (intro _)
    | with_reducible assumption
    | with_reducible apply run_out
    | with_reducible apply relayCtrlWrite_follows

theorem execRelayOutTaken_follows {a1} (h : Follows z s) : OutFollows z (execRelayOutTaken a1 s) := by
  unfold execRelayOutTaken
  repeat' first
    | (intro _)
    | with_reducible assumption
    | with_reducible apply run_out
    | with_reducible apply relayOutTaken_follows

theorem execHeartbeat_follows (h : Follows z s) : OutFollows z (execHeartbeat s) := by
  unfold execHeartbeat
  repeat' first
    | (intro _)
    | with_reducible assumption
    | with_reducible apply run_out
    | with_reducible apply takeFed_follows
    | with_reducible apply hbIn_follows

theorem execHbAck_follows (h : Follows z s) : OutFollows z (execHbAck s) := by
  unfold execHbAck
  repeat' first
    | (intro _)
    | with_reducible assumption
    | with_reducible apply run_out
    | with_reducible apply takeFed_follows
    | with_reducible apply hbAckIn_follows

theorem execRequest_follows (h : Follows z s) : OutFollows z (execRequest s) := by
  unfold execRequest
  repeat' first
    | (intro _)
    | with_reducible assumption
    | with_reducible apply run_out
    | with_reducible apply takeFed_follows
    | with_reducible apply requestIn_follows

theorem execPrepare_follows (h : Follows z s) : OutFollows z (execPrepare s) := by
  unfold execPrepare
  repeat' first
    | (intro _)
    | with_reducible assumption
    | with_reducible apply run_out
    | with_reducible apply takeFed_follows
    | with_reducible apply prepareIn_follows

theorem execPrepAck_follows (h : Follows z s) : OutFollows z (execPrepAck s) := by
  unfold execPrepAck
  repeat' first
    | (intro _)
    | with_reducible assumption
    | with_reducible apply run_out
    | with_reducible apply takeFed_follows
    | with_reducible apply prepAckIn_follows

theorem execPrepNak_follows (h : Follows z s) : OutFollows z (execPrepNak s) := by
  unfold execPrepNak
  repeat' first
    | (intro _)
    | with_reducible assumption
    | with_reducible apply run_out
    | with_reducible apply takeFed_follows
    | with_reducible apply prepNakIn_follows

theorem execCommit_follows (h : Follows z s) : OutFollows z (execCommit s) := by
  unfold execCommit
  repeat' first
    | (intro _)
    | with_reducible assumption
    | with_reducible apply run_out
    | with_reducible apply takeFed_follows
    | with_reducible apply commitIn_follows

theorem execAbort_follows (h : Follows z s) : OutFollows z (execAbort s) := by
  unfold execAbort
  repeat' first
    | (intro _)
    | with_reducible assumption
    | with_reducible apply run_out
    | with_reducible apply takeFed_follows
    | with_reducible apply abortIn_follows

theorem execDrained_follows (h : Follows z s) : OutFollows z (execDrained s) := by
  unfold execDrained
  repeat' first
    | (intro _)
    | with_reducible assumption
    | with_reducible apply run_out
    | with_reducible apply takeFed_follows
    | with_reducible apply drainedIn_follows

theorem execFault_follows (h : Follows z s) : OutFollows z (execFault s) := by
  unfold execFault
  repeat' first
    | (intro _)
    | with_reducible assumption
    | with_reducible apply run_out
    | with_reducible apply takeFed_follows
    | with_reducible apply faultIn_follows

theorem execImage_follows (h : Follows z s) : OutFollows z (execImage s) := by
  unfold execImage
  repeat' first
    | (intro _)
    | with_reducible assumption
    | with_reducible apply run_out
    | with_reducible apply takeFed_follows
    | with_reducible apply imageIn_follows

theorem execChangeStart_follows (h : Follows z s) : OutFollows z (execChangeStart s) := by
  unfold execChangeStart
  repeat' first
    | (intro _)
    | with_reducible assumption
    | with_reducible apply run_out
    | with_reducible apply changeStart_follows

theorem execHeartbeatTimer_follows (h : Follows z s) : OutFollows z (execHeartbeatTimer s) := by
  unfold execHeartbeatTimer
  repeat' first
    | (intro _)
    | with_reducible assumption
    | with_reducible apply run_out
    | with_reducible apply heartbeatTimer_follows

theorem execHeartbeatLoss_follows (h : Follows z s) : OutFollows z (execHeartbeatLoss s) := by
  unfold execHeartbeatLoss
  repeat' first
    | (intro _)
    | with_reducible assumption
    | with_reducible apply run_out
    | with_reducible apply heartbeatLoss_follows

theorem execPrepareTimeout_follows (h : Follows z s) : OutFollows z (execPrepareTimeout s) := by
  unfold execPrepareTimeout
  repeat' first
    | (intro _)
    | with_reducible assumption
    | with_reducible apply run_out
    | with_reducible apply prepareTimeout_follows

theorem execCatchupTimeout_follows (h : Follows z s) : OutFollows z (execCatchupTimeout s) := by
  unfold execCatchupTimeout
  repeat' first
    | (intro _)
    | with_reducible assumption
    | with_reducible apply run_out
    | with_reducible apply catchupTimeout_follows

theorem execDieEntryTimeout_follows (h : Follows z s) : OutFollows z (execDieEntryTimeout s) := by
  unfold execDieEntryTimeout
  repeat' first
    | (intro _)
    | with_reducible assumption
    | with_reducible apply live_out
    | with_reducible apply dieEntryTimeout_follows

theorem execDrainWindowEnd_follows {a1} (h : Follows z s) : OutFollows z (execDrainWindowEnd a1 s) := by
  unfold execDrainWindowEnd
  repeat' first
    | (intro _)
    | with_reducible assumption
    | with_reducible apply run_out
    | with_reducible apply drainWindowEnd_follows

theorem execLichenDrainEnd_follows {a1} (h : Follows z s) : OutFollows z (execLichenDrainEnd a1 s) := by
  unfold execLichenDrainEnd
  repeat' first
    | (intro _)
    | with_reducible assumption
    | with_reducible apply run_out
    | with_reducible apply revokePump_follows
    | with_reducible apply lichenDrainEnd_follows

theorem execEvDb_follows {a1} {a2} (h : Follows z s) : OutFollows z (execEvDb a1 a2 s) := by
  unfold execEvDb
  repeat' first
    | (intro _)
    | with_reducible assumption
    | with_reducible apply live_out
    | with_reducible apply evDb_follows

theorem execSwDb_follows {a1} {a2} (h : Follows z s) : OutFollows z (execSwDb a1 a2 s) := by
  unfold execSwDb
  repeat' first
    | (intro _)
    | with_reducible assumption
    | with_reducible apply live_out
    | with_reducible apply swDb_follows

theorem execRaise_follows {a1} {a2} (h : Follows z s) : OutFollows z (execRaise a1 a2 s) := by
  unfold execRaise
  repeat' first
    | (intro _)
    | with_reducible assumption
    | with_reducible apply live_out
    | with_reducible apply raiseWrite_follows

theorem execTake_follows {a1} {a2} (h : Follows z s) : OutFollows z (execTake a1 a2 s) := by
  unfold execTake
  repeat' first
    | (intro _)
    | with_reducible assumption
    | with_reducible apply live_out
    | with_reducible apply takeWrite_follows

theorem execEqHeadWrite_follows {a1} {a2} {a3} (h : Follows z s) : OutFollows z (execEqHeadWrite a1 a2 a3 s) := by
  unfold execEqHeadWrite
  repeat' first
    | (intro _)
    | with_reducible assumption
    | with_reducible apply live_out
    | with_reducible apply eqHeadWrite_follows

theorem execEqEnable_follows {a1} {a2} {a3} (h : Follows z s) : OutFollows z (execEqEnable a1 a2 a3 s) := by
  unfold execEqEnable
  repeat' first
    | (intro _)
    | with_reducible assumption
    | with_reducible apply live_out
    | with_reducible apply eqEnable_follows

theorem execEoi_follows {a1} {a2} {a3} (h : Follows z s) : OutFollows z (execEoi a1 a2 a3 s) := by
  unfold execEoi
  repeat' first
    | (intro _)
    | with_reducible assumption
    | with_reducible apply live_out
    | with_reducible apply eoi_follows

theorem execBankReset_follows {a1} {a2} (h : Follows z s) : OutFollows z (execBankReset a1 a2 s) := by
  unfold execBankReset
  repeat' first
    | (intro _)
    | with_reducible assumption
    | with_reducible apply live_out
    | with_reducible apply bankReset_follows

theorem execCoalTimeExpiry_follows {a1} (h : Follows z s) : OutFollows z (execCoalTimeExpiry a1 s) := by
  unfold execCoalTimeExpiry
  repeat' first
    | (intro _)
    | with_reducible assumption
    | with_reducible apply live_out
    | with_reducible apply coalTimeExpiry_follows

theorem execBankDelivery_follows {a1} (h : Follows z s) : OutFollows z (execBankDelivery a1 s) := by
  unfold execBankDelivery
  repeat' first
    | (intro _)
    | with_reducible assumption
    | with_reducible apply live_out
    | with_reducible apply bankDelivery_follows

theorem execEventRecordIssue_follows (h : Follows z s) : OutFollows z (execEventRecordIssue s) := by
  unfold execEventRecordIssue
  repeat' first
    | (intro _)
    | with_reducible assumption
    | with_reducible apply live_out
    | with_reducible apply eventRecordIssue_follows

theorem execBwaterApply_follows {a1} (h : Follows z s) : OutFollows z (execBwaterApply a1 s) := by
  unfold execBwaterApply
  repeat' first
    | (intro _)
    | with_reducible assumption
    | with_reducible apply live_out
    | with_reducible apply bwApply_follows

theorem execStarveExpiry_follows {a1} {a2} (h : Follows z s) : OutFollows z (execStarveExpiry a1 a2 s) := by
  unfold execStarveExpiry
  repeat' first
    | (intro _)
    | with_reducible assumption
    | with_reducible apply live_out
    | with_reducible apply starveExpiry_follows

theorem execCapWindow_follows {a1} (h : Follows z s) : OutFollows z (execCapWindow a1 s) := by
  unfold execCapWindow
  repeat' first
    | (intro _)
    | with_reducible assumption
    | with_reducible apply live_out
    | with_reducible apply capWindow_follows
    | with_reducible apply Follows.ite

theorem execFenceDomain_follows {a1} {a2} (h : Follows z s) : OutFollows z (execFenceDomain a1 a2 s) := by
  unfold execFenceDomain
  repeat' first
    | (intro _)
    | with_reducible assumption
    | with_reducible apply run_out
    | with_reducible apply fenceWrite_follows

theorem execDrainLimitExpiry_follows {a1} (h : Follows z s) : OutFollows z (execDrainLimitExpiry a1 s) := by
  unfold execDrainLimitExpiry
  repeat' first
    | (intro _)
    | with_reducible assumption
    | with_reducible apply run_out
    | with_reducible apply drainLimitExpiry_follows

theorem execDumpWritten_follows {a1} (h : Follows z s) : OutFollows z (execDumpWritten a1 s) := by
  unfold execDumpWritten
  repeat' first
    | (intro _)
    | with_reducible assumption
    | with_reducible apply run_out
    | with_reducible apply dumpWritten_follows

theorem execDumpLimitExpiry_follows {a1} (h : Follows z s) : OutFollows z (execDumpLimitExpiry a1 s) := by
  unfold execDumpLimitExpiry
  repeat' first
    | (intro _)
    | with_reducible assumption
    | with_reducible apply run_out
    | with_reducible apply dumpLimit_follows

theorem execReleaseDomain_follows {a1} {a2} (h : Follows z s) : OutFollows z (execReleaseDomain a1 a2 s) := by
  unfold execReleaseDomain
  repeat' first
    | (intro _)
    | with_reducible assumption
    | with_reducible apply run_out
    | with_reducible apply regGuard_follows
    | with_reducible apply releaseDomain_follows

theorem execSnapshotRelease_follows {a1} (h : Follows z s) : OutFollows z (execSnapshotRelease a1 s) := by
  unfold execSnapshotRelease
  repeat' first
    | (intro _)
    | with_reducible assumption
    | with_reducible apply live_out
    | with_reducible apply snapshotRelease_follows

theorem execReproClear_follows {a1} (h : Follows z s) : OutFollows z (execReproClear a1 s) := by
  unfold execReproClear
  repeat' first
    | (intro _)
    | with_reducible assumption
    | with_reducible apply live_out
    | with_reducible apply reproClear_follows

theorem execTraceGroupTimeout_follows {a1} (h : Follows z s) : OutFollows z (execTraceGroupTimeout a1 s) := by
  unfold execTraceGroupTimeout
  repeat' first
    | (intro _)
    | with_reducible assumption
    | with_reducible apply run_out
    | with_reducible apply traceFlush_follows

theorem execPregWrite_follows {a1} {a2} {a3} (h : Follows z s) : OutFollows z (execPregWrite a1 a2 a3 s) := by
  unfold execPregWrite
  repeat' first
    | (intro _)
    | with_reducible assumption
    | with_reducible apply live_out
    | with_reducible apply pregWrite_follows

theorem execReplayEnable_follows {a1} {a2} (h : Follows z s) : OutFollows z (execReplayEnable a1 a2 s) := by
  unfold execReplayEnable
  repeat' first
    | (intro _)
    | with_reducible assumption
    | with_reducible apply run_out
    | with_reducible apply replayEnable_follows

theorem execRegisterWrite_follows {a1} (h : Follows z s) : OutFollows z (execRegisterWrite a1 s) := by
  unfold execRegisterWrite
  repeat' first
    | (intro _)
    | with_reducible assumption
    | with_reducible apply run_out
    | with_reducible apply regWrite_follows

theorem execIfetchLineReturn_follows {a1} (h : Follows z s) : OutFollows z (execIfetchLineReturn a1 s) := by
  unfold execIfetchLineReturn
  repeat' first
    | (intro _)
    | with_reducible assumption
    | with_reducible apply run_out
    | with_reducible apply ifetchLineReturn_follows

theorem execNopInstruction_follows {a1} {a2} (h : Follows z s) : OutFollows z (execNopInstruction a1 a2 s) := by
  unfold execNopInstruction
  repeat' first
    | (intro _)
    | with_reducible assumption
    | with_reducible apply insRow_out
    | with_reducible apply insNop_follows

theorem execHalt_follows {a1} {a2} (h : Follows z s) : OutFollows z (execHalt a1 a2 s) := by
  unfold execHalt
  repeat' first
    | (intro _)
    | with_reducible assumption
    | with_reducible apply insRow_out
    | with_reducible apply insHalt_follows

theorem execTrap_follows {a1} {a2} (h : Follows z s) : OutFollows z (execTrap a1 a2 s) := by
  unfold execTrap
  repeat' first
    | (intro _)
    | with_reducible assumption
    | with_reducible apply insRow_out
    | with_reducible apply insTrap_follows

theorem execBr_follows {a1} {a2} (h : Follows z s) : OutFollows z (execBr a1 a2 s) := by
  unfold execBr
  repeat' first
    | (intro _)
    | with_reducible assumption
    | with_reducible apply insRow_out
    | with_reducible apply insBr_follows

theorem execBeq_follows {a1} {a2} (h : Follows z s) : OutFollows z (execBeq a1 a2 s) := by
  unfold execBeq
  repeat' first
    | (intro _)
    | with_reducible assumption
    | with_reducible apply insRow_out
    | with_reducible apply insBeq_follows

theorem execBne_follows {a1} {a2} (h : Follows z s) : OutFollows z (execBne a1 a2 s) := by
  unfold execBne
  repeat' first
    | (intro _)
    | with_reducible assumption
    | with_reducible apply insRow_out
    | with_reducible apply insBne_follows

theorem execBlt_follows {a1} {a2} (h : Follows z s) : OutFollows z (execBlt a1 a2 s) := by
  unfold execBlt
  repeat' first
    | (intro _)
    | with_reducible assumption
    | with_reducible apply insRow_out
    | with_reducible apply insBlt_follows

theorem execLoop_follows {a1} {a2} (h : Follows z s) : OutFollows z (execLoop a1 a2 s) := by
  unfold execLoop
  repeat' first
    | (intro _)
    | with_reducible assumption
    | with_reducible apply insRow_out
    | with_reducible apply insLoop_follows

theorem execEndl_follows {a1} {a2} (h : Follows z s) : OutFollows z (execEndl a1 a2 s) := by
  unfold execEndl
  repeat' first
    | (intro _)
    | with_reducible assumption
    | with_reducible apply insRow_out
    | with_reducible apply insEndl_follows

theorem execMovi_follows {a1} {a2} (h : Follows z s) : OutFollows z (execMovi a1 a2 s) := by
  unfold execMovi
  repeat' first
    | (intro _)
    | with_reducible assumption
    | with_reducible apply insRow_out
    | with_reducible apply insMovi_follows

theorem execAddi_follows {a1} {a2} (h : Follows z s) : OutFollows z (execAddi a1 a2 s) := by
  unfold execAddi
  repeat' first
    | (intro _)
    | with_reducible assumption
    | with_reducible apply insRow_out
    | with_reducible apply insAddi_follows

theorem execAdd_follows {a1} {a2} (h : Follows z s) : OutFollows z (execAdd a1 a2 s) := by
  unfold execAdd
  repeat' first
    | (intro _)
    | with_reducible assumption
    | with_reducible apply insRow_out
    | with_reducible apply insAdd_follows

theorem execSub_follows {a1} {a2} (h : Follows z s) : OutFollows z (execSub a1 a2 s) := by
  unfold execSub
  repeat' first
    | (intro _)
    | with_reducible assumption
    | with_reducible apply insRow_out
    | with_reducible apply insSub_follows

theorem execAnd_follows {a1} {a2} (h : Follows z s) : OutFollows z (execAnd a1 a2 s) := by
  unfold execAnd
  repeat' first
    | (intro _)
    | with_reducible assumption
    | with_reducible apply insRow_out
    | with_reducible apply insAnd_follows

theorem execOr_follows {a1} {a2} (h : Follows z s) : OutFollows z (execOr a1 a2 s) := by
  unfold execOr
  repeat' first
    | (intro _)
    | with_reducible assumption
    | with_reducible apply insRow_out
    | with_reducible apply insOr_follows

theorem execXor_follows {a1} {a2} (h : Follows z s) : OutFollows z (execXor a1 a2 s) := by
  unfold execXor
  repeat' first
    | (intro _)
    | with_reducible assumption
    | with_reducible apply insRow_out
    | with_reducible apply insXor_follows

theorem execShl_follows {a1} {a2} (h : Follows z s) : OutFollows z (execShl a1 a2 s) := by
  unfold execShl
  repeat' first
    | (intro _)
    | with_reducible assumption
    | with_reducible apply insRow_out
    | with_reducible apply insShl_follows

theorem execShr_follows {a1} {a2} (h : Follows z s) : OutFollows z (execShr a1 a2 s) := by
  unfold execShr
  repeat' first
    | (intro _)
    | with_reducible assumption
    | with_reducible apply insRow_out
    | with_reducible apply insShr_follows

theorem execLd_follows {a1} {a2} (h : Follows z s) : OutFollows z (execLd a1 a2 s) := by
  unfold execLd
  repeat' first
    | (intro _)
    | with_reducible assumption
    | with_reducible apply insRow_out
    | with_reducible apply insLd_follows

theorem execSt_follows {a1} {a2} (h : Follows z s) : OutFollows z (execSt a1 a2 s) := by
  unfold execSt
  repeat' first
    | (intro _)
    | with_reducible assumption
    | with_reducible apply insRow_out
    | with_reducible apply insSt_follows

theorem execCopyInstruction_follows {a1} {a2} (h : Follows z s) : OutFollows z (execCopyInstruction a1 a2 s) := by
  unfold execCopyInstruction
  repeat' first
    | (intro _)
    | with_reducible assumption
    | with_reducible apply insRow_out
    | with_reducible apply insCopy_follows

theorem execPut_follows {a1} {a2} (h : Follows z s) : OutFollows z (execPut a1 a2 s) := by
  unfold execPut
  repeat' first
    | (intro _)
    | with_reducible assumption
    | with_reducible apply insRow_out
    | with_reducible apply insPut_follows

theorem execGet_follows {a1} {a2} (h : Follows z s) : OutFollows z (execGet a1 a2 s) := by
  unfold execGet
  repeat' first
    | (intro _)
    | with_reducible assumption
    | with_reducible apply insRow_out
    | with_reducible apply insGet_follows

theorem execSend_follows {a1} {a2} (h : Follows z s) : OutFollows z (execSend a1 a2 s) := by
  unfold execSend
  repeat' first
    | (intro _)
    | with_reducible assumption
    | with_reducible apply insRow_out
    | with_reducible apply insSend_follows

theorem execRecv_follows {a1} {a2} (h : Follows z s) : OutFollows z (execRecv a1 a2 s) := by
  unfold execRecv
  repeat' first
    | (intro _)
    | with_reducible assumption
    | with_reducible apply insRow_out
    | with_reducible apply insRecv_follows

theorem execReduce_follows {a1} {a2} (h : Follows z s) : OutFollows z (execReduce a1 a2 s) := by
  unfold execReduce
  repeat' first
    | (intro _)
    | with_reducible assumption
    | with_reducible apply insRow_out
    | with_reducible apply insArm_follows

theorem execRfwd_follows {a1} {a2} (h : Follows z s) : OutFollows z (execRfwd a1 a2 s) := by
  unfold execRfwd
  repeat' first
    | (intro _)
    | with_reducible assumption
    | with_reducible apply insRow_out
    | with_reducible apply insArm_follows

theorem execAtomInstruction_follows {a1} {a2} (h : Follows z s) : OutFollows z (execAtomInstruction a1 a2 s) := by
  unfold execAtomInstruction
  repeat' first
    | (intro _)
    | with_reducible assumption
    | with_reducible apply insRow_out
    | with_reducible apply insAtom_follows

theorem execWaitb_follows {a1} {a2} (h : Follows z s) : OutFollows z (execWaitb a1 a2 s) := by
  unfold execWaitb
  repeat' first
    | (intro _)
    | with_reducible assumption
    | with_reducible apply insRow_out
    | with_reducible apply insWaitb_follows

theorem execSigb_follows {a1} {a2} (h : Follows z s) : OutFollows z (execSigb a1 a2 s) := by
  unfold execSigb
  repeat' first
    | (intro _)
    | with_reducible assumption
    | with_reducible apply insRow_out
    | with_reducible apply insSigb_follows

theorem execRsigb_follows {a1} {a2} (h : Follows z s) : OutFollows z (execRsigb a1 a2 s) := by
  unfold execRsigb
  repeat' first
    | (intro _)
    | with_reducible assumption
    | with_reducible apply insRow_out
    | with_reducible apply insRsigb_follows

theorem execAllocInstruction_follows {a1} {a2} (h : Follows z s) : OutFollows z (execAllocInstruction a1 a2 s) := by
  unfold execAllocInstruction
  repeat' first
    | (intro _)
    | with_reducible assumption
    | with_reducible apply insRow_out
    | with_reducible apply insAlloc_follows

theorem execFreeInstruction_follows {a1} {a2} (h : Follows z s) : OutFollows z (execFreeInstruction a1 a2 s) := by
  unfold execFreeInstruction
  repeat' first
    | (intro _)
    | with_reducible assumption
    | with_reducible apply insRow_out
    | with_reducible apply insFree_follows

theorem execSealld_follows {a1} {a2} (h : Follows z s) : OutFollows z (execSealld a1 a2 s) := by
  unfold execSealld
  repeat' first
    | (intro _)
    | with_reducible assumption
    | with_reducible apply insRow_out
    | with_reducible apply insSealld_follows

theorem execTstamp_follows {a1} {a2} (h : Follows z s) : OutFollows z (execTstamp a1 a2 s) := by
  unfold execTstamp
  repeat' first
    | (intro _)
    | with_reducible assumption
    | with_reducible apply insRow_out
    | with_reducible apply insTstamp_follows

theorem execFenceInstruction_follows {a1} {a2} (h : Follows z s) : OutFollows z (execFenceInstruction a1 a2 s) := by
  unfold execFenceInstruction
  repeat' first
    | (intro _)
    | with_reducible assumption
    | with_reducible apply insRow_out
    | with_reducible apply insFence_follows

theorem execWrite_follows {a1} (h : Follows z s) : OutFollows z (execWrite a1 s) := by
  unfold execWrite
  repeat' first
    | (intro _)
    | with_reducible assumption
    | with_reducible apply run_out
    | with_reducible apply serve_follows

theorem execRead_follows {a1} (h : Follows z s) : OutFollows z (execRead a1 s) := by
  unfold execRead
  repeat' first
    | (intro _)
    | with_reducible assumption
    | with_reducible apply run_out
    | with_reducible apply serve_follows

theorem execAtom_follows {a1} (h : Follows z s) : OutFollows z (execAtom a1 s) := by
  unfold execAtom
  repeat' first
    | (intro _)
    | with_reducible assumption
    | with_reducible apply run_out
    | with_reducible apply serve_follows

theorem execSignal_follows {a1} (h : Follows z s) : OutFollows z (execSignal a1 s) := by
  unfold execSignal
  repeat' first
    | (intro _)
    | with_reducible assumption
    | with_reducible apply run_out
    | with_reducible apply serve_follows

theorem execPoolRead_follows {a1} (h : Follows z s) : OutFollows z (execPoolRead a1 s) := by
  unfold execPoolRead
  repeat' first
    | (intro _)
    | with_reducible assumption
    | with_reducible apply run_out
    | with_reducible apply serve_follows

theorem execPoolWrite_follows {a1} (h : Follows z s) : OutFollows z (execPoolWrite a1 s) := by
  unfold execPoolWrite
  repeat' first
    | (intro _)
    | with_reducible assumption
    | with_reducible apply run_out
    | with_reducible apply serve_follows

theorem execWriteAck_follows {a1} (h : Follows z s) : OutFollows z (execWriteAck a1 s) := by
  unfold execWriteAck
  repeat' first
    | (intro _)
    | with_reducible assumption
    | with_reducible apply run_out
    | with_reducible apply takeReply_follows
    | with_reducible apply memReply_follows
    | with_reducible apply Follows.ite

theorem execReadData_follows {a1} (h : Follows z s) : OutFollows z (execReadData a1 s) := by
  unfold execReadData
  repeat' first
    | (intro _)
    | with_reducible assumption
    | with_reducible apply run_out
    | with_reducible apply takeReply_follows
    | with_reducible apply memReply_follows

theorem execAtomRsp_follows {a1} (h : Follows z s) : OutFollows z (execAtomRsp a1 s) := by
  unfold execAtomRsp
  repeat' first
    | (intro _)
    | with_reducible assumption
    | with_reducible apply run_out
    | with_reducible apply takeReply_follows
    | with_reducible apply memReply_follows

theorem execSignalRsp_follows {a1} (h : Follows z s) : OutFollows z (execSignalRsp a1 s) := by
  unfold execSignalRsp
  repeat' first
    | (intro _)
    | with_reducible assumption
    | with_reducible apply run_out
    | with_reducible apply takeReply_follows
    | with_reducible apply memReply_follows

theorem execPoolData_follows {a1} (h : Follows z s) : OutFollows z (execPoolData a1 s) := by
  unfold execPoolData
  repeat' first
    | (intro _)
    | with_reducible assumption
    | with_reducible apply run_out
    | with_reducible apply takeReply_follows
    | with_reducible apply poolReply_follows

theorem execPoolAck_follows {a1} (h : Follows z s) : OutFollows z (execPoolAck a1 s) := by
  unfold execPoolAck
  repeat' first
    | (intro _)
    | with_reducible assumption
    | with_reducible apply run_out
    | with_reducible apply takeReply_follows
    | with_reducible apply poolReply_follows

theorem execLinkUp_follows {a1} (h : Follows z s) : OutFollows z (execLinkUp a1 s) := by
  unfold execLinkUp
  repeat' first
    | (intro _)
    | with_reducible assumption
    | with_reducible apply run_out
    | with_reducible apply linkRises_follows

theorem execIslandIsolation_follows {a1} {a2} (h : Follows z s) : OutFollows z (execIslandIsolation a1 a2 s) := by
  unfold execIslandIsolation
  repeat' first
    | (intro _)
    | with_reducible assumption
    | with_reducible apply OutFollows.ite
    | with_reducible apply OutFollows.next
    | with_reducible exact OutFollows.fault
    | with_reducible apply State.updIsland_follows

theorem execIslandClockThrottle_follows {a1} {a2} {a3} (h : Follows z s) : OutFollows z (execIslandClockThrottle a1 a2 a3 s) := by
  unfold execIslandClockThrottle
  repeat' first
    | (intro _)
    | with_reducible assumption
    | with_reducible apply live_out
    | with_reducible apply islandClockThrottle_follows

theorem execRegisterRead_follows {a1} (h : Follows z s) : OutFollows z (execRegisterRead a1 s) := by
  unfold execRegisterRead
  repeat' first
    | (intro _)
    | with_reducible assumption
    | with_reducible apply live_out
    | with_reducible apply registerRead_follows

theorem execReservedInstruction_follows {a1} {a2} (h : Follows z s) : OutFollows z (execReservedInstruction a1 a2 s) := by
  unfold execReservedInstruction
  repeat' first
    | (intro _)
    | with_reducible assumption
    | with_reducible apply run_out
    | with_reducible apply issue_follows
    | with_reducible apply insFault_follows

theorem execCoreTimerExpiry_follows {a1} (h : Follows z s) : OutFollows z (execCoreTimerExpiry a1 s) := by
  unfold execCoreTimerExpiry
  repeat' first
    | (intro _)
    | with_reducible assumption
    | with_reducible apply live_out
    | with_reducible apply setHmPend_follows
    | with_reducible apply Follows.ite

theorem execDynamicAddressAssignment_follows {a1} (h : Follows z s) : OutFollows z (execDynamicAddressAssignment a1 s) := by
  unfold execDynamicAddressAssignment
  repeat' first
    | (intro _)
    | with_reducible assumption
    | with_reducible apply live_out
    | with_reducible apply dynamicAddress_follows

theorem execTimebaseBackward_follows {a1} (h : Follows z s) : OutFollows z (execTimebaseBackward a1 s) := by
  unfold execTimebaseBackward
  repeat' first
    | (intro _)
    | with_reducible assumption
    | with_reducible apply live_out
    | with_reducible apply Follows.ite
    | fail_if_no_progress with_reducible refine Follows.put ?_ rfl

/-- Whatever a command but these two does, the state that it answers follows. -/
theorem exec_follows {i : Instr} {t : State} (hr : ∀ p, i ≠ .releaseOfPorstNHm p) (hp : i ≠ .harbourmasterPowerRemoval)
    (e : exec i s = .next t) : Follows s t := by
  cases i
  case releaseOfPorstNHm => exact absurd rfl (hr _)
  case dataPathIslandRelease => exact (execDataPathIslandRelease_follows (.refl s)).of t e
  case prityStartupDone => exact (execPrityStartupDone_follows (.refl s)).of t e
  case islandPowerRemoval => exact (execIslandPowerRemoval_follows (.refl s)).of t e
  case harbourmasterPowerRemoval => exact absurd rfl hp
  case prityRestart => exact (execPrityRestart_follows (.refl s)).of t e
  case upstreamRequest => exact (execUpstreamRequest_follows (.refl s)).of t e
  case requestWithdrawal => exact (execRequestWithdrawal_follows (.refl s)).of t e
  case writeDataBeat => exact (execWriteDataBeat_follows (.refl s)).of t e
  case chainHandoff => exact (execChainHandoff_follows (.refl s)).of t e
  case downstreamIssue => exact (execDownstreamIssue_follows (.refl s)).of t e
  case downstreamReadResponse => exact (execDownstreamReadResponse_follows (.refl s)).of t e
  case downstreamWriteComplete => exact (execDownstreamWriteComplete_follows (.refl s)).of t e
  case lichenInit => exact (execLichenInit_follows (.refl s)).of t e
  case lichenFlush => exact (execLichenFlush_follows (.refl s)).of t e
  case frzStateWrite => exact (execFrzStateWrite_follows (.refl s)).of t e
  case rekeyStart => exact (execRekeyStart_follows (.refl s)).of t e
  case tideJobStart => exact (execTideJobStart_follows (.refl s)).of t e
  case tidePaceWindow => exact (execTidePaceWindow_follows (.refl s)).of t e
  case tideTurn => exact (execTideTurn_follows (.refl s)).of t e
  case flitPacket => exact (execFlitPacket_follows (.refl s)).of t e
  case frameStart => exact (execFrameStart_follows (.refl s)).of t e
  case receivedFrame => exact (execReceivedFrame_follows (.refl s)).of t e
  case releaseFrame => exact (execReleaseFrame_follows (.refl s)).of t e
  case ackDelayExpiry => exact (execAckDelayExpiry_follows (.refl s)).of t e
  case retransmission => exact (execRetransmission_follows (.refl s)).of t e
  case retransmissionLimit => exact (execRetransmissionLimit_follows (.refl s)).of t e
  case generationMove => exact (execGenerationMove_follows (.refl s)).of t e
  case rxKeyDerived => exact (execRxKeyDerived_follows (.refl s)).of t e
  case linkDown => exact (execLinkDown_follows (.refl s)).of t e
  case migrationMoveComplete => exact (execMigrationMoveComplete_follows (.refl s)).of t e
  case probeRepeat => exact (execProbeRepeat_follows (.refl s)).of t e
  case gwFlushTime => exact (execGwFlushTime_follows (.refl s)).of t e
  case quayCtrlWrite => exact (execQuayCtrlWrite_follows (.refl s)).of t e
  case sessionOpen => exact (execSessionOpen_follows (.refl s)).of t e
  case sessionClose => exact (execSessionClose_follows (.refl s)).of t e
  case sessionMigrate => exact (execSessionMigrate_follows (.refl s)).of t e
  case sessionRotate => exact (execSessionRotate_follows (.refl s)).of t e
  case operandArrival => exact (execOperandArrival_follows (.refl s)).of t e
  case chunkStoreDone => exact (execChunkStoreDone_follows (.refl s)).of t e
  case sqDoorbell => exact (execSqDoorbell_follows (.refl s)).of t e
  case ringFetch => exact (execRingFetch_follows (.refl s)).of t e
  case queueEnable => exact (execQueueEnable_follows (.refl s)).of t e
  case nop => exact (execNop_follows (.refl s)).of t e
  case objRegisterMemory => exact (execObjRegisterMemory_follows (.refl s)).of t e
  case objRegisterBollard => exact (execObjRegisterBollard_follows (.refl s)).of t e
  case objFree => exact (execObjFree_follows (.refl s)).of t e
  case objectReferencesZero => exact (execObjectReferencesZero_follows (.refl s)).of t e
  case copy => exact (execCopy_follows (.refl s)).of t e
  case programLaunch => exact (execProgramLaunch_follows (.refl s)).of t e
  case bollardSignalAdd => exact (execBollardSignalAdd_follows (.refl s)).of t e
  case bollardSignalReset => exact (execBollardSignalReset_follows (.refl s)).of t e
  case bollardWait => exact (execBollardWait_follows (.refl s)).of t e
  case alloc => exact (execAlloc_follows (.refl s)).of t e
  case free => exact (execFree_follows (.refl s)).of t e
  case sealLoad => exact (execSealLoad_follows (.refl s)).of t e
  case sealAbort => exact (execSealAbort_follows (.refl s)).of t e
  case regionRelease => exact (execRegionRelease_follows (.refl s)).of t e
  case keyUnwrap => exact (execKeyUnwrap_follows (.refl s)).of t e
  case queryContext => exact (execQueryContext_follows (.refl s)).of t e
  case contextRetire => exact (execContextRetire_follows (.refl s)).of t e
  case allocDbAlloc => exact (execAllocDbAlloc_follows (.refl s)).of t e
  case allocDbFree => exact (execAllocDbFree_follows (.refl s)).of t e
  case quoteInstance => exact (execQuoteInstance_follows (.refl s)).of t e
  case quotePackage => exact (execQuotePackage_follows (.refl s)).of t e
  case fwBegin => exact (execFwBegin_follows (.refl s)).of t e
  case fwData => exact (execFwData_follows (.refl s)).of t e
  case fwVerify => exact (execFwVerify_follows (.refl s)).of t e
  case fwActivate => exact (execFwActivate_follows (.refl s)).of t e
  case fwCommit => exact (execFwCommit_follows (.refl s)).of t e
  case fwRevert => exact (execFwRevert_follows (.refl s)).of t e
  case fwAbort => exact (execFwAbort_follows (.refl s)).of t e
  case imageReady => exact (execImageReady_follows (.refl s)).of t e
  case activateTimeout => exact (execActivateTimeout_follows (.refl s)).of t e
  case tenantAdmit => exact (execTenantAdmit_follows (.refl s)).of t e
  case tenantRemove => exact (execTenantRemove_follows (.refl s)).of t e
  case domainChangeCipher => exact (execDomainChangeCipher_follows (.refl s)).of t e
  case domainChangeDebug => exact (execDomainChangeDebug_follows (.refl s)).of t e
  case domainChangeBwater => exact (execDomainChangeBwater_follows (.refl s)).of t e
  case domainChangeInj => exact (execDomainChangeInj_follows (.refl s)).of t e
  case bistRun => exact (execBistRun_follows (.refl s)).of t e
  case bistComplete => exact (execBistComplete_follows (.refl s)).of t e
  case lcTransition => exact (execLcTransition_follows (.refl s)).of t e
  case eraseUserSecrets => exact (execEraseUserSecrets_follows (.refl s)).of t e
  case gen => exact (execGen_follows (.refl s)).of t e
  case derive => exact (execDerive_follows (.refl s)).of t e
  case zeroise => exact (execZeroise_follows (.refl s)).of t e
  case setState => exact (execSetState_follows (.refl s)).of t e
  case setMasters => exact (execSetMasters_follows (.refl s)).of t e
  case unwrap => exact (execUnwrap_follows (.refl s)).of t e
  case kmapWrite => exact (execKmapWrite_follows (.refl s)).of t e
  case entropySample => exact (execEntropySample_follows (.refl s)).of t e
  case entropyRetryExpiry => exact (execEntropyRetryExpiry_follows (.refl s)).of t e
  case nvResponse => exact (execNvResponse_follows (.refl s)).of t e
  case otpResponse => exact (execOtpResponse_follows (.refl s)).of t e
  case doeObject => exact (execDoeObject_follows (.refl s)).of t e
  case evErr f => exact (execEvErr_follows (a1 := f) (.refl s)).of t e
  case idekAck => exact (execIdekAck_follows (.refl s)).of t e
  case d2dMessage => exact (execD2dMessage_follows (.refl s)).of t e
  case gtrig => exact (execGtrig_follows (.refl s)).of t e
  case freezeAt => exact (execFreezeAt_follows (.refl s)).of t e
  case dftScanReq => exact (execDftScanReq_follows (.refl s)).of t e
  case dftBistStart => exact (execDftBistStart_follows (.refl s)).of t e
  case getVersion => exact (execGetVersion_follows (.refl s)).of t e
  case getCapabilities => exact (execGetCapabilities_follows (.refl s)).of t e
  case negotiateAlgorithms => exact (execNegotiateAlgorithms_follows (.refl s)).of t e
  case getDigests => exact (execGetDigests_follows (.refl s)).of t e
  case getCertificate => exact (execGetCertificate_follows (.refl s)).of t e
  case challenge => exact (execChallenge_follows (.refl s)).of t e
  case getMeasurements => exact (execGetMeasurements_follows (.refl s)).of t e
  case keyExchange => exact (execKeyExchange_follows (.refl s)).of t e
  case finish => exact (execFinish_follows (.refl s)).of t e
  case spdmHeartbeat => exact (execSpdmHeartbeat_follows (.refl s)).of t e
  case keyUpdate => exact (execKeyUpdate_follows (.refl s)).of t e
  case endSession => exact (execEndSession_follows (.refl s)).of t e
  case respondIfReady => exact (execRespondIfReady_follows (.refl s)).of t e
  case unsupportedRequest => exact (execUnsupportedRequest_follows (.refl s)).of t e
  case getObject => exact (execGetObject_follows (.refl s)).of t e
  case pqBind => exact (execPqBind_follows (.refl s)).of t e
  case setOwnerKey => exact (execSetOwnerKey_follows (.refl s)).of t e
  case vendorMbox => exact (execVendorMbox_follows (.refl s)).of t e
  case getTdispVersion => exact (execGetTdispVersion_follows (.refl s)).of t e
  case getTdispCapabilities => exact (execGetTdispCapabilities_follows (.refl s)).of t e
  case lockInterfaceRequest => exact (execLockInterfaceRequest_follows (.refl s)).of t e
  case getDeviceInterfaceReport => exact (execGetDeviceInterfaceReport_follows (.refl s)).of t e
  case getDeviceInterfaceState => exact (execGetDeviceInterfaceState_follows (.refl s)).of t e
  case startInterfaceRequest => exact (execStartInterfaceRequest_follows (.refl s)).of t e
  case stopInterfaceRequest => exact (execStopInterfaceRequest_follows (.refl s)).of t e
  case tdispUnsupported => exact (execTdispUnsupported_follows (.refl s)).of t e
  case ideKmQuery => exact (execIdeKmQuery_follows (.refl s)).of t e
  case keyProg => exact (execKeyProg_follows (.refl s)).of t e
  case kSetGo => exact (execKSetGo_follows (.refl s)).of t e
  case kSetStop => exact (execKSetStop_follows (.refl s)).of t e
  case form => exact (execForm_follows (.refl s)).of t e
  case joinReq => exact (execJoinReq_follows (.refl s)).of t e
  case joinRsp => exact (execJoinRsp_follows (.refl s)).of t e
  case relayInPush => exact (execRelayInPush_follows (.refl s)).of t e
  case relayOutTaken => exact (execRelayOutTaken_follows (.refl s)).of t e
  case heartbeat => exact (execHeartbeat_follows (.refl s)).of t e
  case hbAck => exact (execHbAck_follows (.refl s)).of t e
  case request => exact (execRequest_follows (.refl s)).of t e
  case prepare => exact (execPrepare_follows (.refl s)).of t e
  case prepAck => exact (execPrepAck_follows (.refl s)).of t e
  case prepNak => exact (execPrepNak_follows (.refl s)).of t e
  case commit => exact (execCommit_follows (.refl s)).of t e
  case abort => exact (execAbort_follows (.refl s)).of t e
  case drained => exact (execDrained_follows (.refl s)).of t e
  case fault => exact (execFault_follows (.refl s)).of t e
  case image => exact (execImage_follows (.refl s)).of t e
  case changeStart => exact (execChangeStart_follows (.refl s)).of t e
  case heartbeatTimer => exact (execHeartbeatTimer_follows (.refl s)).of t e
  case heartbeatLoss => exact (execHeartbeatLoss_follows (.refl s)).of t e
  case prepareTimeout => exact (execPrepareTimeout_follows (.refl s)).of t e
  case catchupTimeout => exact (execCatchupTimeout_follows (.refl s)).of t e
  case dieEntryTimeout => exact (execDieEntryTimeout_follows (.refl s)).of t e
  case drainWindowEnd => exact (execDrainWindowEnd_follows (.refl s)).of t e
  case lichenDrainEnd => exact (execLichenDrainEnd_follows (.refl s)).of t e
  case evDb => exact (execEvDb_follows (.refl s)).of t e
  case swDb => exact (execSwDb_follows (.refl s)).of t e
  case raise => exact (execRaise_follows (.refl s)).of t e
  case take => exact (execTake_follows (.refl s)).of t e
  case eqHeadWrite => exact (execEqHeadWrite_follows (.refl s)).of t e
  case eqEnable => exact (execEqEnable_follows (.refl s)).of t e
  case eoi => exact (execEoi_follows (.refl s)).of t e
  case bankReset => exact (execBankReset_follows (.refl s)).of t e
  case coalTimeExpiry => exact (execCoalTimeExpiry_follows (.refl s)).of t e
  case bankDelivery => exact (execBankDelivery_follows (.refl s)).of t e
  case eventRecordIssue => exact (execEventRecordIssue_follows (.refl s)).of t e
  case bwaterApply => exact (execBwaterApply_follows (.refl s)).of t e
  case starveExpiry => exact (execStarveExpiry_follows (.refl s)).of t e
  case capWindow => exact (execCapWindow_follows (.refl s)).of t e
  case fenceDomain => exact (execFenceDomain_follows (.refl s)).of t e
  case drainLimitExpiry => exact (execDrainLimitExpiry_follows (.refl s)).of t e
  case dumpWritten => exact (execDumpWritten_follows (.refl s)).of t e
  case dumpLimitExpiry => exact (execDumpLimitExpiry_follows (.refl s)).of t e
  case releaseDomain => exact (execReleaseDomain_follows (.refl s)).of t e
  case snapshotRelease => exact (execSnapshotRelease_follows (.refl s)).of t e
  case reproClear => exact (execReproClear_follows (.refl s)).of t e
  case traceGroupTimeout => exact (execTraceGroupTimeout_follows (.refl s)).of t e
  case pregWrite => exact (execPregWrite_follows (.refl s)).of t e
  case replayEnable => exact (execReplayEnable_follows (.refl s)).of t e
  case registerWrite => exact (execRegisterWrite_follows (.refl s)).of t e
  case ifetchLineReturn => exact (execIfetchLineReturn_follows (.refl s)).of t e
  case nopInstruction => exact (execNopInstruction_follows (.refl s)).of t e
  case halt => exact (execHalt_follows (.refl s)).of t e
  case trap => exact (execTrap_follows (.refl s)).of t e
  case br => exact (execBr_follows (.refl s)).of t e
  case beq => exact (execBeq_follows (.refl s)).of t e
  case bne => exact (execBne_follows (.refl s)).of t e
  case blt => exact (execBlt_follows (.refl s)).of t e
  case loop => exact (execLoop_follows (.refl s)).of t e
  case endl => exact (execEndl_follows (.refl s)).of t e
  case movi => exact (execMovi_follows (.refl s)).of t e
  case addi => exact (execAddi_follows (.refl s)).of t e
  case add => exact (execAdd_follows (.refl s)).of t e
  case sub => exact (execSub_follows (.refl s)).of t e
  case and => exact (execAnd_follows (.refl s)).of t e
  case or => exact (execOr_follows (.refl s)).of t e
  case xor => exact (execXor_follows (.refl s)).of t e
  case shl => exact (execShl_follows (.refl s)).of t e
  case shr => exact (execShr_follows (.refl s)).of t e
  case ld => exact (execLd_follows (.refl s)).of t e
  case st => exact (execSt_follows (.refl s)).of t e
  case copyInstruction => exact (execCopyInstruction_follows (.refl s)).of t e
  case put => exact (execPut_follows (.refl s)).of t e
  case get => exact (execGet_follows (.refl s)).of t e
  case send => exact (execSend_follows (.refl s)).of t e
  case recv => exact (execRecv_follows (.refl s)).of t e
  case reduce => exact (execReduce_follows (.refl s)).of t e
  case rfwd => exact (execRfwd_follows (.refl s)).of t e
  case atomInstruction => exact (execAtomInstruction_follows (.refl s)).of t e
  case waitb => exact (execWaitb_follows (.refl s)).of t e
  case sigb => exact (execSigb_follows (.refl s)).of t e
  case rsigb => exact (execRsigb_follows (.refl s)).of t e
  case allocInstruction => exact (execAllocInstruction_follows (.refl s)).of t e
  case freeInstruction => exact (execFreeInstruction_follows (.refl s)).of t e
  case sealld => exact (execSealld_follows (.refl s)).of t e
  case tstamp => exact (execTstamp_follows (.refl s)).of t e
  case fenceInstruction => exact (execFenceInstruction_follows (.refl s)).of t e
  case write => exact (execWrite_follows (.refl s)).of t e
  case read => exact (execRead_follows (.refl s)).of t e
  case atom => exact (execAtom_follows (.refl s)).of t e
  case signal => exact (execSignal_follows (.refl s)).of t e
  case poolRead => exact (execPoolRead_follows (.refl s)).of t e
  case poolWrite => exact (execPoolWrite_follows (.refl s)).of t e
  case writeAck => exact (execWriteAck_follows (.refl s)).of t e
  case readData => exact (execReadData_follows (.refl s)).of t e
  case atomRsp => exact (execAtomRsp_follows (.refl s)).of t e
  case signalRsp => exact (execSignalRsp_follows (.refl s)).of t e
  case poolData => exact (execPoolData_follows (.refl s)).of t e
  case poolAck => exact (execPoolAck_follows (.refl s)).of t e
  case linkUp => exact (execLinkUp_follows (.refl s)).of t e
  case islandIsolation => exact (execIslandIsolation_follows (.refl s)).of t e
  case islandClockThrottle => exact (execIslandClockThrottle_follows (.refl s)).of t e
  case registerRead => exact (execRegisterRead_follows (.refl s)).of t e
  case reservedInstruction => exact (execReservedInstruction_follows (.refl s)).of t e
  case coreTimerExpiry => exact (execCoreTimerExpiry_follows (.refl s)).of t e
  case dynamicAddressAssignment => exact (execDynamicAddressAssignment_follows (.refl s)).of t e
  case timebaseBackward => exact (execTimebaseBackward_follows (.refl s)).of t e

end Sys2Proof.Machine
end

