-- ==== Sys2Proof/Laws/Invariant.lean ====
section
/-! SUPPORT. The release from reset, and what every step keeps. -/

namespace Sys2Proof.Machine

variable {z s t u : State} {p : StartInput}

theorem Inv.follows (h : Inv s) (f : Follows s t) : Inv t := ⟨f.cnt h.counters, f.lc.locked h.tokens, f.sealed h.scan⟩

/-- A state on the way of RELEASE_OF_PORST_N_HM: what the release takes over from the state before it, what it samples,
and the invariant. -/
structure Started (p : StartInput) (s t : State) : Prop where
  pending : t.pending = s.pending
  mask    : t.mask = s.mask
  power   : t.power = .on
  straps  : t.straps = p.straps
  fault   : t.strapFault = strapsBad p.straps
  lc      : t.lc.state = (lcRead (Tab.get 0 (otpTab p.otp))).state
  time    : s.time.ns ≤ t.time.ns
  freeIdx : s.freeIdx ≤ t.freeIdx
  sent    : s.sent <:+ t.sent
  inv     : Inv t

theorem Started.follows (h : Started p s t) (f : Follows t u) : Started p s u where
  pending := f.pending.trans h.pending
  mask := f.mask.trans h.mask
  power := f.power.trans h.power
  straps := f.straps.trans h.straps
  fault := f.strapFault.trans h.fault
  lc := f.lc.state.trans h.lc
  time := Nat.le_trans h.time f.time
  freeIdx := Nat.le_trans h.freeIdx f.freeIdx
  sent := h.sent.trans f.sent
  inv := h.inv.follows f

theorem Started.rootUse (h : Started p s t) : Started p s (rootUse t) := by
  unfold Machine.rootUse
  dsimp only
  have hr : ∀ (st : Nat) (r : Bytes), Started p s { t with lc := { t.lc with rootState := st, root := r } } :=
    fun _ _ => ⟨h.pending, h.mask, h.power, h.straps, h.fault, h.lc, h.time, h.freeIdx, h.sent,
      ⟨h.inv.counters, h.inv.tokens, h.inv.scan⟩⟩
  have h3 : Started p s { t with lc := { t.lc with rootState := 3 } } := hr 3 t.lc.root
  split
  · exact h
  · split
    · exact hr _ _
    · split
      · exact hr _ _
      · exact h3

theorem Started.auditStart {nv : Tab Nat} (h : Started p s t) : Started p s (auditStart nv t) := by
  have ha : ∀ a : Audit, Started p s { t with audit := a } :=
    fun _ => ⟨h.pending, h.mask, h.power, h.straps, h.fault, h.lc, h.time, h.freeIdx, h.sent,
      ⟨h.inv.counters, h.inv.tokens, h.inv.scan⟩⟩
  unfold Machine.auditStart
  extract_lets key c r s'
  split
  · exact ha _
  · exact (ha _).follows (auditLog_follows (.refl _))

theorem releaseOfPorst_started (p : StartInput) (s : State) : Started p s (releaseOfPorst p s) := by
  unfold releaseOfPorst
  extract_lets nv otp lc intr on s0 s1 s2 s3 s4 s5 s6 s7 fw
  have h1 : Started p s s1 := ⟨rfl, rfl, rfl, rfl, rfl, rfl, Nat.le_refl _, Nat.le_refl _, (List.suffix_refl s.sent : s.sent <:+ s.sent),
    ⟨⟨rfl, fun _ h => nomatch h⟩, fun (h : 16 ≤ 0) => absurd h (by decide), fun h => nomatch h⟩⟩
  have f4 : Follows s1 s4 :=
    .fold (fun _ _ h => entropySample_follows h) _ (State.setIsland_follows (State.setIsland_follows (.refl s1)))
  have h5 : Started p s s5 := (h1.follows f4).follows (.ite (rootGenerate_follows (.refl s4)) (.refl s4))
  have h6 : Started p s s6 := h5.rootUse.auditStart
  have f7 : Follows s6 s7 := .ite (raisePrivOpen_follows (.refl s6)) (.refl s6)
  exact (h6.follows f7).follows (.ite (enterSafe_follows (fenceHeld_follows (.put (.refl s7) rfl))) (.refl s7))

theorem reset_inv : Inv State.reset :=
  ⟨⟨rfl, fun _ h => nomatch h⟩, fun h => absurd h (by decide), fun h => nomatch h⟩

theorem exec_inv {i : Instr} (h : Inv s) (e : exec i s = .next t) : Inv t := by
  by_cases hr : ∀ p, i ≠ .releaseOfPorstNHm p
  · by_cases hp : i = .harbourmasterPowerRemoval
    · subst hp
      injection e with e
      subst e
      split
      · exact ⟨h.counters, h.tokens, h.scan⟩
      · exact h
    · exact h.follows (exec_follows hr hp e)
  · obtain ⟨p, hp⟩ := not_forall_not.mp hr
    subst hp
    injection e with e
    exact e ▸ (releaseOfPorst_started p s).inv

end Sys2Proof.Machine
end

