-- ==== Sys2Proof/Laws/State.lean ====
section
/-! SUPPORT. Reading back what an operation put into a table of the state, and what recording an event, a count or an
audit record can change. -/

namespace Sys2Proof.Machine

variable {s t u : State}

/-! ### Reading a table after a write -/

@[simp] theorem State.eng_setEng (s : State) (i : Nat) (x : Engine) : (s.setEng i x).eng i = x := Tab.get_set_same _ _ _

theorem State.eng_setEng_other (s : State) (i j : Nat) (x : Engine) (h : j ≠ i) : (s.setEng i x).eng j = s.eng j :=
  Tab.get_set_other _ _ _ h

@[simp] theorem State.getQuay_setQuay (s : State) (i : Nat) (x : Quay) : (s.setQuay i x).getQuay i = x := Tab.get_set_same _ _ _

theorem State.getQuay_setQuay_other (s : State) (i j : Nat) (x : Quay) (h : j ≠ i) : (s.setQuay i x).getQuay j = s.getQuay j :=
  Tab.get_set_other _ _ _ h

@[simp] theorem State.getSess_setSess (s : State) (i : Nat) (x : Session) : (s.setSess i x).getSess i = x := Tab.get_set_same _ _ _

theorem State.getSess_setSess_other (s : State) (i j : Nat) (x : Session) (h : j ≠ i) : (s.setSess i x).getSess j = s.getSess j :=
  Tab.get_set_other _ _ _ h

@[simp] theorem State.getMoor_setMoor (s : State) (i : Nat) (x : Mooring) : (s.setMoor i x).getMoor i = x := Tab.get_set_same _ _ _

theorem State.getMoor_setMoor_other (s : State) (i j : Nat) (x : Mooring) (h : j ≠ i) : (s.setMoor i x).getMoor j = s.getMoor j :=
  Tab.get_set_other _ _ _ h

@[simp] theorem State.getQueue_setQueue (s : State) (i : Nat) (x : SubQueue) : (s.setQueue i x).getQueue i = x := Tab.get_set_same _ _ _

theorem State.getQueue_setQueue_other (s : State) (i j : Nat) (x : SubQueue) (h : j ≠ i) : (s.setQueue i x).getQueue j = s.getQueue j :=
  Tab.get_set_other _ _ _ h

@[simp] theorem State.getObj_setObj (s : State) (i : Nat) (x : Obj) : (s.setObj i x).getObj i = x := Tab.get_set_same _ _ _

theorem State.getObj_setObj_other (s : State) (i j : Nat) (x : Obj) (h : j ≠ i) : (s.setObj i x).getObj j = s.getObj j :=
  Tab.get_set_other _ _ _ h

@[simp] theorem State.getBoll_setBoll (s : State) (i : Nat) (x : Bollard) : (s.setBoll i x).getBoll i = x := Tab.get_set_same _ _ _

theorem State.getBoll_setBoll_other (s : State) (i j : Nat) (x : Bollard) (h : j ≠ i) : (s.setBoll i x).getBoll j = s.getBoll j :=
  Tab.get_set_other _ _ _ h

@[simp] theorem State.getBerth_setBerth (s : State) (i : Nat) (x : Berth) : (s.setBerth i x).getBerth i = x := Tab.get_set_same _ _ _

theorem State.getBerth_setBerth_other (s : State) (i j : Nat) (x : Berth) (h : j ≠ i) : (s.setBerth i x).getBerth j = s.getBerth j :=
  Tab.get_set_other _ _ _ h

@[simp] theorem State.getKmap_setKmap (s : State) (i : Nat) (x : KmapEnt) : (s.setKmap i x).getKmap i = x := Tab.get_set_same _ _ _

theorem State.getKmap_setKmap_other (s : State) (i j : Nat) (x : KmapEnt) (h : j ≠ i) : (s.setKmap i x).getKmap j = s.getKmap j :=
  Tab.get_set_other _ _ _ h

@[simp] theorem State.getEq_setEq (s : State) (i : Nat) (x : EvQueue) : (s.setEq i x).getEq i = x := Tab.get_set_same _ _ _

theorem State.getEq_setEq_other (s : State) (i j : Nat) (x : EvQueue) (h : j ≠ i) : (s.setEq i x).getEq j = s.getEq j :=
  Tab.get_set_other _ _ _ h

@[simp] theorem State.getBank_setBank (s : State) (i : Nat) (x : Bank) : (s.setBank i x).getBank i = x := Tab.get_set_same _ _ _

theorem State.getBank_setBank_other (s : State) (i j : Nat) (x : Bank) (h : j ≠ i) : (s.setBank i x).getBank j = s.getBank j :=
  Tab.get_set_other _ _ _ h

@[simp] theorem State.getSlot_setSlot (s : State) (i : Nat) (x : Slot) : (s.setSlot i x).getSlot i = x := Tab.get_set_same _ _ _

theorem State.getSlot_setSlot_other (s : State) (i j : Nat) (x : Slot) (h : j ≠ i) : (s.setSlot i x).getSlot j = s.getSlot j :=
  Tab.get_set_other _ _ _ h

@[simp] theorem State.getDom_setDom (s : State) (i : Nat) (x : Dom) : (s.setDom i x).getDom i = x := Tab.get_set_same _ _ _

theorem State.getDom_setDom_other (s : State) (i j : Nat) (x : Dom) (h : j ≠ i) : (s.setDom i x).getDom j = s.getDom j :=
  Tab.get_set_other _ _ _ h

@[simp] theorem State.getIsland_setIsland (s : State) (i : Nat) (x : Island) : (s.setIsland i x).getIsland i = x := Tab.get_set_same _ _ _

theorem State.getIsland_setIsland_other (s : State) (i j : Nat) (x : Island) (h : j ≠ i) : (s.setIsland i x).getIsland j = s.getIsland j :=
  Tab.get_set_other _ _ _ h

/-! ### Events, counts and records -/

/-- `t` is `s` after events, counts, port transfers and audit records: nothing else differs. -/
structure Noted (s t : State) : Prop where
  of : ∃ e h c o a f, t = { s with
    ev := e, fault := { s.fault with heldPriv := h }, cnt := c, sent := o, audit := a, freeIdx := f }

theorem Noted.refl (s : State) : Noted s s := ⟨_, _, _, _, _, _, rfl⟩

theorem Noted.trans (h : Noted s t) (g : Noted t u) : Noted s u := by
  obtain ⟨_, _, _, _, _, _, rfl⟩ := h
  obtain ⟨_, _, _, _, _, _, rfl⟩ := g
  exact ⟨_, _, _, _, _, _, rfl⟩

theorem Noted.ite {c : Prop} [Decidable c] (h : Noted s t) (g : Noted s u) : Noted s (if c then t else u) := by
  split <;> assumption

theorem Noted.foldl {α : Type} {f : State → α → State} (hf : ∀ s x, Noted s (f s x)) :
    ∀ (l : List α) (s : State), Noted s (l.foldl f s)
  | [], s => .refl s
  | x :: l, s => (hf s x).trans (Noted.foldl hf l (f s x))

theorem bumpBy_noted (n a : Nat) (s : State) : Noted s (bumpBy n a s) := ⟨_, _, _, _, _, _, rfl⟩

theorem bump_noted (a : Nat) (s : State) : Noted s (bump a s) := bumpBy_noted 1 a s

theorem emit_noted (o : PortOut) (s : State) : Noted s (emit o s) := ⟨_, _, _, _, _, _, rfl⟩

/-- A work item of an island changes its heartbeat count alone. -/
theorem beat_eq (i : Nat) (s : State) : ∃ n, beat i s = s.setIsland i { s.getIsland i with hbCount := n } ∨ beat i s = s := by
  refine ⟨((s.getIsland i).hbCount + 1) % 2 ^ 32, ?_⟩
  unfold beat
  dsimp only
  split
  · exact .inr rfl
  · exact .inl rfl

theorem putRecord_noted (r : EvRec) (s : State) : Noted s (putRecord r s) :=
  .ite (.ite ⟨_, _, _, _, _, _, rfl⟩ (bump_noted _ s)) ⟨_, _, _, _, _, _, rfl⟩

theorem raiseTo_noted (x : EvTarget) (d : Bytes) (s : State) : Noted s (raiseTo x d s) :=
  .ite (putRecord_noted _ s) (bump_noted _ s)

theorem raiseBoth_noted (st : Status) (unit code ten ctx index detail : Nat) (s : State) :
    Noted s (raiseBoth st unit code ten ctx index detail s) := by
  unfold raiseBoth
  dsimp only
  split
  · exact raiseTo_noted _ _ s
  · exact (raiseTo_noted _ _ s).trans (raiseTo_noted _ _ _)

theorem raisePriv_noted (src st unit code index detail : Nat) (s : State) :
    Noted s (raisePriv src st unit code index detail s) := putRecord_noted _ s

theorem raisePrivOpen_noted (src unit code index detail : Nat) (s : State) :
    Noted s (raisePrivOpen src unit code index detail s) :=
  Noted.trans ⟨_, _, _, _, _, _, rfl⟩ (raisePriv_noted ..)

theorem raiseHm_noted (src : Nat) (s : State) : Noted s (raiseHm src s) := ⟨_, _, _, _, _, _, rfl⟩

theorem nvPush_noted (r : NvReq) (s : State) : Noted s (nvPush r s) :=
  .ite ⟨_, _, _, _, _, _, rfl⟩ ⟨_, _, _, _, _, _, rfl⟩

theorem otpPush_noted (r : OtpReq) (s : State) : Noted s (otpPush r s) :=
  .ite ⟨_, _, _, _, _, _, rfl⟩ ⟨_, _, _, _, _, _, rfl⟩

theorem auditWords_noted (d : Bytes) (seq : Nat) (s : State) : Noted s (auditWords d seq s) := by
  have h : Noted s ([1, 2, 3, 4, 5, 6, 7, 0].foldl (fun s w =>
      nvPush ⟨true, 0x20000 + (seq - 1) % 16384 * 8 + w, leNat (slice (8 * w) 8 d), .audit d w⟩ s) s) :=
    .foldl (fun s _ => nvPush_noted _ s) _ s
  exact .ite (h.trans (.foldl (fun s _ => nvPush_noted _ s) _ _)) h

theorem auditMirror_noted (d : Bytes) (s : State) : Noted s (auditMirror d s) :=
  .ite (.refl s) (.ite ⟨_, _, _, _, _, _, rfl⟩ ⟨_, _, _, _, _, _, rfl⟩)

theorem auditLog_noted (kind : Nat) (st : Status) (master world tenant addr value : Nat) (s : State) :
    Noted s (auditLog kind st master world tenant addr value s) :=
  Noted.trans (Noted.trans (⟨_, _, _, _, _, _, rfl⟩ : Noted s { s with audit := _ }) (auditWords_noted ..)) (auditMirror_noted ..)

theorem mbRefuse_noted (code : Nat) (st : Status) (s : State) : Noted s (mbRefuse code st s) := auditLog_noted ..

/-- The end of a mailbox command: its status and result, a record, and Harbourmaster's heartbeat. -/
theorem mbEnd_eq (st : Status) (res : Nat) (s : State) :
    ∃ t, Noted { s with mbox := { s.mbox with
      busy := false, result := st.code, endNs := s.now, res := Tab.set 0 [] 0 res, sess := none } } t ∧
      mbEnd st res s = beat 25 t :=
  ⟨_, putRecord_noted _ _, rfl⟩

end Sys2Proof.Machine
end

