-- ==== Sys2Proof/WellFormed.lean ====
section
/-! DEFINITION. When a command's operands fit the ports, registers and tables they come from. -/

namespace Sys2Proof

/-- A master: a virtual function number has 12 bits (R86). -/
def Master.wf : Master → Bool
  | .prity => true
  | .pf => true
  | .vf n _ => decide (n < 4096)

/-- A function: a virtual function number has 12 bits (R86). -/
def Fn.wf : Fn → Bool
  | .pf => true
  | .vf n => decide (n < 4096)

/-- A channel names a function that can exist. -/
def Channel.wf : Channel → Bool
  | .sideband => true
  | .doe f => f.wf

/-- A session identifier has 32 bits. -/
def SpdmHdr.wf (h : SpdmHdr) : Bool := h.ch.wf && h.sess.all (· < 2 ^ 32)

/-- Widths of an upstream request's fields (R55). -/
def UpReq.wf (r : UpReq) : Bool :=
  decide (r.op < 4) && decide (r.addr < 2 ^ 64) && decide (r.lines < 4) && decide (r.id < 256) &&
  decide (r.ord < 16) && decide (r.ten < 512) && decide (r.ctx < 2 ^ 20)

/-- Widths of a flit packet's fields (R76, R78). -/
def Flit.wf (p : Flit) : Bool :=
  decide (p.sess < 2 ^ 16) && decide (p.typ < 16) && decide (p.ten < 512) && decide (p.ctx < 2 ^ 20) &&
  decide (1 ≤ p.data.length) && decide (p.data.length ≤ 2048)

/-- Widths of the straps (R114). -/
def Straps.wf (t : Straps) : Bool :=
  decide (t.dieId < 8) && decide (t.dieCount < 16) && decide (t.ideStreams < 16) &&
  decide (t.sbSaddr < 128) && decide (t.sbPid < 2 ^ 48)

/-- OTP has 128 words of 64 bits, the NV store 2^18 (R101, R106). -/
def StartInput.wf (p : StartInput) : Bool :=
  p.straps.wf && decide (p.otp.length = 128) && p.otp.all (· < 2 ^ 64) &&
  p.nv.all (fun x => decide (x.1 < 2 ^ 18) && decide (x.2 < 2 ^ 64)) && decide (p.rootReadback.length ≤ 8)

/-- Widths of a register access (R86). -/
def Access.wf (a : Access) : Bool :=
  a.m.wf && decide (a.addr < 2 ^ 23) && decide (a.data < 2 ^ (if a.wide then 64 else 32)) && decide (a.tag < 256)

/-- A P-384 ephemeral key has 96 bytes, a leaf hash 48 (R457). -/
def KexReq.wf (r : KexReq) : Bool :=
  decide (r.exchange.length = 96) && r.leafHash.all (·.length = 48)

/-- Widths of IDE_KM fields (R96). -/
def IdeKm.wf (k : IdeKm) : Bool :=
  decide (k.stream < 256) && decide (k.kset < 2) && decide (k.dir < 2) && decide (k.sub < 16) &&
  decide (k.port < 256) && decide (k.key < 2 ^ 256) && decide (k.ifv < 2 ^ 64)

/-- Widths of GET_OBJECT fields (R460). -/
def ObjReq.wf (r : ObjReq) : Bool :=
  decide (r.obj < 65536) && decide (r.nonce.length = 32) && decide (r.offset < 2 ^ 32) && decide (r.length < 2 ^ 32)

/-- Eight operands of 64 bits and at most 32 KiB of data (R339). -/
def MboxReq.wf (r : MboxReq) : Bool :=
  decide (r.cmd < 256) && decide (r.opers.length ≤ 8) && r.opers.all (· < 2 ^ 64) && decide (r.data.length ≤ 32768)

/-- Every operand of a command fits where it comes from. -/
def Instr.wf : Instr → Bool
  | .releaseOfPorstNHm p => p.wf
  | .dataPathIslandRelease island => decide (island < 27)
  | .prityStartupDone bistFail => decide (bistFail < 2 ^ 27)
  | .islandPowerRemoval island => decide (island < 27)
  | .harbourmasterPowerRemoval => true
  | .prityRestart _ => true
  | .upstreamRequest engine lane r => decide (engine < 8) && decide (lane < 12) && r.wf
  | .requestWithdrawal engine lane r => decide (engine < 8) && decide (lane < 12) && r.wf
  | .writeDataBeat engine lane data be => decide (engine < 8) && decide (lane < 12) && decide (data.length = 128) && decide (be < 2 ^ 128)
  | .chainHandoff engine entry => decide (engine < 8) && decide (entry < 64)
  | .downstreamIssue engine ready qlvl => decide (engine < 8) && decide (ready < 2 ^ 16) && decide (qlvl < 16)
  | .downstreamReadResponse engine id data sb _ => decide (engine < 8) && decide (id < 1024) && decide (data.length = 128) && decide (sb < 2 ^ 64)
  | .downstreamWriteComplete engine id _ => decide (engine < 8) && decide (id < 1024)
  | .lichenInit m engine => m.wf && decide (engine < 8)
  | .lichenFlush m engine => m.wf && decide (engine < 8)
  | .frzStateWrite region state => decide (region < 64) && decide (state < 4)
  | .rekeyStart => true
  | .tideJobStart engine => decide (engine < 8)
  | .tidePaceWindow engine => decide (engine < 8)
  | .tideTurn engine => decide (engine < 8)
  | .flitPacket quay p => decide (quay < 16) && p.wf
  | .frameStart quay => decide (quay < 16)
  | .receivedFrame quay _ _ _ => decide (quay < 16)
  | .releaseFrame sess => decide (sess < 4096)
  | .ackDelayExpiry sess => decide (sess < 4096)
  | .retransmission sess seq => decide (sess < 4096) && decide (seq < 2 ^ 63)
  | .retransmissionLimit sess seq => decide (sess < 4096) && decide (seq < 2 ^ 63)
  | .generationMove sess => decide (sess < 4096)
  | .rxKeyDerived sess => decide (sess < 4096)
  | .linkDown quay => decide (quay < 16)
  | .migrationMoveComplete sess => decide (sess < 4096)
  | .probeRepeat sess => decide (sess < 4096)
  | .gwFlushTime quay sess => decide (quay < 16) && decide (sess < 4096)
  | .quayCtrlWrite m quay value => m.wf && decide (quay < 16) && decide (value < 2 ^ 64)
  | .sessionOpen => true
  | .sessionClose => true
  | .sessionMigrate => true
  | .sessionRotate => true
  | .operandArrival slot chunk => decide (slot < 1024) && decide (chunk < 2 ^ 32)
  | .chunkStoreDone slot chunk => decide (slot < 1024) && decide (chunk < 2 ^ 32)
  | .sqDoorbell m queue tail => m.wf && decide (queue < 4096) && decide (tail < 2 ^ 64)
  | .ringFetch queue => decide (queue < 4096)
  | .queueEnable m queue value => m.wf && decide (queue < 4096) && decide (value < 2 ^ 64)
  | .nop queue => decide (queue < 4096)
  | .objRegisterMemory queue => decide (queue < 4096)
  | .objRegisterBollard queue => decide (queue < 4096)
  | .objFree queue => decide (queue < 4096)
  | .objectReferencesZero obj => decide (obj < 131072)
  | .copy queue => decide (queue < 4096)
  | .programLaunch queue => decide (queue < 4096)
  | .bollardSignalAdd queue => decide (queue < 4096)
  | .bollardSignalReset queue => decide (queue < 4096)
  | .bollardWait queue => decide (queue < 4096)
  | .alloc queue => decide (queue < 4096)
  | .free queue => decide (queue < 4096)
  | .sealLoad queue => decide (queue < 4096)
  | .sealAbort queue => decide (queue < 4096)
  | .regionRelease queue => decide (queue < 4096)
  | .keyUnwrap queue => decide (queue < 4096)
  | .queryContext queue => decide (queue < 4096)
  | .contextRetire queue => decide (queue < 4096)
  | .allocDbAlloc m value => m.wf && decide (value < 2 ^ 64)
  | .allocDbFree m value => m.wf && decide (value < 2 ^ 64)
  | .quoteInstance => true
  | .quotePackage => true
  | .fwBegin => true
  | .fwData => true
  | .fwVerify => true
  | .fwActivate => true
  | .fwCommit => true
  | .fwRevert => true
  | .fwAbort => true
  | .imageReady => true
  | .activateTimeout => true
  | .tenantAdmit => true
  | .tenantRemove => true
  | .domainChangeCipher => true
  | .domainChangeDebug => true
  | .domainChangeBwater => true
  | .domainChangeInj => true
  | .bistRun => true
  | .bistComplete island _ => decide (island < 27)
  | .lcTransition => true
  | .eraseUserSecrets => true
  | .gen value => decide (value < 2 ^ 64)
  | .derive value => decide (value < 2 ^ 64)
  | .zeroise value => decide (value < 2 ^ 64)
  | .setState value => decide (value < 2 ^ 64)
  | .setMasters value => decide (value < 2 ^ 64)
  | .unwrap value => decide (value < 2 ^ 64)
  | .kmapWrite value => decide (value < 2 ^ 64)
  | .entropySample _ => true
  | .entropyRetryExpiry => true
  | .nvResponse data _ => decide (data < 2 ^ 64)
  | .otpResponse data => decide (data < 2 ^ 64)
  | .doeObject f dwords => f.wf && dwords.all (· < 2 ^ 32)
  | .evErr f => f.wf
  | .idekAck status => decide (status < 256)
  | .d2dMessage src msg => decide (src < 8) && (decide (msg.length ≤ 256) && decide (msg.length % 32 = 0))
  | .gtrig => true
  | .freezeAt => true
  | .dftScanReq => true
  | .dftBistStart island => decide (island < 27)
  | .getVersion h => h.wf
  | .getCapabilities h => h.wf
  | .negotiateAlgorithms h => h.wf
  | .getDigests h => h.wf
  | .getCertificate h slot offset length => h.wf && decide (slot < 1024) && decide (offset < 65536) && decide (length < 65536)
  | .challenge h slot nonce => h.wf && decide (slot < 1024) && decide (nonce.length = 32)
  | .getMeasurements h index nonce => h.wf && decide (index < 256) && decide (nonce.length = 32)
  | .keyExchange h r => h.wf && r.wf
  | .finish h verify => h.wf && decide (verify.length = 48)
  | .spdmHeartbeat h => h.wf
  | .keyUpdate h _ => h.wf
  | .endSession h => h.wf
  | .respondIfReady h => h.wf
  | .unsupportedRequest h code => h.wf && decide (code < 256)
  | .getObject h r => h.wf && r.wf
  | .pqBind h _ => h.wf
  | .setOwnerKey h hash => h.wf && decide (hash.length = 48)
  | .vendorMbox h r => h.wf && r.wf
  | .getTdispVersion h vf => h.wf && decide (vf < 4096)
  | .getTdispCapabilities h vf => h.wf && decide (vf < 4096)
  | .lockInterfaceRequest h vf stream _ => h.wf && decide (vf < 4096) && decide (stream < 256)
  | .getDeviceInterfaceReport h vf => h.wf && decide (vf < 4096)
  | .getDeviceInterfaceState h vf => h.wf && decide (vf < 4096)
  | .startInterfaceRequest h vf nonce => h.wf && decide (vf < 4096) && decide (nonce.length = 32)
  | .stopInterfaceRequest h vf => h.wf && decide (vf < 4096)
  | .tdispUnsupported h vf => h.wf && decide (vf < 4096)
  | .ideKmQuery h port => h.wf && decide (port < 256)
  | .keyProg h k => h.wf && k.wf
  | .kSetGo h k => h.wf && k.wf
  | .kSetStop h k => h.wf && k.wf
  | .form m value => m.wf && decide (value < 2 ^ 64)
  | .joinReq => true
  | .joinRsp => true
  | .relayInPush m value => m.wf && decide (value < 2 ^ 64)
  | .relayOutTaken m => m.wf
  | .heartbeat => true
  | .hbAck => true
  | .request => true
  | .prepare => true
  | .prepAck => true
  | .prepNak => true
  | .commit => true
  | .abort => true
  | .drained => true
  | .fault => true
  | .image => true
  | .changeStart => true
  | .heartbeatTimer => true
  | .heartbeatLoss => true
  | .prepareTimeout => true
  | .catchupTimeout => true
  | .dieEntryTimeout => true
  | .drainWindowEnd mooring => decide (mooring < 256)
  | .lichenDrainEnd mooring => decide (mooring < 256)
  | .evDb m value => m.wf && decide (value < 2 ^ 64)
  | .swDb m value => m.wf && decide (value < 2 ^ 64)
  | .raise core src => decide (core < 4) && decide (src < 32)
  | .take core src => decide (core < 4) && decide (src < 32)
  | .eqHeadWrite m queue head => m.wf && decide (queue < 256) && decide (head < 2 ^ 64)
  | .eqEnable m queue value => m.wf && decide (queue < 256) && decide (value < 2 ^ 64)
  | .eoi m core prio => m.wf && decide (core < 4) && decide (prio < 2 ^ 64)
  | .bankReset m core => m.wf && decide (core < 4)
  | .coalTimeExpiry queue => decide (queue < 256)
  | .bankDelivery bank => decide (bank < 264)
  | .eventRecordIssue => true
  | .bwaterApply m => m.wf
  | .starveExpiry engine op => decide (engine < 8) && decide (op < 2 ^ 64)
  | .capWindow engine => decide (engine < 8)
  | .fenceDomain m domain => m.wf && decide (domain < 34)
  | .drainLimitExpiry domain => decide (domain < 34)
  | .dumpWritten domain => decide (domain < 34)
  | .dumpLimitExpiry domain => decide (domain < 34)
  | .releaseDomain m domain => m.wf && decide (domain < 34)
  | .snapshotRelease m => m.wf
  | .reproClear m => m.wf
  | .traceGroupTimeout ring => decide (ring < 257)
  | .pregWrite m index value => m.wf && decide (index < 256) && decide (value < 2 ^ 64)
  | .replayEnable m value => m.wf && decide (value < 2 ^ 64)
  | .registerWrite a => a.wf
  | .ifetchLineReturn quay => decide (quay < 16)
  | .nopInstruction quay strand => decide (quay < 16) && decide (strand < 4)
  | .halt quay strand => decide (quay < 16) && decide (strand < 4)
  | .trap quay strand => decide (quay < 16) && decide (strand < 4)
  | .br quay strand => decide (quay < 16) && decide (strand < 4)
  | .beq quay strand => decide (quay < 16) && decide (strand < 4)
  | .bne quay strand => decide (quay < 16) && decide (strand < 4)
  | .blt quay strand => decide (quay < 16) && decide (strand < 4)
  | .loop quay strand => decide (quay < 16) && decide (strand < 4)
  | .endl quay strand => decide (quay < 16) && decide (strand < 4)
  | .movi quay strand => decide (quay < 16) && decide (strand < 4)
  | .addi quay strand => decide (quay < 16) && decide (strand < 4)
  | .add quay strand => decide (quay < 16) && decide (strand < 4)
  | .sub quay strand => decide (quay < 16) && decide (strand < 4)
  | .and quay strand => decide (quay < 16) && decide (strand < 4)
  | .or quay strand => decide (quay < 16) && decide (strand < 4)
  | .xor quay strand => decide (quay < 16) && decide (strand < 4)
  | .shl quay strand => decide (quay < 16) && decide (strand < 4)
  | .shr quay strand => decide (quay < 16) && decide (strand < 4)
  | .ld quay strand => decide (quay < 16) && decide (strand < 4)
  | .st quay strand => decide (quay < 16) && decide (strand < 4)
  | .copyInstruction quay strand => decide (quay < 16) && decide (strand < 4)
  | .put quay strand => decide (quay < 16) && decide (strand < 4)
  | .get quay strand => decide (quay < 16) && decide (strand < 4)
  | .send quay strand => decide (quay < 16) && decide (strand < 4)
  | .recv quay strand => decide (quay < 16) && decide (strand < 4)
  | .reduce quay strand => decide (quay < 16) && decide (strand < 4)
  | .rfwd quay strand => decide (quay < 16) && decide (strand < 4)
  | .atomInstruction quay strand => decide (quay < 16) && decide (strand < 4)
  | .waitb quay strand => decide (quay < 16) && decide (strand < 4)
  | .sigb quay strand => decide (quay < 16) && decide (strand < 4)
  | .rsigb quay strand => decide (quay < 16) && decide (strand < 4)
  | .allocInstruction quay strand => decide (quay < 16) && decide (strand < 4)
  | .freeInstruction quay strand => decide (quay < 16) && decide (strand < 4)
  | .sealld quay strand => decide (quay < 16) && decide (strand < 4)
  | .tstamp quay strand => decide (quay < 16) && decide (strand < 4)
  | .fenceInstruction quay strand => decide (quay < 16) && decide (strand < 4)
  | .write quay => decide (quay < 16)
  | .read quay => decide (quay < 16)
  | .atom quay => decide (quay < 16)
  | .signal quay => decide (quay < 16)
  | .poolRead quay => decide (quay < 16)
  | .poolWrite quay => decide (quay < 16)
  | .writeAck quay => decide (quay < 16)
  | .readData quay => decide (quay < 16)
  | .atomRsp quay => decide (quay < 16)
  | .signalRsp quay => decide (quay < 16)
  | .poolData quay => decide (quay < 16)
  | .poolAck quay => decide (quay < 16)
  | .linkUp quay => decide (quay < 16)
  | .islandIsolation island _ => decide (island < 27)
  | .islandClockThrottle island setting cap => decide (island < 27) && decide (setting < 16) && cap.all (· < 65536)
  | .registerRead a => a.wf
  | .reservedInstruction quay strand => decide (quay < 16) && decide (strand < 4)
  | .coreTimerExpiry core => decide (core < 4)
  | .dynamicAddressAssignment entdaa => entdaa.all (· < 128)
  | .timebaseBackward ns => decide (ns < 2 ^ 64)

end Sys2Proof
end

