-- ==== Sys2Proof/Tests/Slice0.lean ====
section
/-! SUPPORT. The model's own tests. -/

namespace Sys2Proof.Tests
theorem test_wf_stub : (Instr.gtrig).wf = true := by decide
end Sys2Proof.Tests
end

section
/-! Register reads by the host that the block refuses (R37). -/

namespace Sys2Proof.Machine

/-! ### What a register read answers -/

/-- A command that only changes the state does so on a block that runs. -/
theorem live_of_on {f : State → State} {s : State} (hon : s.power = .on) : live f s = .next (f s) := by
  simp [live, hon]

/-- A world's read is answered on the host register port with what `regRead` finds, while the audit buffer has room
(R595). -/
theorem exec_registerRead_of_regRead {x : Access} {s t : State} {v : Nat} (hon : s.power = .on)
    (hroom : s.auditFull = false) (hm : x.m ≠ .prity) (hread : regRead x.m x.addr x.wide s = (v, t)) :
    exec (.registerRead x) s = .next (emit (.hrRsp x.tag v) t) := by
  have hanswer : registerRead x s = emit (.hrRsp x.tag v) t := by
    simp [registerRead, hm, hroom, hread]
  calc exec (.registerRead x) s = live (registerRead x) s := rfl
    _ = .next (registerRead x s) := live_of_on hon
    _ = .next (emit (.hrRsp x.tag v) t) := by rw [hanswer]

/-- An aligned read of a place outside the reader's reach is zero, and FAULT counts it (R33, R37). -/
theorem regRead_of_unreached {m : Master} {a : Nat} {wide : Bool} {s : State} (ha : misaligned a wide = false)
    (hreach : s.reach m a = none) : regRead m a wide s = (0, bump (permAddr 0) s) := by
  simp [regRead, ha, hreach, permFault]

/-- A read of a register that the reader may not see is zero, and is counted by the unit that holds it (R37). -/
theorem regRead_of_denied {m : Master} {a b : Nat} {wide : Bool} {r : Reg} {s : State}
    (ha : misaligned a wide = false) (hreach : s.reach m a = some b) (hrange : reservedRange b = false)
    (hthere : s.unreachable b = false) (hreg : s.regAt m (b / 8 * 8) = some r) (hdeny : r.deny = true) :
    regRead m a wide s = (0, bump (permAddr b) s) := by
  simp [regRead, ha, hreach, hrange, hthere, hreg, hdeny, permFault]

end Sys2Proof.Machine

namespace Sys2Proof.Proofs

open Sys2Proof.Machine Sys2Proof.Claims

/-- Settles O22: both refusals are values of `regRead`, and the read answers with that value. -/
theorem refusedReadIsZeroAndCounted : Obligations.RefusedReadIsZeroAndCounted := by
  unfold Obligations.RefusedReadIsZeroAndCounted
  intro x s hon hroom hm ha
  refine ⟨fun hreach => ?_, fun b r hreach hrange hthere hreg hdeny => ?_⟩
  · exact exec_registerRead_of_regRead hon hroom hm (regRead_of_unreached ha hreach)
  · exact exec_registerRead_of_regRead hon hroom hm (regRead_of_denied ha hreach hrange hthere hreg hdeny)

/-- A block that runs and has done nothing yet. -/
def bareBlock : State := { power := .on }

/-- O22's first case is met: the owner reads a mooring's window, which no address of its own reaches (R34, R88). -/
theorem ownerRead_mooringWindow_refused :
    exec (.registerRead ⟨.pf, winBase 0, true, 0, 7⟩) bareBlock =
      .next (emit (.hrRsp 7 0) (bump (permAddr 0) bareBlock)) :=
  (refusedReadIsZeroAndCounted ⟨.pf, winBase 0, true, 0, 7⟩ bareBlock rfl rfl nofun rfl).1 rfl

/-- O22's second case is met: the owner reads the key-derivation context, which only Prity sees, and KEYLC's own
counter counts it (the access list of the KEYLC registers). -/
theorem ownerRead_kdfContext_refused :
    exec (.registerRead ⟨.pf, keyBase + 0x200, true, 0, 7⟩) bareBlock =
      .next (emit (.hrRsp 7 0) (bump (keyBase + 0x430) bareBlock)) :=
  (refusedReadIsZeroAndCounted ⟨.pf, keyBase + 0x200, true, 0, 7⟩ bareBlock rfl rfl nofun rfl).2
    (keyBase + 0x200) _ rfl rfl rfl rfl rfl

end Sys2Proof.Proofs
end

section
/-! The register instructions of a strand: how an issued word runs, the values of its fields, and what each
instruction writes (R343, R346, R357, R376). -/

namespace Sys2Proof.Machine

open Sys2Proof.Claims

/-! ### An issued word runs -/

/-- A command that can bring waiting work forward acts, and settles, on a block that runs. -/
theorem run_of_on {f : State → State} {s : State} (hon : s.power = .on) : run f s = .next (settle (f s)) :=
  live_of_on hon

/-- A word of the row's opcodes that a strand issues, with no reserved bit set, takes effect on the issued state
(R345, R346, R350). -/
theorem issue_of_issues {q k w : Nat} {sel : Nat → Bool} {f : Nat → State → State} {s : State}
    (hiss : Issues q k w s) (hres : wordReserved w = false) (hsel : sel (opcodeOf w) = true) :
    issue q k sel f s = f w (issued q k s) := by
  obtain ⟨-, hruns, hopen, hturn, hword, hsess⟩ := hiss
  cases hi : insSession (s.getStrand q k) w with
  | none => simp [issue, issued, hruns, hopen, hturn, hword, hsel, hres, hi]
  | some i =>
    have hstill : ¬ (i < 4096 ∧ (s.getSess i).state = .migrating) := fun h => hsess i hi h.1 h.2
    simp [issue, issued, hruns, hopen, hturn, hword, hsel, hres, hi, hstill]

/-- The row of an opcode carries out the word that its strand issues. -/
theorem insRow_of_issues {op q k w : Nat} {f : Nat → Nat → Nat → State → State} {s t : State}
    (hiss : Issues q k w s) (hres : wordReserved w = false) (heffect : f q k w (issued q k s) = t)
    (hop : opcodeOf w = op) : insRow op q k f s = .next (settle t) := by
  have ⟨hon, _⟩ := hiss
  rw [insRow, run_of_on hon, issue_of_issues hiss hres (by simp [hop]), heffect]

/-! ### Fields and operands as bit vectors -/

/-- A field that names a register has four bits. -/
theorem bits_four_eq (lo w : Nat) : bits lo 4 w = w / 2 ^ lo % 16 := by
  simp [bits, Nat.shiftRight_eq_div_pow]

theorem Strand.reg_eq_toNat (x : Strand) (i : Nat) : x.reg i = (gReg x i).toNat := by
  unfold Strand.reg gReg
  split <;> rfl

theorem insA_eq_toNat (x : Strand) (w : Nat) : insA x w = (gReg x (w / 2 ^ 48 % 16)).toNat := by
  rw [insA, bits_four_eq, Strand.reg_eq_toNat]

theorem regB_eq_toNat (x : Strand) (w : Nat) : x.reg (bits 44 4 w) = (gReg x (w / 2 ^ 44 % 16)).toNat := by
  rw [bits_four_eq, Strand.reg_eq_toNat]

/-- DISP and IMM are the word's low 32 bits read as a signed number. -/
theorem disp32_eq_toInt (w : Nat) : disp32 w = (BitVec.ofNat 32 w).toInt := by
  rw [disp32, signed32, BitVec.toInt_eq_toNat_cond, BitVec.toNat_ofNat]
  split <;> split <;> omega

theorem insImm_eq_toNat (w : Nat) : insImm w = (gImm w).toNat := by
  rw [insImm, disp32_eq_toInt, pat64, gImm, BitVec.signExtend, BitVec.toNat_ofInt]
  rfl

/-- X is gB, or IMM where I is 1 (R357). -/
theorem insX_eq_toNat (x : Strand) (w : Nat) : insX x w = (gX x w).toNat := by
  rw [insX, gX, bit1]
  split
  · exact insImm_eq_toNat w
  · exact regB_eq_toNat x w

/-- The 48-bit IMM of MOVI, sign-extended: its bit 47 fills the 16 bits above it. -/
theorem ofNat_imm48_eq_signExtend (w : Nat) :
    BitVec.ofNat 64 (if bit1 47 w then w % 2 ^ 48 + (2 ^ 64 - 2 ^ 48) else w % 2 ^ 48) =
      (BitVec.ofNat 48 w).signExtend 64 := by
  have hmsb : (BitVec.ofNat 48 w).msb = bit1 47 w := by
    rw [BitVec.msb_eq_getLsbD_last, BitVec.getLsbD_ofNat]
    rfl
  apply BitVec.eq_of_toNat_eq
  rw [BitVec.toNat_signExtend, hmsb, BitVec.toNat_setWidth, BitVec.toNat_ofNat, BitVec.toNat_ofNat]
  split <;> omega

/-- Modulo 2^64, multiplying by a power of 2 shifts left. -/
theorem ofNat_mul_two_pow (v n : Nat) : BitVec.ofNat 64 (v * 2 ^ n) = BitVec.ofNat 64 v <<< n := by
  apply BitVec.eq_of_toNat_eq
  simp [Nat.shiftLeft_eq]

/-- Dividing 64 bits by a power of 2 shifts right. -/
theorem ofNat_toNat_div_two_pow (a : BitVec 64) (n : Nat) : BitVec.ofNat 64 (a.toNat / 2 ^ n) = a >>> n := by
  rw [← Nat.shiftRight_eq_div_pow, ← BitVec.toNat_ushiftRight, BitVec.ofNat_toNat, BitVec.setWidth_eq]

/-- The difference modulo 2^64, with 2^64 lent so that it does not fall below 0. -/
theorem ofNat_toNat_sub_toNat (a b : BitVec 64) : BitVec.ofNat 64 (a.toNat + 2 ^ 64 - b.toNat) = a - b := by
  bv_omega

/-! ### What the register instructions write -/

section
variable (q k w : Nat) (u : State)

/-- The write of gD keeps 64 bits of the result. -/
theorem insSet_eq_gSet {v : Nat} {r : BitVec 64} (hr : BitVec.ofNat 64 v = r) :
    insSet q k w v u = gSet q k (w / 2 ^ 52 % 16) r u := by
  have hval : BitVec.ofNat 64 (v % 2 ^ 64) = r := by
    rw [← hr]
    exact BitVec.eq_of_toNat_eq (by simp)
  rw [insSet, bits_four_eq, setReg, hval]
  rfl

theorem insMovi_eq_gSet : insMovi q k w u = gSet q k (w / 2 ^ 52 % 16)
    ((BitVec.ofNat 48 w).signExtend 64 <<< (16 * (w / 2 ^ 48 % 4))) u := by
  have hsh : bits 48 2 w = w / 2 ^ 48 % 4 := by simp [bits, Nat.shiftRight_eq_div_pow]
  refine insSet_eq_gSet q k w u ?_
  rw [ofNat_mul_two_pow, ofNat_imm48_eq_signExtend, hsh]

theorem insAddi_eq_gSet : insAddi q k w u = gSet q k (w / 2 ^ 52 % 16)
    (gReg (u.getStrand q k) (w / 2 ^ 48 % 16) + gImm w) u := by
  refine insSet_eq_gSet q k w u ?_
  simp only [insA_eq_toNat, insImm_eq_toNat, BitVec.ofNat_add, BitVec.ofNat_toNat, BitVec.setWidth_eq]

theorem insAdd_eq_gSet : insAdd q k w u = gSet q k (w / 2 ^ 52 % 16)
    (gReg (u.getStrand q k) (w / 2 ^ 48 % 16) + gReg (u.getStrand q k) (w / 2 ^ 44 % 16)) u := by
  refine insSet_eq_gSet q k w u ?_
  simp only [insA_eq_toNat, regB_eq_toNat, BitVec.ofNat_add, BitVec.ofNat_toNat, BitVec.setWidth_eq]

theorem insSub_eq_gSet : insSub q k w u = gSet q k (w / 2 ^ 52 % 16)
    (gReg (u.getStrand q k) (w / 2 ^ 48 % 16) - gX (u.getStrand q k) w) u := by
  refine insSet_eq_gSet q k w u ?_
  rw [insA_eq_toNat, insX_eq_toNat, ofNat_toNat_sub_toNat]

theorem insAnd_eq_gSet : insAnd q k w u = gSet q k (w / 2 ^ 52 % 16)
    (gReg (u.getStrand q k) (w / 2 ^ 48 % 16) &&& gX (u.getStrand q k) w) u := by
  refine insSet_eq_gSet q k w u ?_
  simp only [insA_eq_toNat, insX_eq_toNat, BitVec.ofNat_and, BitVec.ofNat_toNat, BitVec.setWidth_eq]

theorem insOr_eq_gSet : insOr q k w u = gSet q k (w / 2 ^ 52 % 16)
    (gReg (u.getStrand q k) (w / 2 ^ 48 % 16) ||| gX (u.getStrand q k) w) u := by
  refine insSet_eq_gSet q k w u ?_
  simp only [insA_eq_toNat, insX_eq_toNat, BitVec.ofNat_or, BitVec.ofNat_toNat, BitVec.setWidth_eq]

theorem insXor_eq_gSet : insXor q k w u = gSet q k (w / 2 ^ 52 % 16)
    (gReg (u.getStrand q k) (w / 2 ^ 48 % 16) ^^^ gX (u.getStrand q k) w) u := by
  refine insSet_eq_gSet q k w u ?_
  simp only [insA_eq_toNat, insX_eq_toNat, BitVec.ofNat_xor, BitVec.ofNat_toNat, BitVec.setWidth_eq]

theorem insShl_eq_gSet : insShl q k w u = gSet q k (w / 2 ^ 52 % 16)
    (gReg (u.getStrand q k) (w / 2 ^ 48 % 16) <<< ((gX (u.getStrand q k) w).toNat % 64)) u := by
  refine insSet_eq_gSet q k w u ?_
  rw [insA_eq_toNat, insX_eq_toNat, ofNat_mul_two_pow, BitVec.ofNat_toNat, BitVec.setWidth_eq]

theorem insShr_eq_gSet : insShr q k w u = gSet q k (w / 2 ^ 52 % 16)
    (gReg (u.getStrand q k) (w / 2 ^ 48 % 16) >>> ((gX (u.getStrand q k) w).toNat % 64)) u := by
  refine insSet_eq_gSet q k w u ?_
  rw [insA_eq_toNat, insX_eq_toNat, ofNat_toNat_div_two_pow]

theorem insTstamp_eq_gSet :
    insTstamp q k w u = gSet q k (w / 2 ^ 52 % 16) (BitVec.ofNat 64 u.now) u :=
  insSet_eq_gSet q k w u rfl

end

end Sys2Proof.Machine

namespace Sys2Proof.Proofs

open Sys2Proof.Machine Sys2Proof.Claims

/-- Settles O52: each row runs the word that its strand issues, and that instruction's write is a `gSet` of the value
R357 or R376 names. -/
theorem strandRegisterInstructions : Obligations.StrandRegisterInstructions := by
  unfold Obligations.StrandRegisterInstructions
  intro q k w s u x d a b n hiss hres hu hx hd ha hb hn
  subst hn hb ha hd hx hu
  refine ⟨?nop, ?movi, ?addi, ?add, ?sub, ?and, ?or, ?xor, ?shl, ?shr, ?tstamp⟩
  case nop => exact insRow_of_issues hiss hres (f := insNop) rfl
  case movi => exact insRow_of_issues hiss hres (insMovi_eq_gSet q k w _)
  case addi => exact insRow_of_issues hiss hres (insAddi_eq_gSet q k w _)
  case add => exact insRow_of_issues hiss hres (insAdd_eq_gSet q k w _)
  case sub => exact insRow_of_issues hiss hres (insSub_eq_gSet q k w _)
  case and => exact insRow_of_issues hiss hres (insAnd_eq_gSet q k w _)
  case or => exact insRow_of_issues hiss hres (insOr_eq_gSet q k w _)
  case xor => exact insRow_of_issues hiss hres (insXor_eq_gSet q k w _)
  case shl => exact insRow_of_issues hiss hres (insShl_eq_gSet q k w _)
  case shr => exact insRow_of_issues hiss hres (insShr_eq_gSet q k w _)
  case tstamp => exact insRow_of_issues hiss hres (insTstamp_eq_gSet q k w _)

/-- A quay whose strand 0 stands at the word `w`, the first of its program, with g1 all ones. -/
def quayAtWord (w : Nat) : Quay :=
  { strands := [(0, { state := .running, g := [(1, BitVec.allOnes 64)] })]
    icache := [{ obj := 0, gen := 0, line := 0, data := leBytes 8 w }] }

/-- A block that runs, with its first quay released and at the word `w`. -/
def blockAtWord (w : Nat) : State :=
  { power := .on
    fault := { islands := [(8, { powered := true, clocked := true, fenced := false })] }
    quay := [(0, quayAtWord w)] }

/-- SUB g2, g1, IMM with IMM = -1. -/
def subImmWord : Nat := 0x13210800FFFFFFFF

/-- MOVI g0 with IMM = 5. -/
def moviG0Word : Nat := 0x1000000000000005

theorem subImmWord_issues : Issues 0 0 subImmWord (blockAtWord subImmWord) :=
  ⟨rfl, by decide, by decide, by decide, by decide, nofun⟩

theorem moviG0Word_issues : Issues 0 0 moviG0Word (blockAtWord moviG0Word) :=
  ⟨rfl, by decide, by decide, by decide, by decide, nofun⟩

/-- O52 at a SUB that leaves 64 bits: all ones less -1 is zero, and the strand goes on. -/
theorem sub_wraps_to_zero :
    exec (.sub 0 0) (blockAtWord subImmWord) =
      .next (settle (gSet 0 0 2 0 (issued 0 0 (blockAtWord subImmWord)))) := by
  obtain ⟨-, -, -, -, hsub, -⟩ :=
    strandRegisterInstructions 0 0 subImmWord _ _ _ 2 1 0 _ subImmWord_issues rfl rfl rfl rfl rfl rfl rfl
  have hval : gReg ((issued 0 0 (blockAtWord subImmWord)).getStrand 0 0) 1 -
      gX ((issued 0 0 (blockAtWord subImmWord)).getStrand 0 0) subImmWord = 0 := by decide
  rw [hsub rfl, hval]

/-- O52 at a write of g0: only the PC moves. -/
theorem movi_g0_discarded :
    exec (.movi 0 0) (blockAtWord moviG0Word) =
      .next (settle ((issued 0 0 (blockAtWord moviG0Word)).updStrand 0 0
        (fun x => { x with pc := (x.pc + 8) % 2 ^ 32, wait := .no }))) := by
  obtain ⟨-, hmovi, -⟩ :=
    strandRegisterInstructions 0 0 moviG0Word _ _ _ 0 0 0 _ moviG0Word_issues rfl rfl rfl rfl rfl rfl rfl
  exact hmovi rfl

end Sys2Proof.Proofs
end

section
/-! The soundings' freeze: what a trigger, a FREEZE_AT crossing and the owner's release do (R585, R586). -/

namespace Sys2Proof.Machine

/-! ### What starts a freeze and what ends its hold -/

/-- A permitted write of a register takes effect while its island is reachable and the audit buffer has room (R20, R90,
R595). -/
theorem regGuard_of_permitted {a : Nat} {f : State → State} {s : State} (hroom : s.auditFull = false)
    (hreach : s.isolated (islandOf a) = false) : regGuard a true f s = f s := by
  simp [regGuard, hroom, hreach]

/-- With no snapshot held, a freeze takes one. -/
theorem freeze_of_free {s : State} (hfree : s.sound.held = false) :
    freeze s = { s with
      shadow := s.shadows
      sound := { s.sound with held := true, snapSeq := (s.sound.snapSeq + 1) % 2 ^ 32, snapNs := s.now } } := by
  simp [freeze, hfree]

/-- A held snapshot stays: the freeze is missed. -/
theorem freeze_of_held {s : State} (hheld : s.sound.held = true) :
    freeze s = { s with sound := { s.sound with missed := min max64 (s.sound.missed + 1), armAt := false } } := by
  simp [freeze, hheld]

/-- A trigger freezes while CTRL.GTRIG_EN is 1 (R585). -/
theorem exec_gtrig_of_enabled {s : State} (hon : s.power = .on) (hen : s.sound.gtrigEn = true) :
    exec .gtrig s = .next (freeze s) := by
  have hfreeze : gtrig s = freeze s := by simp [gtrig, hen]
  calc exec .gtrig s = live gtrig s := rfl
    _ = .next (gtrig s) := live_of_on hon
    _ = .next (freeze s) := by rw [hfreeze]

/-- The state in which a FREEZE_AT crossing freezes: the captured timebase has reached FREEZE_AT (log entry 155), and
ARM_AT is clear (R585). -/
def atCrossing (s : State) : State :=
  { s with
    time := { s.time with ns := max s.now s.sound.freezeAt }
    sound := { s.sound with armAt := false } }

/-- A FREEZE_AT crossing freezes while ARM_AT is 1 (R585). -/
theorem exec_freezeAt_of_armed {s : State} (hon : s.power = .on) (harm : s.sound.armAt = true) :
    exec .freezeAt s = .next (freeze (atCrossing s)) := by
  have hfreeze : freezeAt s = freeze (atCrossing s) := by simp [freezeAt, harm, atCrossing, State.now]
  calc exec .freezeAt s = live freezeAt s := rfl
    _ = .next (freezeAt s) := live_of_on hon
    _ = .next (freeze (atCrossing s)) := by rw [hfreeze]

/-- The state with its snapshot let go: HELD is clear, the rest as it was (R586). -/
def released (s : State) : State := { s with sound := { s.sound with held := false } }

/-- The owner's release takes effect while the soundings' island is reachable and the audit buffer has room. -/
theorem exec_snapshotRelease_pf {s : State} (hon : s.power = .on) (hroom : s.auditFull = false)
    (hreach : s.isolated 26 = false) : exec (.snapshotRelease .pf) s = .next (released s) := by
  have hrelease : snapshotRelease .pf s = released s := regGuard_of_permitted (a := soundBase) hroom hreach
  calc exec (.snapshotRelease .pf) s = live (snapshotRelease .pf) s := rfl
    _ = .next (snapshotRelease .pf s) := live_of_on hon
    _ = .next (released s) := by rw [hrelease]

end Sys2Proof.Machine

namespace Sys2Proof.Proofs

open Sys2Proof.Machine Sys2Proof.Claims

/-- Settles O18: a trigger and a crossing are both one `freeze`, whose two cases are a free and a held snapshot; the
release leads from the second case back to the first. -/
theorem freezeHoldsUntilRelease : Obligations.FreezeHoldsUntilRelease := by
  unfold Obligations.FreezeHoldsUntilRelease
  refine ⟨?triggerFree, ?crossingFree, ?triggerHeld, ?crossingHeld, ?release, ?anew⟩
  case triggerFree =>
    intro s hon hfree hen
    rw [exec_gtrig_of_enabled hon hen, freeze_of_free hfree]
  case crossingFree =>
    intro s hon hfree harm
    rw [exec_freezeAt_of_armed hon harm, freeze_of_free (s := atCrossing s) hfree]
    rfl
  case triggerHeld =>
    intro s hon hheld hen
    rw [exec_gtrig_of_enabled hon hen, freeze_of_held hheld]
  case crossingHeld =>
    intro s hon hheld harm
    rw [exec_freezeAt_of_armed hon harm, freeze_of_held (s := atCrossing s) hheld]
    rfl
  case release =>
    intro s hon hroom hreach
    exact exec_snapshotRelease_pf hon hroom hreach
  case anew =>
    intro s t u hon _ hen hroom hreach hrelease htrigger
    rw [exec_snapshotRelease_pf hon hroom hreach] at hrelease
    obtain rfl := Host.Outcome.next.inj hrelease
    rw [exec_gtrig_of_enabled (s := released s) hon hen, freeze_of_free (s := released s) rfl] at htrigger
    obtain rfl := Host.Outcome.next.inj htrigger
    exact ⟨rfl, rfl, rfl, rfl⟩

/-- A block that runs, at timebase 40, with FREEZE_AT armed for 100 and the given soundings fields. -/
def soundingBlock (held : Bool) (snapSeq missed : Nat) : State :=
  { power := .on
    time := { ns := 40 }
    cnt := [(faultBase, 9)]
    sound := { held, snapSeq, missed, armAt := true, freezeAt := 100 } }

/-- O18's trigger with no snapshot held, at the last SNAP_SEQ: the number wraps, the shadow takes the count of 9, and
ARM_AT stays. -/
theorem trigger_wraps_snapSeq :
    ∃ t, exec .gtrig (soundingBlock false (2 ^ 32 - 1) 0) = .next t ∧ t.sound.snapSeq = 0 ∧ t.sound.snapNs = 40 ∧
      Tab.get 0 t.shadow faultBase = 9 ∧ t.sound.armAt = true := by
  obtain ⟨htrigger, -⟩ := freezeHoldsUntilRelease
  exact ⟨_, htrigger _ rfl rfl rfl, rfl, rfl, by decide, rfl⟩

/-- O18's crossing with no snapshot held: the freeze happens at FREEZE_AT. -/
theorem crossing_freezes_at_freezeAt :
    ∃ t, exec .freezeAt (soundingBlock false 0 0) = .next t ∧ t.sound.held = true ∧ t.sound.snapNs = 100 ∧
      t.sound.armAt = false := by
  obtain ⟨-, hcrossing, -⟩ := freezeHoldsUntilRelease
  exact ⟨_, hcrossing _ rfl rfl rfl, rfl, rfl, rfl⟩

/-- O18's trigger with a snapshot held, at the last MISSED_CNT: the count holds (R606), and ARM_AT clears. -/
theorem missed_trigger_holds_at_max :
    ∃ t, exec .gtrig (soundingBlock true 3 max64) = .next t ∧ t.sound.missed = max64 ∧ t.sound.armAt = false ∧
      t.sound.snapSeq = 3 := by
  obtain ⟨-, -, htrigger, -⟩ := freezeHoldsUntilRelease
  exact ⟨_, htrigger _ rfl rfl rfl, by decide, rfl, rfl⟩

/-- O18's crossing with a snapshot held: it is missed, and the snapshot stays the earlier one. -/
theorem missed_crossing_keeps_snapshot :
    ∃ t, exec .freezeAt (soundingBlock true 3 0) = .next t ∧ t.sound.missed = 1 ∧ t.sound.snapSeq = 3 ∧
      t.sound.snapNs = 0 ∧ t.sound.armAt = false := by
  obtain ⟨-, -, -, hcrossing, -⟩ := freezeHoldsUntilRelease
  exact ⟨_, hcrossing _ rfl rfl rfl, rfl, rfl, rfl, rfl⟩

/-- O18's release and the trigger after it: the snapshot is a new one, and nothing is missed. -/
theorem release_then_trigger_freezes_anew :
    ∃ t u, exec (.snapshotRelease .pf) (soundingBlock true 3 0) = .next t ∧ exec .gtrig t = .next u ∧
      u.sound.held = true ∧ u.sound.snapSeq = 4 ∧ u.sound.snapNs = 40 ∧ u.sound.missed = 0 := by
  obtain ⟨htrigger, -, -, -, hrelease, hanew⟩ := freezeHoldsUntilRelease
  have hreleased := hrelease (soundingBlock true 3 0) rfl rfl rfl
  have htriggered := htrigger (released (soundingBlock true 3 0)) rfl rfl rfl
  exact ⟨_, _, hreleased, htriggered, hanew _ _ _ rfl rfl rfl rfl rfl hreleased htriggered⟩

end Sys2Proof.Proofs
end

section
/-! Register accesses by the host at reserved ranges and at RSVD offsets (R610). -/

namespace Sys2Proof.Machine

/-! ### What an access finds where there is no register -/

section
variable {m : Master} {a b d : Nat} {wide : Bool} {s : State}

/-- A read from a reserved range is zero and changes nothing (R610). -/
theorem regRead_of_reservedRange (ha : misaligned a wide = false) (hreach : s.reach m a = some b)
    (hrange : reservedRange b = true) : regRead m a wide s = (0, s) := by
  simp [regRead, ha, hreach, hrange]

/-- A read of an RSVD offset is zero and changes nothing (R610). -/
theorem regRead_of_rsvd (ha : misaligned a wide = false) (hreach : s.reach m a = some b)
    (hrange : reservedRange b = false) (hthere : s.unreachable b = false) (hrsvd : s.regAt m (b / 8 * 8) = none) :
    regRead m a wide s = (0, s) := by
  simp [regRead, ha, hreach, hrange, hthere, hrsvd]

/-- A write to a reserved range only counts in FAULT.HR_FMT_CNT (R610), while the audit buffer has room (R595). -/
theorem regWrite_of_reservedRange (hroom : s.auditFull = false) (ha : misaligned a wide = false)
    (hreach : s.reach m a = some b) (hrange : reservedRange b = true) :
    regWrite m a wide d s = bump (faultBase + 0x310) s := by
  simp [regWrite, hroom, ha, hreach, hrange]

/-- A write to an RSVD offset changes nothing and is not counted (R610, log entry 154). -/
theorem regWrite_of_rsvd (hroom : s.auditFull = false) (ha : misaligned a wide = false)
    (hreach : s.reach m a = some b) (hrange : reservedRange b = false) (hthere : s.unreachable b = false)
    (hrsvd : s.regAt m (b / 8 * 8) = none) : regWrite m a wide d s = s := by
  simp [regWrite, hroom, ha, hreach, hrange, hthere, hrsvd]

end

/-- A register write acts, and settles, on a block that runs. -/
theorem exec_registerWrite_of_regWrite {x : Access} {s t : State} (hon : s.power = .on)
    (hwrite : regWrite x.m x.addr x.wide x.data s = t) : exec (.registerWrite x) s = .next (settle t) := by
  calc exec (.registerWrite x) s = run (regWrite x.m x.addr x.wide x.data) s := rfl
    _ = .next (settle (regWrite x.m x.addr x.wide x.data s)) := run_of_on hon
    _ = .next (settle t) := by rw [hwrite]

end Sys2Proof.Machine

namespace Sys2Proof.Proofs

open Sys2Proof.Machine Sys2Proof.Claims

/-- Settles O21: `regRead` and `regWrite` end at the reserved range or at the absent register, and the two rows answer
with what they leave. -/
theorem reservedRangesReadZero : Obligations.ReservedRangesReadZero := by
  unfold Obligations.ReservedRangesReadZero
  intro x b s hon hroom hm ha hreach
  refine ⟨fun hrange => ⟨?rangeRead, ?rangeWrite⟩, fun hrange hthere hrsvd => ⟨?rsvdRead, ?rsvdWrite⟩⟩
  case rangeRead =>
    exact exec_registerRead_of_regRead hon hroom hm (regRead_of_reservedRange ha hreach hrange)
  case rangeWrite =>
    exact exec_registerWrite_of_regWrite hon (regWrite_of_reservedRange hroom ha hreach hrange)
  case rsvdRead =>
    exact exec_registerRead_of_regRead hon hroom hm (regRead_of_rsvd ha hreach hrange hthere hrsvd)
  case rsvdWrite =>
    exact exec_registerWrite_of_regWrite hon (regWrite_of_rsvd hroom ha hreach hrange hthere hrsvd)

/-- O21's first case is met at the last word of the first reserved range, the one below the bollards (R609). -/
theorem ownerAccess_lastReservedWord :
    exec (.registerRead ⟨.pf, 0x0FFFF8, true, max64, 7⟩) bareBlock = .next (emit (.hrRsp 7 0) bareBlock) ∧
      exec (.registerWrite ⟨.pf, 0x0FFFF8, true, max64, 7⟩) bareBlock =
        .next (settle (bump (faultBase + 0x310) bareBlock)) :=
  (reservedRangesReadZero ⟨.pf, 0x0FFFF8, true, max64, 7⟩ 0x0FFFF8 bareBlock rfl rfl nofun rfl rfl).1 rfl

/-- O21's first case is met by a 32-bit access to the first half-word of the second reserved range, past the last
bollard (R609). -/
theorem ownerAccess_firstWordPastBollards :
    exec (.registerRead ⟨.pf, 0x140000, false, max64, 7⟩) bareBlock = .next (emit (.hrRsp 7 0) bareBlock) ∧
      exec (.registerWrite ⟨.pf, 0x140000, false, max64, 7⟩) bareBlock =
        .next (settle (bump (faultBase + 0x310) bareBlock)) :=
  (reservedRangesReadZero ⟨.pf, 0x140000, false, max64, 7⟩ 0x140000 bareBlock rfl rfl nofun rfl rfl).1 rfl

/-- O21's second case is met at the last word of IDENT, an offset that no register has. -/
theorem ownerAccess_identRsvd :
    exec (.registerRead ⟨.pf, identBase + 0xFFF8, true, max64, 7⟩) bareBlock = .next (emit (.hrRsp 7 0) bareBlock) ∧
      exec (.registerWrite ⟨.pf, identBase + 0xFFF8, true, max64, 7⟩) bareBlock = .next (settle bareBlock) :=
  (reservedRangesReadZero ⟨.pf, identBase + 0xFFF8, true, max64, 7⟩ (identBase + 0xFFF8) bareBlock
    rfl rfl nofun rfl rfl).2 rfl rfl rfl

end Sys2Proof.Proofs
end

section
/-! What every command keeps: the invariant, the life cycle, the straps, the scan, time, and what has left the ports. -/

namespace Sys2Proof.Machine

/-- Without power, or held in reset, a command other than the release leaves the state as it is. -/
theorem exec_of_off {c : Instr} {s : State} (hc : ∀ p, c ≠ .releaseOfPorstNHm p) (hoff : s.power ≠ .on) :
    exec c s = .next s := by
  cases c
  case releaseOfPorstNHm p => exact absurd rfl (hc p)
  case islandIsolation i iso => exact if_neg fun h => hoff h.1
  case islandPowerRemoval i => exact if_neg fun h => hoff h.1
  all_goals exact congrArg Host.Outcome.next (if_neg hoff)

/-- The removal of power leaves all but the power as it was. -/
theorem exec_powerRemoval_eq (s : State) : ∃ p, exec .harbourmasterPowerRemoval s = .next { s with power := p } := by
  by_cases hon : s.power = .on
  · exact ⟨.off, congrArg Host.Outcome.next (if_pos hon)⟩
  · exact ⟨s.power, congrArg Host.Outcome.next (if_neg hon)⟩

/-- Every command but the release takes the state to one that follows it, the power apart. -/
theorem exec_keeps {c : Instr} {s t : State} (hc : ∀ p, c ≠ .releaseOfPorstNHm p) (he : exec c s = .next t) :
    ∃ p, Follows s { t with power := p } := by
  by_cases hp : c = .harbourmasterPowerRemoval
  · subst hp
    obtain ⟨p, hex⟩ := exec_powerRemoval_eq s
    obtain rfl := Host.Outcome.next.inj (hex.symm.trans he)
    exact ⟨s.power, .refl s⟩
  · exact ⟨t.power, exec_follows hc hp he⟩

/-- A command is the release with its operand, or no release. -/
theorem release_or_not (c : Instr) : (∃ p, c = .releaseOfPorstNHm p) ∨ ∀ p, c ≠ .releaseOfPorstNHm p := by
  by_cases hc : ∀ p, c ≠ .releaseOfPorstNHm p
  · exact .inr hc
  · exact .inl (by simpa using hc)

/-- On an empty queue a tick passes. -/
theorem step_of_empty {s : State} (hq : s.pending = []) : step s = .next (tick s) := by
  simp [step, hq]

/-- A step on an empty queue is a tick; any other runs the command at the front. -/
theorem step_cases {s t : State} (h : step s = .next t) :
    (s.pending = [] ∧ t = tick s) ∨ ∃ c rest, s.pending = c :: rest ∧ exec c { s with pending := rest } = .next t := by
  unfold step at h
  split at h
  case h_1 hq => exact .inl ⟨hq, (Host.Outcome.next.inj h).symm⟩
  case h_2 c rest hq => exact .inr ⟨c, rest, hq, h⟩

/-- A command leaves the timebase where it was or moves it forward (R112). -/
theorem exec_now_le {c : Instr} {s t : State} (he : exec c s = .next t) : s.now ≤ t.now := by
  obtain ⟨p, rfl⟩ | hc := release_or_not c
  · obtain rfl := Host.Outcome.next.inj he
    exact (releaseOfPorst_started p s).time
  · obtain ⟨_, hf⟩ := exec_keeps hc he
    exact hf.time

end Sys2Proof.Machine

namespace Sys2Proof.Proofs

open Sys2Proof.Machine Sys2Proof.Claims

/-- Settles O5: a tick follows the state it starts from, and `exec_inv` covers every command. -/
theorem everyStepKeepsInvariant : Obligations.EveryStepKeepsInvariant := by
  unfold Obligations.EveryStepKeepsInvariant
  intro s t hinv hstep
  obtain ⟨-, rfl⟩ | ⟨c, rest, -, he⟩ := step_cases hstep
  · exact hinv.follows (tick_follows (.refl s))
  · exact exec_inv (s := { s with pending := rest }) ⟨hinv.counters, hinv.tokens, hinv.scan⟩ he

/-- Settles O6: the life-cycle part of what every command but the release keeps. -/
theorem lifeCycleMovesOnlyAtRelease : Obligations.LifeCycleMovesOnlyAtRelease := by
  unfold Obligations.LifeCycleMovesOnlyAtRelease
  intro c s t hc he
  obtain ⟨_, hf⟩ := exec_keeps hc he
  exact ⟨hf.lc.state, hf.lc.pending, hf.lc.lock, hf.lc.fails⟩

/-- Settles O3: every row but the release begins with the test of the power. -/
theorem stillWithoutPower : Obligations.StillWithoutPower := by
  unfold Obligations.StillWithoutPower
  intro c s hc hoff
  exact exec_of_off hc hoff

/-- Settles O7: neither a tick nor a command moves the timebase backward. -/
theorem timestampsNeverDecrease : Obligations.TimestampsNeverDecrease := by
  unfold Obligations.TimestampsNeverDecrease
  intro s t hstep
  obtain ⟨-, rfl⟩ | ⟨c, rest, -, he⟩ := step_cases hstep
  · exact (tick_follows (.refl s)).time
  · have hle := exec_now_le he
    exact hle

/-- Settles O8: the release samples the straps, and every other command keeps them. -/
theorem strapsOnlyAtRelease : Obligations.StrapsOnlyAtRelease := by
  unfold Obligations.StrapsOnlyAtRelease
  refine ⟨fun p s => ?_, fun c s t hc he => ?_⟩
  · have hst := releaseOfPorst_started p s
    refine ⟨_, rfl, hst.straps, ?_⟩
    rw [hst.fault]
    simp [strapsBad]
  · obtain ⟨_, hf⟩ := exec_keeps hc he
    exact ⟨hf.straps, hf.strapFault, hf.mask⟩

/-- Settles O9: a granted scan, the closed gate and the end of start-up are part of what every command but the release
keeps. -/
theorem scanLeavesOnlyByRelease : Obligations.ScanLeavesOnlyByRelease := by
  unfold Obligations.ScanLeavesOnlyByRelease
  intro c s t hc he
  obtain ⟨_, hf⟩ := exec_keeps hc he
  exact ⟨hf.scan, fun hshut => Bool.eq_false_iff.mpr fun hopen => Bool.eq_false_iff.mp hshut (hf.gate hopen),
    fun hleft hback => hleft (hf.mode hback)⟩

/-- Settles O10: the release takes over what was sent and what waits; every other command keeps the queue and only adds to
what was sent, to the identifiers and to the ring. -/
theorem outputsAndQueueKept : Obligations.OutputsAndQueueKept := by
  unfold Obligations.OutputsAndQueueKept
  intro c s t he
  obtain ⟨p, rfl⟩ | hc := release_or_not c
  · obtain rfl := Host.Outcome.next.inj he
    have hst := releaseOfPorst_started p s
    exact ⟨hst.sent, hst.pending, fun hno => absurd rfl (hno p)⟩
  · obtain ⟨_, hf⟩ := exec_keeps hc he
    exact ⟨hf.sent, hf.pending, fun _ => ⟨hf.serial, hf.head⟩⟩

/-- Settles O1: `step` is defined by this case. -/
theorem stepRunsFront : Obligations.StepRunsFront := by
  unfold Obligations.StepRunsFront
  intro c rest s
  rfl

/-- Settles O4: `reset_inv` gives the invariant. -/
theorem resetMeetsInvariant : Obligations.ResetMeetsInvariant := by
  unfold Obligations.ResetMeetsInvariant
  exact ⟨reset_inv, rfl, rfl⟩

/-- O5 from the state after reset, whose first step is a tick of a held block. -/
theorem reset_step_inv : Inv (tick State.reset) :=
  everyStepKeepsInvariant State.reset (tick State.reset) reset_inv (step_of_empty rfl)

end Sys2Proof.Proofs
end

section
/-! Start-up and islands: the end of start-up, releases, isolation, loss of power, clocks (R9, R31, R32, R43, R114 to R118). -/

namespace Sys2Proof.Machine

/-! ### A command of a running block -/

/-- A row that only changes the state does so on a block that runs. -/
theorem exec_of_live {c : Instr} {f : State → State} {s : State} (hon : s.power = .on) (hrow : exec c s = live f s) :
    exec c s = .next (f s) :=
  hrow.trans (live_of_on hon)

/-- A row whose effect brings waiting work forward acts, and settles, on a block that runs. -/
theorem exec_of_run {c : Instr} {f : State → State} {s : State} (hon : s.power = .on) (hrow : exec c s = run f s) :
    exec c s = .next (settle (f s)) :=
  hrow.trans (run_of_on hon)

/-! ### What Prity's work on a berth leaves alone -/

/-- `t` is `s` after work on berths and random values: events, counts, records, berths, engine copies and the entropy
source apart, nothing differs. -/
structure KeyWorked (s t : State) : Prop where
  of : ∃ e h c o a f k l n, t = { s with
    ev := e, fault := { s.fault with heldPriv := h }, cnt := c, sent := o, audit := a, freeIdx := f, keys := k, lic := l
    ent := n }

section
variable {s t u : State}

theorem KeyWorked.refl (s : State) : KeyWorked s s := ⟨_, _, _, _, _, _, _, _, _, rfl⟩

theorem KeyWorked.trans (h : KeyWorked s t) (g : KeyWorked t u) : KeyWorked s u := by
  obtain ⟨_, _, _, _, _, _, _, _, _, rfl⟩ := h
  obtain ⟨_, _, _, _, _, _, _, _, _, rfl⟩ := g
  exact ⟨_, _, _, _, _, _, _, _, _, rfl⟩

theorem KeyWorked.of_noted (h : Noted s t) : KeyWorked s t := by
  obtain ⟨_, _, _, _, _, _, rfl⟩ := h
  exact ⟨_, _, _, _, _, _, _, _, _, rfl⟩

theorem setBerth_keyWorked (i : Nat) (b : Berth) (s : State) : KeyWorked s (s.setBerth i b) :=
  ⟨_, _, _, _, _, _, _, _, _, rfl⟩

theorem dropCopies_keyWorked (i : Nat) (s : State) : KeyWorked s (dropCopies i s) := ⟨_, _, _, _, _, _, _, _, _, rfl⟩

theorem makeBad_keyWorked (i : Nat) (s : State) : KeyWorked s (makeBad i s) :=
  (((setBerth_keyWorked _ _ s).trans (dropCopies_keyWorked ..)).trans (.of_noted (bump_noted ..))).trans
    (.of_noted (raiseBoth_noted ..))

theorem readBack_keyWorked (s : State) : KeyWorked s (readBack s).2 := by
  unfold readBack
  split
  · exact .refl s
  · exact ⟨_, _, _, _, _, _, _, _, _, rfl⟩

theorem readBackFails_keyWorked (s : State) : KeyWorked s (readBackFails s).2 := by
  unfold readBackFails
  dsimp only
  split
  · exact (readBack_keyWorked s).trans (readBack_keyWorked _)
  · exact readBack_keyWorked s

theorem writeBerth_keyWorked (i : Nat) (b : Berth) (s : State) : KeyWorked s (writeBerth i b s).2 := by
  have hw : KeyWorked s (readBackFails (dropCopies i (s.setBerth i (tagged s i b)))).2 :=
    ((setBerth_keyWorked _ _ s).trans (dropCopies_keyWorked ..)).trans (readBackFails_keyWorked _)
  unfold writeBerth
  dsimp only
  split
  · exact hw.trans (makeBad_keyWorked ..)
  · exact hw

theorem berthStep_keyWorked {i : Nat} {f : State → Status × State} (hf : KeyWorked s (f s).2) :
    KeyWorked s (berthStep i f s).2 := by
  unfold berthStep
  dsimp only
  split
  · exact hf
  · exact hf.trans (.of_noted (auditLog_noted ..))

theorem reseed_keyWorked (h : reseed s = some t) : KeyWorked s t := by
  unfold reseed at h
  split at h
  · exact nomatch h
  · obtain rfl := Option.some.inj h
    exact ⟨_, _, _, _, _, _, _, _, _, rfl⟩

theorem drbg_keyWorked {n : Nat} {k : Bytes} (h : drbg n s = some (k, t)) : KeyWorked s t := by
  unfold drbg at h
  split at h
  · exact nomatch h
  · dsimp only at h
    split at h
    · exact nomatch h
    · next v hv =>
      obtain ⟨-, rfl⟩ := Prod.mk.inj (Option.some.inj h)
      have hsv : KeyWorked s v := by
        split at hv
        · obtain rfl := Option.some.inj hv
          exact .refl s
        · exact reseed_keyWorked hv
      exact hsv.trans ⟨_, _, _, _, _, _, _, _, _, rfl⟩

/-- Making the scrub key names its berth to Tide, and is key work besides (R192). -/
theorem makeScrubKey_eq (s : State) : ∃ t b, KeyWorked s t ∧ makeScrubKey s = { t with tide := { t.tide with scrubBerth := b } } := by
  unfold makeScrubKey
  split
  · next i k v _ hdraw =>
    have hkey := (drbg_keyWorked hdraw).trans
      (berthStep_keyWorked (i := i) (f := fillBerth i k (2 ^ mTide) 0 0 0x7F 0) (writeBerth_keyWorked ..))
    dsimp only
    split
    · exact ⟨_, _, hkey, rfl⟩
    · exact ⟨_, _, hkey, rfl⟩
  · exact ⟨s, s.tide.scrubBerth, .refl s, rfl⟩

end

/-- What making the scrub key leaves: the straps' verdict, the engines present and the islands. -/
theorem makeScrubKey_frame (s : State) : (makeScrubKey s).strapFault = s.strapFault ∧ (makeScrubKey s).mask = s.mask ∧
    (makeScrubKey s).fault.islands = s.fault.islands := by
  obtain ⟨t, b, ⟨_, _, _, _, _, _, _, _, _, rfl⟩, hkey⟩ := makeScrubKey_eq s
  rw [hkey]
  exact ⟨rfl, rfl, rfl⟩

/-! ### The islands at the end of start-up -/

theorem getIsland_updIsland (s : State) (i j : Nat) (f : Island → Island) :
    (s.updIsland i f).getIsland j = if j = i then f (s.getIsland i) else s.getIsland j := by
  split
  · next h => subst h; exact State.getIsland_setIsland ..
  · next h => exact State.getIsland_setIsland_other _ _ _ _ h

/-- Updates of the islands of a list that a test selects, as PRITY_STARTUP_DONE makes them. -/
def updIslands (c : Nat → Bool) (f : Nat → Island → Island) (l : List Nat) (s : State) : State :=
  l.foldl (fun s i => if c i then s.updIsland i (f i) else s) s

section
variable {c : Nat → Bool} {f : Nat → Island → Island} {p : Island → Prop} {j : Nat}

/-- What no update of an island changes, a row of them leaves. -/
theorem updIslands_frame {α : Type} {g : State → α} (hg : ∀ s i f, g (s.updIsland i f) = g s) (l : List Nat) :
    ∀ s, g (updIslands c f l s) = g s := by
  induction l with
  | nil => exact fun _ => rfl
  | cons i l ih =>
    intro s
    refine (ih _).trans ?_
    dsimp only
    split
    · exact hg ..
    · rfl

/-- A property of one island that the updates keep holds after them. -/
theorem updIslands_keeps (hf : ∀ i x, p x → p (f i x)) (l : List Nat) :
    ∀ s : State, p (s.getIsland j) → p ((updIslands c f l s).getIsland j) := by
  induction l with
  | nil => exact fun _ h => h
  | cons i l ih =>
    intro s h
    refine ih _ ?_
    dsimp only
    split
    · rw [getIsland_updIsland]
      split
      · next hj => exact hf _ _ (hj ▸ h)
      · exact h
    · exact h

/-- A property that an update brings holds of each island updated. -/
theorem updIslands_brings (hf : ∀ i x, p (f i x)) (hc : c j = true) (l : List Nat) :
    ∀ s : State, j ∈ l → p ((updIslands c f l s).getIsland j) := by
  induction l with
  | nil => exact fun _ h => nomatch h
  | cons i l ih =>
    intro s h
    by_cases hj : j = i
    · subst hj
      refine updIslands_keeps (fun i x _ => hf i x) l _ ?_
      dsimp only
      rw [if_pos hc, getIsland_updIsland, if_pos rfl]
      exact hf _ _
    · exact ih _ ((List.mem_cons.mp h).resolve_left hj)

end

/-- The sum that BIST_FAIL is. -/
theorem bistFail_sum_eq_zero (s : State) : ∀ (l : List Nat) (a : Nat),
    l.foldl (fun a i => a + (if (s.getIsland i).bistFail then 2 ^ i else 0)) a = 0 ↔
      a = 0 ∧ ∀ i ∈ l, (s.getIsland i).bistFail = false
  | [], a => by simp
  | i :: l, a => by
    rw [List.foldl_cons, bistFail_sum_eq_zero s l]
    cases h : (s.getIsland i).bistFail <;> simp [h]

/-- BIST_FAIL is 0 where no island's test failed (R605). -/
theorem bistFail_eq_zero {s : State} : s.bistFail = 0 ↔ ∀ i < 27, (s.getIsland i).bistFail = false := by
  simp [State.bistFail, bistFail_sum_eq_zero]

/-- Where every island runs, none is held in FENCED. -/
theorem fenceHeld_of_none {p : Nat → Bool} {s : State} (hp : ∀ i ∈ s.dataIslands, p i = false) : fenceHeld p s = s := by
  have hfold : ∀ l : List Nat, (∀ i ∈ l, p i = false) →
      l.foldl (fun s i => if p i then s.setDom i { state := .fenced } else s) s = s := by
    intro l
    induction l with
    | nil => exact fun _ => rfl
    | cons i l ih =>
      intro hl
      rw [List.foldl_cons, hl i List.mem_cons_self]
      exact ih fun j hj => hl j (List.mem_cons_of_mem _ hj)
  exact hfold _ hp

/-- Holding islands in FENCED changes their domains alone. -/
theorem fenceHeld_mode (p : Nat → Bool) (s : State) : (fenceHeld p s).mode = s.mode := by
  have hfold : ∀ (l : List Nat) (s : State),
      (l.foldl (fun s i => if p i then s.setDom i { state := .fenced } else s) s).mode = s.mode := by
    intro l
    induction l with
    | nil => exact fun _ => rfl
    | cons i l ih =>
      intro s
      rw [List.foldl_cons, ih]
      split <;> rfl
  exact hfold _ s

/-- The state in which Prity has made the scrub key, tested every running data-path island and found no fault. -/
def startupTested (s : State) : State :=
  let t := updIslands (makeScrubKey s).runs (fun i x => { x with bistFail := bit1 i 0 }) (makeScrubKey s).dataIslands
    (makeScrubKey s)
  { t with fw := { t.fw with started := true } }

/-- The tests of start-up leave the straps' verdict, the engines present and, where none fails, BIST_FAIL. -/
theorem startupTested_spec (s : State) (hpass : s.bistFail = 0) :
    (startupTested s).strapFault = s.strapFault ∧ (startupTested s).mask = s.mask ∧ (startupTested s).bistFail = 0 := by
  obtain ⟨hstraps, hmask, hislands⟩ := makeScrubKey_frame s
  refine ⟨?_, ?_, bistFail_eq_zero.mpr fun i hi => ?_⟩
  · exact (updIslands_frame (g := State.strapFault) (fun _ _ _ => rfl) _ _).trans hstraps
  · exact (updIslands_frame (g := State.mask) (fun _ _ _ => rfl) _ _).trans hmask
  · refine updIslands_keeps (p := fun x => x.bistFail = false) (fun i _ _ => by simp [bit1]) _ _ ?_
    rw [State.getIsland, hislands]
    exact bistFail_eq_zero.mp hpass i hi

/-- The data-path islands present are those that the mask names. -/
theorem dataIslands_of_mask {s t : State} (h : t.mask = s.mask) : t.dataIslands = s.dataIslands := by
  have heng : t.hasEng = s.hasEng := funext fun n => by simp [State.hasEng, h]
  simp [State.dataIslands, State.engines, heng]

/-- Which islands run does not depend on the scrub key. -/
theorem makeScrubKey_runs (s : State) (i : Nat) : (makeScrubKey s).runs i = s.runs i := by
  obtain ⟨-, hmask, hislands⟩ := makeScrubKey_frame s
  simp [State.runs, State.getIsland, State.hasIsland, State.hasEng, hmask, hislands]

/-- PRITY_STARTUP_DONE where no test fails: NORMAL with the running islands released, or keeper mode with a strap fault. -/
theorem prityStartupDone_of_pass {s : State} (hstart : s.mode = .starting) (hup : s.fw.up = true)
    (hrom : s.fw.romOnly = false) (hpass : s.bistFail = 0) :
    prityStartupDone 0 s =
      if s.strapFault then fenceHeld (fun _ => true) { startupTested s with mode := .keeper }
      else
        let t := fenceHeld (fun i => !(makeScrubKey s).runs i) { startupTested s with mode := .normal }
        updIslands (makeScrubKey s).runs (fun _ x => { x with fenced := false }) t.dataIslands t := by
  obtain ⟨hstraps, -, htests⟩ := startupTested_spec s hpass
  have hguard : (!s.fw.up ∨ s.fw.romOnly ∨ s.mode ≠ .starting) ↔ False := by simp [hstart, hup, hrom]
  refine (if_neg hguard.mp).trans ((if_neg (not_not.mpr htests)).trans ?_)
  exact congrArg (fun b : Bool => if b then _ else _) hstraps

/-! ### Islands and the clock -/

/-- A data-path island that is there gets power and clock (R117, step 3). -/
theorem dataPathIslandRelease_of_present {i : Nat} {s : State} (hi : i < 25) (hthere : s.hasIsland i = true) :
    dataPathIslandRelease i s = s.setIsland i { s.getIsland i with powered := true, clocked := true } :=
  if_neg (by simp [hthere]; omega)

/-- The loss of a fenced island's power has its effect. -/
theorem exec_islandPowerRemoval_of_fenced {i : Nat} {s : State} (hon : s.power = .on) (hi : i < 25)
    (hthere : s.hasIsland i = true) (hpow : (s.getIsland i).powered = true) (hfen : (s.getIsland i).fenced = true) :
    exec (.islandPowerRemoval i) s = .next (settle (islandPowerRemoval i s)) :=
  (if_pos ⟨hon, hi, hthere, hpow⟩ : exec (.islandPowerRemoval i) s = _).trans (if_pos hfen)

end Sys2Proof.Machine

namespace Sys2Proof.Proofs

open Sys2Proof.Machine Sys2Proof.Claims

/-- Settles O11: the release's part is `releaseOfPorst_started`, and the other two rows are one update each. -/
theorem startCommandsRun : Obligations.StartCommandsRun := by
  unfold Obligations.StartCommandsRun
  refine ⟨fun p s => ?release, fun i s hon hi hthere => ?island, fun s hon => ?off⟩
  case release =>
    have hst := releaseOfPorst_started p s
    exact ⟨_, rfl, hst.power, hst.straps, hst.mask, hst.lc, hst.time⟩
  case island =>
    rw [exec_of_live (f := dataPathIslandRelease i) hon rfl, dataPathIslandRelease_of_present hi hthere]
  case off => exact exec_of_live (f := fun s => { s with power := .off }) hon rfl

/-- Settles O12: with every test passed the mode is that of `prityStartupDone_of_pass`, and the running islands are the
data-path islands. -/
theorem startUpEndsNormalOrKeeper : Obligations.StartUpEndsNormalOrKeeper := by
  unfold Obligations.StartUpEndsNormalOrKeeper
  intro s hon hstart hup hrom hpass hruns
  obtain ⟨-, hmask, -⟩ := startupTested_spec s hpass
  have hislands : ({ startupTested s with mode := .normal } : State).dataIslands = s.dataIslands := dataIslands_of_mask hmask
  have hall : ∀ i ∈ s.dataIslands, (makeScrubKey s).runs i = true := fun i hi =>
    (makeScrubKey_runs s i).trans (hruns i hi)
  refine ⟨_, exec_of_live (f := prityStartupDone 0) hon rfl, fun hok => ?_, fun hbad => ?_⟩
  · rw [prityStartupDone_of_pass hstart hup hrom hpass, if_neg (by simp [hok]),
      fenceHeld_of_none (fun i hi => by rw [hall i (hislands ▸ hi)]; rfl)]
    dsimp only
    rw [hislands]
    exact ⟨updIslands_frame (g := State.mode) (fun _ _ _ => rfl) _ _,
      fun i hi => updIslands_brings (p := fun x => x.fenced = false) (fun _ _ => rfl) (hall i hi) _ _ hi⟩
  · rw [prityStartupDone_of_pass hstart hup hrom hpass, if_pos hbad]
    exact fenceHeld_mode ..

/-- Settles O13: the guard of each row holds, and the effect is one update of the island, with keeper mode after it in
normal service. -/
theorem fencedIslandsMayGo : Obligations.FencedIslandsMayGo := by
  unfold Obligations.FencedIslandsMayGo
  refine ⟨?isolate, ?remove, ?removeNormal⟩
  case isolate =>
    intro i iso s hon hthere hi hfen
    have hmay : ¬(iso = true ∧ (s.getIsland i).fenced = false) := fun h => by simp [hfen h.1] at h
    exact (if_pos ⟨hon, hthere, hi⟩ : exec (.islandIsolation i iso) s = _).trans (if_neg hmay)
  case remove =>
    intro i s hon hi hthere hpow hfen hmode
    rw [exec_islandPowerRemoval_of_fenced hon hi hthere hpow hfen]
    exact congrArg (fun t => Host.Outcome.next (settle t)) (if_neg hmode)
  case removeNormal =>
    intro i s hon hi hthere hpow hfen hmode
    rw [exec_islandPowerRemoval_of_fenced hon hi hthere hpow hfen]
    exact congrArg (fun t => Host.Outcome.next (settle t)) (if_pos hmode)

/-- Settles O14: the guard of each row holds, and FENCED is 0. -/
theorem unfencedIslandsMayNotGo : Obligations.UnfencedIslandsMayNotGo := by
  unfold Obligations.UnfencedIslandsMayNotGo
  refine ⟨fun i s hon hthere hi hfen => ?isolate, fun i s hon hi hthere hpow hfen => ?remove⟩
  case isolate =>
    exact (if_pos ⟨hon, hthere, hi⟩ : exec (.islandIsolation i true) s = _).trans (if_pos ⟨rfl, hfen⟩)
  case remove =>
    exact (if_pos ⟨hon, hi, hthere, hpow⟩ : exec (.islandPowerRemoval i) s = _).trans (if_neg (by simp [hfen]))

/-- Settles O15: a setting that differs from the present one is stored and counted; the one that does not is left. -/
theorem clockAndCapSettings : Obligations.ClockAndCapSettings := by
  unfold Obligations.ClockAndCapSettings
  refine ⟨fun i setting s hon hup hi hthere hset hnew => ?clock, fun i cap s hon hup hcap hnew => ?cap⟩
  case clock =>
    rw [exec_of_live (f := islandClockThrottle i setting none) hon rfl]
    simp [islandClockThrottle, hup, hi, hthere, hset, hnew, State.updIsland]
  case cap =>
    rw [exec_of_live (f := islandClockThrottle i (s.getIsland i).clk (some cap)) hon rfl]
    have hfits : cap % 65536 = cap := Nat.mod_eq_of_lt hcap
    simp [islandClockThrottle, hup, hfits, hnew]

end Sys2Proof.Proofs
end

section
/-! The soundings' other commands, time, persistent registers, the ends of store requests and the entropy source (R95,
R104 to R107, R112, R275, R411 to R414, R539, R578, R591, R598). -/

namespace Sys2Proof.Machine

variable {s : State}

/-! ### A register write that is not permitted -/

/-- A write of a register that is not permitted is counted, while the island is reachable and the audit buffer has room
(R20). -/
theorem regGuard_of_refused {a : Nat} {f : State → State} (hroom : s.auditFull = false)
    (hreach : s.isolated (islandOf a) = false) : regGuard a false f s = bump (permAddr a) s := by
  simp [regGuard, hroom, hreach, permFault]

/-- The registers above the quays' and the datapath's lie in the management island (R28). -/
theorem islandOf_management {a : Nat} (ha : 0x060000 ≤ a) : islandOf a = 26 := by
  unfold islandOf
  rw [if_neg (by omega), if_neg (by omega), if_neg (by omega)]

/-- FAULT counts the refused accesses from the audit unit on (R20, R611). -/
theorem permAddr_fault {a : Nat} (ha : 0x0B0000 ≤ a) : permAddr a = faultBase + 0x340 := by
  unfold permAddr
  iterate 10 rw [if_neg (by omega)]

/-! ### The soundings -/

/-- Zeroing counters in a row leaves every other, and zeroes these. -/
theorem get_zeros (a : Nat) : ∀ (l : List Nat) (t : Tab Nat),
    Tab.get 0 (l.foldl (fun t a => Tab.set 0 t a 0) t) a = if a ∈ l then 0 else Tab.get 0 t a
  | [], t => by simp
  | b :: l, t => by
    rw [List.foldl_cons, get_zeros a l]
    by_cases hb : a = b
    · simp [hb]
    · simp [hb, Tab.get_set_other 0 t 0 hb]

/-- The owner's REPRO_CLEAR takes effect. -/
theorem reproClear_pf (hroom : s.auditFull = false) (hreach : s.isolated 26 = false) :
    reproClear .pf s = { s with
      cnt := reproCounts.foldl (fun t a => Tab.set 0 t a 0) s.cnt, sound := { s.sound with clearNs := s.now } } :=
  regGuard_of_permitted hroom (by rwa [islandOf_management (by decide)])

/-- A tenant's write of REPLAY is one guarded write of its window. -/
theorem replayEnable_of_tenant {m : Master} {t value : Nat} (hten : s.tenantOf m = some t) :
    replayEnable m value s = regGuard (winBase t + 0x2838) (!bit1 0 value || s.replayEn)
      (fun s => s.updWin t (fun w => { w with replay := bit1 0 value, replayCtx := bits 1 20 value })) s := by
  simp [replayEnable, hten]

/-- A mooring's window lies above every other register. -/
theorem le_winBase_add (t off : Nat) : 0x400000 ≤ winBase t + off := by
  unfold winBase
  omega

/-- A trace group that holds a record is written, as far as its first line goes (R591). -/
theorem traceFlush_of_open {ring : Nat} (hopen : (s.traceGroup ring).2 ≠ []) :
    traceFlush ring s =
      let g := s.traceGroup ring
      let n := min g.2.length (4 - g.1 % 4)
      let base := if ring = 256 then s.sound.otBase else (s.getMoor ring).adm.metaBase + (s.getMoor ring).adm.offTrace
      submitPiece (.trace ring) { wr := true, addr := base + 32 * g.1, len := 32 * n, buf := (g.2.take n).flatten }
        (if ring = 256 then 256 else ring) 0 false
        { s with sound := { s.sound with groups := Tab.set [] s.sound.groups ring (g.2.drop n) } } := by
  have hlen : 0 < (s.traceGroup ring).2.length := List.length_pos_iff.mpr hopen
  have hsome : min (s.traceGroup ring).2.length (4 - (s.traceGroup ring).1 % 4) ≠ 0 := by omega
  exact if_neg hsome

/-! ### Persistent registers and the stores' ports -/

/-- The owner's write of a register of its own asks for the write, or reports why not. -/
theorem pregWrite_pf {i value : Nat} (hroom : s.auditFull = false) (hreach : s.isolated 26 = false) (hlo : 32 ≤ i)
    (hhi : i < 256) : pregWrite .pf i value s =
      if (pregPush i (value % 2 ^ 64) true s).1 = .ok then (pregPush i (value % 2 ^ 64) true s).2
      else pregStatus i (pregPush i (value % 2 ^ 64) true s).1 (pregPush i (value % 2 ^ 64) true s).2 := by
  unfold pregWrite
  rw [decide_eq_true ⟨hlo, hhi⟩]
  exact regGuard_of_permitted hroom (by rwa [islandOf_management (by unfold auditBase; omega)])

/-- With nothing waiting on the NV port, a register below its wear limit asks for its wear counter's write (R104). -/
theorem pregPush_of_idle {i value : Nat} {host : Bool} (hidle : s.audit.nv = []) (hwear : Tab.get 0 s.audit.wear i < 100000) :
    pregPush i value host s = (.ok, nvPush ⟨true, 0x100 + i, Tab.get 0 s.audit.wear i + 1, .wear i value host⟩ s) := by
  have hok : ¬ 100000 ≤ Tab.get 0 s.audit.wear i := by omega
  simp [pregPush, hidle, hok]

/-- A worn-out register is refused (R599). -/
theorem pregPush_of_worn {i value : Nat} {host : Bool} (hidle : s.audit.nv = []) (hwear : 100000 ≤ Tab.get 0 s.audit.wear i) :
    pregPush i value host s = (.eWear, s) := by
  simp [pregPush, hidle, hwear]

/-- A request on an idle NV port goes out at once (R101). -/
theorem nvPush_of_idle {r : NvReq} (hidle : s.audit.nv = []) :
    nvPush r s = emit (.nvReq r.wr r.addr r.data) { s with audit := { s.audit with nv := [r] } } := by
  simp [nvPush, hidle]

/-- The audit ring's head, the persistent registers and their wear stand. -/
structure RegsKept (s t : State) : Prop where
  head : t.audit.headSeq = s.audit.headSeq
  preg : t.audit.preg = s.audit.preg
  wear : t.audit.wear = s.audit.wear

theorem RegsKept.trans {s t u : State} (h : RegsKept s t) (g : RegsKept t u) : RegsKept s u :=
  ⟨g.head.trans h.head, g.preg.trans h.preg, g.wear.trans h.wear⟩

theorem nvPush_regsKept (r : NvReq) (s : State) : RegsKept s (nvPush r s) := by
  unfold nvPush
  dsimp only
  split <;> exact ⟨rfl, rfl, rfl⟩

theorem nvPushes_regsKept (r : Nat → NvReq) : ∀ (l : List Nat) (s : State),
    RegsKept s (l.foldl (fun s w => nvPush (r w) s) s)
  | [], _ => ⟨rfl, rfl, rfl⟩
  | w :: l, s => (nvPush_regsKept (r w) s).trans (nvPushes_regsKept r l _)

theorem auditWords_regsKept (d : Bytes) (seq : Nat) (s : State) : RegsKept s (auditWords d seq s) := by
  have hrecord := nvPushes_regsKept
    (fun w => ⟨true, 0x20000 + (seq - 1) % 16384 * 8 + w, leNat (slice (8 * w) 8 d), .audit d w⟩) [1, 2, 3, 4, 5, 6, 7, 0] s
  unfold auditWords
  dsimp only
  split
  · exact hrecord.trans (nvPushes_regsKept _ _ _)
  · exact hrecord

theorem auditMirror_regsKept (d : Bytes) (s : State) : RegsKept s (auditMirror d s) := by
  unfold auditMirror
  dsimp only
  split
  · exact ⟨rfl, rfl, rfl⟩
  · split <;> exact ⟨rfl, rfl, rfl⟩

/-- A log entry moves the audit ring's head by one and leaves the persistent registers (R592). -/
theorem auditLog_audit (kind : Nat) (st : Status) (master world tenant addr value : Nat) (s : State) :
    (auditLog kind st master world tenant addr value s).audit.headSeq = s.audit.headSeq + 1 ∧
      (auditLog kind st master world tenant addr value s).audit.preg = s.audit.preg ∧
      (auditLog kind st master world tenant addr value s).audit.wear = s.audit.wear := by
  obtain ⟨hhead, hpreg, hwear⟩ := (auditWords_regsKept _ _ _).trans (auditMirror_regsKept _ _)
  exact ⟨hhead, hpreg, hwear⟩

/-- The one request under way on the NV port ends (R101). -/
theorem nvResponse_of_one {r : NvReq} {data : Nat} {err : Bool} (hnv : s.audit.nv = [r]) :
    nvResponse data err s = raiseHm 5 (if err then nvErr r { s with audit := { s.audit with nv := [] } }
      else nvOk r { s with audit := { s.audit with nv := [] } }) := by
  unfold nvResponse
  rw [hnv]

/-- The one request under way on the OTP port, a programmed word, ends: the word has gained the bits (R107). -/
theorem otpResponse_of_program {a w data : Nat} (hotp : s.audit.otp = [⟨true, a, w, .program⟩]) :
    otpResponse data s = raiseHm 4 { s with
      audit := { s.audit with otp := [] }
      lc := { s.lc with otp := Tab.set 0 s.lc.otp a ((Tab.get 0 s.lc.otp a ||| w) % 2 ^ 64) } } := by
  unfold otpResponse
  rw [hotp]
  rfl

/-! ### The entropy source -/

/-- A sample of a source that is not in scan is tested (R411). -/
theorem exec_entropySample_of_free {b : Bool} (hon : s.power = .on) (hscan : s.fault.scanAck = false) :
    exec (.entropySample b) s = .next (entropySample b s) := by
  refine (exec_of_live (f := fun s => if s.fault.scanAck then s else entropySample b s) hon rfl).trans ?_
  simp [hscan]

/-- A sample of the start-up window: a failed test stops the source, the 1,024th good one brings OK (R411 to R413). -/
theorem entropySample_of_startup {b : Bool} (hst : s.ent.state = .startup) :
    entropySample b s =
      if (healthTest b s.ent).1 then healthFail 0 { s with ent := (healthTest b s.ent).2 }
      else if s.ent.seen + 1 < 1024 then { s with ent := { (healthTest b s.ent).2 with seen := s.ent.seen + 1 } }
      else { s with ent := { (healthTest b s.ent).2 with state := .ok, seen := 0, raw := [] } } := by
  simp [entropySample, hst]

/-- The health tests touch neither the count of failures nor the state. -/
theorem healthTest_fails (b : Bool) (e : Entropy) : (healthTest b e).2.fails = e.fails := rfl

/-- A failed test counts, and stops the source: RETRY below the third failure, FAILED at it (R413). -/
theorem healthFail_ent (drop : Nat) (s : State) :
    (healthFail drop s).ent.state = (if s.ent.fails + 1 < 3 then .retry else .failed) ∧
      (healthFail drop s).ent.fails = min 3 (s.ent.fails + 1) := by
  unfold healthFail
  dsimp only
  split
  · exact ⟨rfl, rfl⟩
  · obtain ⟨_, _, _, _, _, _, hnoted⟩ := raisePrivOpen_noted 32 25 0x23 0 0
      ({ bump (keyBase + 0x410) s with ent := { s.ent.restart with
        fails := min 3 (s.ent.fails + 1), pool := s.ent.pool.take (s.ent.pool.length - drop), state := .failed } })
    exact hnoted ▸ ⟨rfl, rfl⟩

end Sys2Proof.Machine

namespace Sys2Proof.Proofs

open Sys2Proof.Machine Sys2Proof.Claims

/-- Settles O19: three rows, of which the register writes meet their guards. -/
theorem soundingCommandsRun : Obligations.SoundingCommandsRun := by
  unfold Obligations.SoundingCommandsRun
  refine ⟨?clear, ?timeout, ?replay, ?replayRefused⟩
  case clear =>
    intro s hon hroom hreach
    refine ⟨_, exec_of_live (f := reproClear .pf) hon rfl, ?_⟩
    rw [reproClear_pf hroom hreach]
    exact ⟨rfl, fun a ha => (get_zeros a _ _).trans (if_pos ha), fun a ha => (get_zeros a _ _).trans (if_neg ha), rfl⟩
  case timeout =>
    intro ring s hon hopen
    rw [exec_of_run (f := traceFlush ring) hon rfl, traceFlush_of_open hopen]
  case replay =>
    intro m t value s hon hten hroom hreach hmay
    have hok : (!bit1 0 value || s.replayEn) = true := by simpa using hmay
    rw [exec_of_run (f := replayEnable m value) hon rfl, replayEnable_of_tenant hten, hok, regGuard_of_permitted hroom
      (by rwa [islandOf_management (Nat.le_trans (by decide) (le_winBase_add t _))])]
  case replayRefused =>
    intro m t value s hon hten _ hroom hreach hset hoff
    have hno : (!bit1 0 value || s.replayEn) = false := by simp [hset, hoff]
    have hwin := le_winBase_add t 0x2838
    rw [exec_of_run (f := replayEnable m value) hon rfl, replayEnable_of_tenant hten, hno,
      regGuard_of_refused hroom (by rwa [islandOf_management (Nat.le_trans (by decide) hwin)]),
      permAddr_fault (Nat.le_trans (by decide) hwin)]

/-- Settles O20: each row is one update under its condition. -/
theorem timeAndErrorPulses : Obligations.TimeAndErrorPulses := by
  unfold Obligations.TimeAndErrorPulses
  refine ⟨?back, ?forward, ?timer, ?pulse⟩
  case back =>
    intro ns s hon hback
    exact (exec_of_live (c := .timebaseBackward ns) (f := fun s => if ns < s.now then _ else s) hon rfl).trans
      (congrArg Host.Outcome.next (if_pos hback))
  case forward =>
    intro ns s hon hle
    exact (exec_of_live (c := .timebaseBackward ns) (f := fun s => if ns < s.now then _ else s) hon rfl).trans
      (congrArg Host.Outcome.next (if_neg (Nat.not_lt.mpr hle)))
  case timer =>
    intro core s hon hcore
    refine ⟨setHmPend core 0 s, ?_, ?_, fun c hc => Tab.get_set_other 0 _ _ hc, rfl⟩
    · exact (exec_of_live (f := fun s => if core < 4 then setHmPend core 0 s else s) hon rfl).trans
        (congrArg Host.Outcome.next (if_pos hcore))
    · simp [setHmPend, bit1]
  case pulse =>
    intro f s hon
    exact exec_of_live hon rfl

/-- Settles O24: an idle NV port takes the wear counter's write, a worn-out register none. -/
theorem persistentRegisterWrites : Obligations.PersistentRegisterWrites := by
  unfold Obligations.PersistentRegisterWrites
  intro i value s hon hroom hreach hlo hhi hidle
  refine ⟨fun hwear => ?fresh, fun hworn => ?worn, ?prity⟩
  case fresh =>
    rw [exec_of_live (f := pregWrite .pf i value) hon rfl, pregWrite_pf hroom hreach hlo hhi,
      pregPush_of_idle hidle hwear, nvPush_of_idle hidle]
    rfl
  case worn =>
    rw [exec_of_live (f := pregWrite .pf i value) hon rfl, pregWrite_pf hroom hreach hlo hhi,
      pregPush_of_worn hidle hworn]
    rfl
  case prity =>
    have haddr : 0x0B0000 ≤ auditBase + 0x1000 + 8 * i := by unfold auditBase; omega
    have hnot : ¬ i < 8 := by omega
    rw [exec_of_live (f := pregWrite .prity i value) hon rfl, pregWrite, decide_eq_false hnot,
      regGuard_of_refused hroom (by rwa [islandOf_management (Nat.le_trans (by decide) haddr)]), permAddr_fault haddr]

/-- Settles O25: the one request under way ends as its use says. -/
theorem storeResponsesRun : Obligations.StoreResponsesRun := by
  unfold Obligations.StoreResponsesRun
  refine ⟨?wear, ?failed, ?program⟩
  case wear =>
    intro i v w data host s hon hnv
    rw [exec_of_live (f := nvResponse data false) hon rfl, nvResponse_of_one hnv]
    rfl
  case failed =>
    intro i v w data s hon hnv
    refine ⟨_, exec_of_live (f := nvResponse data true) hon rfl, ?_⟩
    rw [nvResponse_of_one hnv]
    obtain ⟨hhead, hpreg, hwear⟩ := auditLog_audit 6 .eIntegrity 0x13 0 0 i 0 { s with audit := { s.audit with nv := [] } }
    exact ⟨hpreg, hwear, rfl, rfl, hhead⟩
  case program =>
    intro a w data s hon hotp
    rw [exec_of_run (f := otpResponse data) hon rfl, otpResponse_of_program hotp]

/-- Settles O26: the cases of `entropySample_of_startup`, and the end of RETRY. -/
theorem entropySamplesTested : Obligations.EntropySamplesTested := by
  unfold Obligations.EntropySamplesTested
  refine ⟨?counted, ?last, ?failed, ?retry⟩
  case counted =>
    intro b s hon hscan hst hgood hseen
    rw [exec_entropySample_of_free hon hscan, entropySample_of_startup hst, hgood, if_neg Bool.false_ne_true, if_pos hseen]
  case last =>
    intro b s hon hscan hst hgood hseen
    refine ⟨_, exec_entropySample_of_free hon hscan, ?_⟩
    rw [entropySample_of_startup hst, hgood, if_neg Bool.false_ne_true, if_neg (by omega)]
    exact ⟨rfl, healthTest_fails b s.ent, rfl⟩
  case failed =>
    intro b s hon hscan hst hbad
    refine ⟨_, exec_entropySample_of_free hon hscan, ?_⟩
    rw [entropySample_of_startup hst, if_pos hbad]
    exact healthFail_ent 0 { s with ent := (healthTest b s.ent).2 }
  case retry =>
    intro s hon hretry
    refine ⟨{ s with ent := { s.ent.restart with state := .startup } }, ?_, rfl, rfl, rfl, rfl, rfl⟩
    exact congrArg Host.Outcome.next ((if_pos hon).trans (if_pos hretry))

end Sys2Proof.Proofs
end

section
/-! Event queues, banks and Breakwater's commands (R522, R528 to R536, R552, R555, R559). -/

namespace Sys2Proof.Machine

variable {s : State}

/-! ### Event queues -/

/-- A queue of the owner's own that its write names, and the register's address (R526). -/
theorem eqOf_pf {k off toff : Nat} (hk : k < 256) (hten : (s.getEq k).ten = ownerTen) :
    s.eqOf .pf k off toff = (some k, evBase + 0x1000 + 0x40 * k + off) := by
  have hown : (s.getEq k).ten = 256 := hten
  simp [State.eqOf, hk, hown]

/-- The registers of the event unit's queues, above the quays' and below Breakwater's. -/
theorem islandOf_eq {k off : Nat} : islandOf (evBase + 0x1000 + 0x40 * k + off) = 26 :=
  islandOf_management (by unfold evBase; omega)

/-- EVENT counts the refused writes of its registers (R20). -/
theorem permAddr_event {a : Nat} (hlo : 0x060000 ≤ a) (hhi : a < 0x070000) : permAddr a = evBase + 0x6048 := by
  unfold permAddr
  iterate 5 rw [if_neg (by omega)]
  rw [if_pos hhi]

/-- The owner's write of HEAD reaches its queue (R528). -/
theorem exec_eqHeadWrite_pf {k head : Nat} (hon : s.power = .on) (hroom : s.auditFull = false)
    (hreach : s.isolated 26 = false) (hk : k < 256) (hten : (s.getEq k).ten = ownerTen) (hhead : head < 0x10000) :
    exec (.eqHeadWrite .pf k head) s = .next (headWrite (evBase + 0x1000 + 0x40 * k + 0x20) k head s) := by
  rw [exec_of_live (f := eqHeadWrite .pf k head) hon rfl]
  unfold eqHeadWrite
  rw [eqOf_pf hk hten]
  dsimp only
  rw [Option.isSome_some, regGuard_of_permitted hroom (by rwa [islandOf_eq]), Nat.mod_eq_of_lt hhead, Option.getD_some]

/-- The owner's write of a queue's control word reaches it (R531). -/
theorem exec_eqEnable_pf {k value : Nat} (hon : s.power = .on) (hroom : s.auditFull = false)
    (hreach : s.isolated 26 = false) (hk : k < 256) (hten : (s.getEq k).ten = ownerTen) :
    exec (.eqEnable .pf k value) s = .next (eqCtrlWrite (evBase + 0x1000 + 0x40 * k + 8) k value s) := by
  rw [exec_of_live (f := eqEnable .pf k value) hon rfl]
  unfold eqEnable
  rw [eqOf_pf hk hten]
  dsimp only
  rw [Option.isSome_some, regGuard_of_permitted hroom (by rwa [islandOf_eq]), Option.getD_some]

/-- A HEAD write of a queue that is not DISARMED arms nothing. -/
theorem rearm_of_not_disarmed {q : EvQueue} (h : q.arm ≠ .disarmed) : q.rearm = q := if_pos h

/-- A HEAD write that empties a DISARMED queue arms it with nothing pending (R532). -/
theorem rearm_of_emptied {q : EvQueue} (harm : q.arm = .disarmed) (hempty : q.head = q.tail) :
    q.rearm = { q with arm := .armed, pend := 0, timer := false } := by
  simp [EvQueue.rearm, harm, hempty]

/-- A HEAD write in range while no record was lost. -/
theorem headWrite_of_plain {a k head : Nat} (hin : head < (s.getEq k).slots) (hov : (s.getEq k).overflow = false) :
    headWrite a k head s = s.setEq k { s.getEq k with head := head }.rearm := by
  have hin' : ¬ (s.getEq k).slots ≤ head := by omega
  simp [headWrite, hin', hov]

/-- A HEAD write in range that ends an overflow: one record for the lost ones goes ahead (R529). -/
theorem headWrite_of_overflow {a k head : Nat} (hin : head < (s.getEq k).slots) (hov : (s.getEq k).overflow = true) :
    headWrite a k head s = ({ s with ev := { s.ev with
        store := putAhead { queue := k, data := overflowRecord k (s.getEq k) } s.ev.store } }.setEq k
      { s.getEq k with head := head, overflow := false, lost := 0, lostNs := 0 }.rearm) := by
  have hin' : ¬ (s.getEq k).slots ≤ head := by omega
  simp [headWrite, hin', hov]

/-- A record of an enabled queue whose writes go out takes the slot at TAIL, or is lost where there is none (R94, R529). -/
theorem writeRecord_of_enabled {r : EvRec} {f : Fn} (hen : (s.getEq r.queue).en = true)
    (hfn : s.eqFn (s.getEq r.queue) = some f) :
    ((s.getEq r.queue).full = true → writeRecord r s = bump (evBase + 0x6020) (s.setEq r.queue { s.getEq r.queue with
        ovf := min 0xFFFFFFFF ((s.getEq r.queue).ovf + 1), overflow := true
        lost := min 0xFFFFFFFF ((s.getEq r.queue).lost + 1)
        lostNs := if (s.getEq r.queue).lost = 0 then s.now else (s.getEq r.queue).lostNs })) ∧
    ((s.getEq r.queue).full = false → r.priv = false → writeRecord r s = beat 26 (bump (evBase + 0x6000)
        ((emit (.evWr ((s.getEq r.queue).base + (s.getEq r.queue).tail * 32) true r.data f (Fn.tBit f)) s).setEq r.queue
          { s.getEq r.queue with tail := ((s.getEq r.queue).tail + 1) % (s.getEq r.queue).slots }.note))) := by
  refine ⟨fun hfull => ?_, fun hroom hpub => ?_⟩
  · simp [writeRecord, hen, hfn, hfull]
  · simp [writeRecord, hen, hfn, hroom, hpub]

/-! ### Banks -/

/-- The owner's EOI goes to bank 4 (R534, R535). -/
theorem exec_eoi_pf {core p : Nat} (hon : s.power = .on) (hroom : s.auditFull = false) (hreach : s.isolated 26 = false)
    (hp : p < 16) : exec (.eoi .pf core p) s = .next (eoiWrite 4 p s) := by
  rw [exec_of_live (f := eoi .pf core p) hon rfl]
  unfold eoi State.bankFor
  dsimp only
  rw [Option.isSome_some, regGuard_of_permitted hroom (by rwa [islandOf_management (by decide)]), Option.getD_some,
    Nat.mod_eq_of_lt hp]

/-- The owner's RESET goes to bank 4 (R535). -/
theorem exec_bankReset_pf {core : Nat} (hon : s.power = .on) (hroom : s.auditFull = false)
    (hreach : s.isolated 26 = false) : exec (.bankReset .pf core) s = .next (bankResetWrite 4 s) := by
  rw [exec_of_live (f := bankReset .pf core) hon rfl]
  unfold bankReset State.bankFor
  dsimp only
  rw [Option.isSome_some, regGuard_of_permitted hroom (by rwa [islandOf_management (by decide)]), Option.getD_some]

/-- A bank with no fault delivers its best READY queue where the stack lets it through (R534). -/
theorem bankDelivery_of_ready {bank j : Nat} {q : EvQueue} (hbank : 4 ≤ bank) (hok : (s.getBank bank).fault = false)
    (hen : s.ev.gdis = false) (hbest : bestReady bank s.ev.queues = some (j, q))
    (htop : (s.getBank bank).stack = [] ∨ (s.getBank bank).stack.headD 0 < q.prio) :
    bankDelivery bank s = msiWrite q
      ((s.setEq j { q with arm := .disarmed, pend := 0, timer := false }).setBank bank
        { s.getBank bank with stack := q.prio :: (s.getBank bank).stack }) := by
  have hserves : ¬ (bank < 4 ∨ (s.getBank bank).fault ∨ s.ev.gdis) := by simp [hok, hen, hbank]
  have hpass : ¬ (!(s.getBank bank).stack.isEmpty ∧ q.prio ≤ (s.getBank bank).stack.headD 0) := by
    rintro ⟨hfull, hlow⟩
    obtain hempty | hlt := htop
    · simp [hempty] at hfull
    · omega
  unfold bankDelivery
  dsimp only
  rw [if_neg hserves, hbest]
  exact if_neg hpass

/-- Arming queues in a row changes the event queues alone. -/
theorem foldl_setEq_eq (c : Nat × EvQueue → Bool) (f : Nat × EvQueue → EvQueue) : ∀ (l : Tab EvQueue) (s : State), ∃ x,
    l.foldl (fun s p => if c p then s.setEq p.1 (f p) else s) s = { s with ev := { s.ev with queues := x } }
  | [], s => ⟨s.ev.queues, rfl⟩
  | p :: l, s => by
    rw [List.foldl_cons]
    split
    · obtain ⟨x, hx⟩ := foldl_setEq_eq c f l (s.setEq p.1 (f p))
      exact ⟨x, hx⟩
    · exact foldl_setEq_eq c f l s

/-- RESET of a bank above the cores' own leaves it empty, and touches its queues besides (R535). -/
theorem bankResetWrite_eq {bank : Nat} (hbank : 4 ≤ bank) (s : State) : ∃ x,
    bankResetWrite bank s = { s.setBank bank {} with ev := { (s.setBank bank {}).ev with queues := x } } := by
  obtain ⟨x, hx⟩ := foldl_setEq_eq (fun p => decide (bankOf p.2.ten = bank)) (fun p => p.2.rearm) s.ev.queues
    (s.setBank bank {})
  simp only [decide_eq_true_eq] at hx
  exact ⟨x, (if_neg (by omega)).trans hx⟩

/-! ### Breakwater -/

/-- The owner's APPLY, while the block is ALONE or not (R559). -/
theorem bwApply_pf (hroom : s.auditFull = false) (hreach : s.isolated 26 = false) :
    bwApply .pf s = if s.fed.state = .alone then bwCommit s else bump (bwBase + 0x9000) s := by
  have hisl : s.isolated (islandOf (bwBase + 0x10)) = false := by rwa [islandOf_management (by decide)]
  unfold bwApply
  split
  · next h => rw [decide_eq_true ⟨rfl, h⟩, regGuard_of_permitted hroom hisl]
  · next h =>
    rw [decide_eq_false fun hn => h hn.2, regGuard_of_refused hroom hisl]
    rfl

/-- A request that waits and stands below priority 14 is raised once (R552). -/
theorem starveExpiry_of_waiting {n op : Nat} {o : LineOp} (ho : (s.eng n).op? op = some o)
    (hwaits : ∃ r ∈ (s.eng n).due, r.id = op ∧ r.isData = true) (hnew : (n, op) ∉ s.bw.starved)
    (hlow : s.classPrio n o.cls < 14) :
    starveExpiry n op s = bump (bwBase + 0x8000 + 0x40 * n + 8)
      { s with bw := { s.bw with starved := s.bw.starved ++ [(n, op)] } } := by
  have hany : (s.eng n).due.any (fun r => r.id = op && r.isData) = true := by simpa using hwaits
  have hlow' : ¬ 14 ≤ s.classPrio n o.cls := by omega
  simp [starveExpiry, ho, hany, hnew, hlow']

/-- The credit of a cap window for the classes of a list, as CAP_WINDOW gives it (R555). -/
def capCredits (n : Nat) (l : List Nat) (s : State) : State :=
  l.foldl (fun s c =>
    let p := (Tab.get ({} : BwClass) s.bw.cls c).maxPct
    if p = 0 then s else s.setBwReg n c { s.bwReg n c with credit := p * 24000 }) s

theorem bwReg_setBwReg (s : State) (n a c : Nat) (x : BwReg) :
    (s.setBwReg n a x).bwReg n c = if c = a then x else s.bwReg n c := by
  split
  · next h => subst h; exact Tab.get_set_same _ _ _
  · next h => exact Tab.get_set_other _ _ _ (by omega)

/-- The credits of a window change the regulators alone. -/
theorem capCredits_eq (n : Nat) : ∀ (l : List Nat) (s : State), ∃ x,
    capCredits n l s = { s with bw := { s.bw with reg := x } }
  | [], s => ⟨s.bw.reg, rfl⟩
  | c :: l, s => by
    by_cases hp : (Tab.get ({} : BwClass) s.bw.cls c).maxPct = 0
    · obtain ⟨x, hx⟩ := capCredits_eq n l s
      exact ⟨x, (congrArg (capCredits n l) (if_pos hp)).trans hx⟩
    · obtain ⟨x, hx⟩ := capCredits_eq n l
        (s.setBwReg n c { s.bwReg n c with credit := (Tab.get ({} : BwClass) s.bw.cls c).maxPct * 24000 })
      exact ⟨x, (congrArg (capCredits n l) (if_neg hp)).trans hx⟩

/-- A class of the list that is under a cap gets its credit, and every other class keeps its regulator (R555). -/
theorem capCredits_bwReg (n c : Nat) : ∀ (l : List Nat) (s : State), (capCredits n l s).bwReg n c =
    if c ∈ l ∧ (Tab.get ({} : BwClass) s.bw.cls c).maxPct ≠ 0 then
      { s.bwReg n c with credit := (Tab.get ({} : BwClass) s.bw.cls c).maxPct * 24000 }
    else s.bwReg n c
  | [], s => by simp [capCredits]
  | a :: l, s => by
    by_cases hp : (Tab.get ({} : BwClass) s.bw.cls a).maxPct = 0
    · refine (congrArg (fun t => (capCredits n l t).bwReg n c) (if_pos hp)).trans ?_
      rw [capCredits_bwReg n c l s]
      by_cases hc : c = a
      · subst hc
        simp [hp]
      · simp [hc]
    · refine (congrArg (fun t => (capCredits n l t).bwReg n c) (if_neg hp)).trans ?_
      rw [capCredits_bwReg n c l, bwReg_setBwReg]
      by_cases hc : c = a
      · subst hc
        simp [hp, State.setBwReg]
      · simp [hc, State.setBwReg]

end Sys2Proof.Machine

namespace Sys2Proof.Proofs

open Sys2Proof.Machine Sys2Proof.Claims

/-- Settles O29: the cases of `headWrite` on the queue that the owner's write names. -/
theorem headWrites : Obligations.HeadWrites := by
  unfold Obligations.HeadWrites
  intro k head q s hon hroom hreach hk hq hten hhead
  subst hq
  rw [exec_eqHeadWrite_pf hon hroom hreach hk hten hhead]
  refine ⟨fun hout => ?range, fun hin hov harm => ?plain, fun hin hov harm hempty => ?armed, fun hin hov harm => ?overflow⟩
  case range =>
    refine congrArg Host.Outcome.next ((if_pos hout).trans ?_)
    rw [permFault, permAddr_event (by unfold evBase; omega) (by unfold evBase; omega)]
  case plain =>
    rw [headWrite_of_plain hin hov]
    exact congrArg (fun q => Host.Outcome.next (s.setEq k q)) (rearm_of_not_disarmed harm)
  case armed =>
    rw [headWrite_of_plain hin hov]
    exact congrArg (fun q => Host.Outcome.next (s.setEq k q)) (rearm_of_emptied harm hempty)
  case overflow =>
    rw [headWrite_of_overflow hin hov]
    exact congrArg (fun q => Host.Outcome.next (State.setEq _ k q)) (rearm_of_not_disarmed harm)

/-- Settles O30: EN that rises, the timer of an armed queue, and the two ends of a record on the port. -/
theorem eventQueueCommandsRun : Obligations.EventQueueCommandsRun := by
  unfold Obligations.EventQueueCommandsRun
  refine ⟨?enable, ?timer, ?record, ?lost⟩
  case enable =>
    intro k value q s hon hroom hreach hk hq hten hoff hen hlo hhi hbase
    subst hq
    have hlo' : ¬ bits 0 5 value < 4 := by omega
    have hhi' : ¬ 16 < bits 0 5 value := by omega
    rw [exec_eqEnable_pf hon hroom hreach hk hten]
    simp [eqCtrlWrite, hoff, hen, hlo', hhi', hbase]
  case timer =>
    intro j s hon harm htimer
    rw [exec_of_live (f := coalTimeExpiry j) hon rfl]
    exact congrArg Host.Outcome.next (if_pos ⟨harm, htimer⟩)
  case record =>
    intro r l q f s hon hstore hq hen hfn hroom hpub
    subst hq
    rw [exec_of_live (f := eventRecordIssue) hon rfl, eventRecordIssue, hstore]
    exact congrArg Host.Outcome.next
      ((writeRecord_of_enabled (s := { s with ev := { s.ev with store := l } }) hen hfn).2 hroom hpub)
  case lost =>
    intro r l q f s hon hstore hq hen hfn hfull
    subst hq
    rw [exec_of_live (f := eventRecordIssue) hon rfl, eventRecordIssue, hstore]
    exact congrArg Host.Outcome.next
      ((writeRecord_of_enabled (s := { s with ev := { s.ev with store := l } }) hen hfn).1 hfull)

/-- Settles O31: a delivery, the two ends of an EOI, and RESET of the owner's bank. -/
theorem banksDeliverAndEnd : Obligations.BanksDeliverAndEnd := by
  unfold Obligations.BanksDeliverAndEnd
  refine ⟨?deliver, ?held, ?pop, ?wrong, ?reset⟩
  case deliver =>
    intro bank j q s hon hbank hok hen hbest htop
    rw [exec_of_live (f := bankDelivery bank) hon rfl, bankDelivery_of_ready hbank hok hen hbest htop]
  case held =>
    intro bank s hon hstop
    rw [exec_of_live (f := bankDelivery bank) hon rfl]
    exact congrArg Host.Outcome.next (if_pos (.inr hstop))
  case pop =>
    intro core p l s hon hroom hreach hp hstack
    rw [exec_eoi_pf hon hroom hreach hp]
    simp [eoiWrite, hstack]
  case wrong =>
    intro core p s hon hroom hreach hp hstack
    rw [exec_eoi_pf hon hroom hreach hp]
    exact ⟨_, congrArg Host.Outcome.next (if_neg hstack)⟩
  case reset =>
    intro core s hon hroom hreach
    obtain ⟨x, hx⟩ := bankResetWrite_eq (Nat.le_refl 4) s
    refine ⟨_, exec_bankReset_pf hon hroom hreach, ?_⟩
    rw [hx]
    exact ⟨State.getBank_setBank s 4 {}, fun b hb => State.getBank_setBank_other s 4 b {} hb, rfl⟩

/-- Settles O32: APPLY by the federation's state, STARVE of a waiting request, and the credits of the 64 classes. -/
theorem breakwaterCommandsRun : Obligations.BreakwaterCommandsRun := by
  unfold Obligations.BreakwaterCommandsRun
  refine ⟨?apply, ?member, ?starve, ?window⟩
  case apply =>
    intro s hon hroom hreach halone
    rw [exec_of_live (f := bwApply .pf) hon rfl, bwApply_pf hroom hreach, if_pos halone]
  case member =>
    intro s hon hroom hreach hfed
    rw [exec_of_live (f := bwApply .pf) hon rfl, bwApply_pf hroom hreach, if_neg hfed]
  case starve =>
    intro n op o s hon ho hwaits hnew hlow
    rw [exec_of_live (f := starveExpiry n op) hon rfl, starveExpiry_of_waiting ho hwaits hnew hlow]
  case window =>
    intro n s hon hthere
    refine ⟨capCredits n (List.range 64) s, congrArg Host.Outcome.next ((if_pos hon).trans (if_pos hthere)), ?_, ?_, ?_⟩
    · intro c hc hcap
      rw [capCredits_bwReg, if_pos ⟨List.mem_range.mpr hc, hcap⟩]
    · intro c _ hfree
      rw [capCredits_bwReg, if_neg fun h => h.2 hfree]
    · obtain ⟨x, hx⟩ := capCredits_eq n (List.range 64) s
      rw [hx]

end Sys2Proof.Proofs
end

section
/-! Reset domains: fences, their dumps, and releases (R567 to R575). -/

namespace Sys2Proof.Machine

variable {s : State} {d : Nat}

/-! ### Domains and their fences -/

/-- A domain of one member reports that member's state (R567). -/
theorem domState_of_single (hd : d < 25 ∨ d = 26) : s.domState d = (s.getDom d).state.code := by
  unfold State.domState
  rw [if_neg (by omega), if_pos hd]

/-- The numbers below 27 that name a domain are the data-path islands present and the event unit (R566). -/
theorem lt_of_domNamed (hd : d < 27) (h : s.domNamed d = true) : d < 25 ∨ d = 26 := by
  have hcases : ((d < 25 ∧ s.hasIsland d = true) ∨ d = 26) ∨ d = 32 ∨ d = 33 := by
    simpa [State.domNamed, or_assoc] using h
  omega

/-- Only an ACTIVE domain has advanced by nothing. -/
theorem code_eq_zero {x : DomState} : x.code = 0 ↔ x = .active := by
  cases x <;> simp [DomState.code]

/-- Only a FENCED domain has advanced by three. -/
theorem code_eq_three {x : DomState} : x.code = 3 ↔ x = .fenced := by
  cases x <;> simp [DomState.code]

/-- The owner's write of FAULT.FENCE takes effect, but for domain 33 (R567). -/
theorem exec_fenceDomain_pf (hon : s.power = .on) (hroom : s.auditFull = false) (hreach : s.isolated 26 = false)
    (hd : d < 33) : exec (.fenceDomain .pf d) s = .next (settle (fenceDomain d 0 s)) := by
  have hnot : ¬ d = 33 := by omega
  rw [exec_of_run (f := fenceWrite .pf d) hon rfl]
  refine congrArg (fun t => Host.Outcome.next (settle t)) ((regGuard_of_permitted (a := faultBase) hroom hreach).trans ?_)
  simp [hnot]

/-- The fence of one ACTIVE domain starts its own sequence (R567). -/
theorem fenceDomain_of_active {cause : Nat} (hd : d < 27) (hname : s.domNamed d = true) (hst : s.domState d = 0) :
    fenceDomain d cause s =
      let u := s.setDom d { state := .draining, cause := cause, lead := d }
      if d < 8 then advance d (tideHold d (u.updEng d (fun e => { e with ops := e.ops.map (fun o => { o with fenced := true }) })))
      else if d < 24 then stopStrands (fun q _ => q = d - 8) .eFenced u
      else u := by
  have hact : (s.getDom d).state = .active := by
    rwa [domState_of_single (lt_of_domNamed hd hname), code_eq_zero] at hst
  have hgo : ¬ (!s.domNamed d ∨ s.domState d ≠ 0) := by simp [hname, hst]
  have hsingle : ¬ (d = 32 ∨ d = 33) := by omega
  have hlead : ¬ 27 ≤ d := by omega
  rw [fenceDomain, if_neg hgo, if_neg hsingle]
  simp [fenceGroup, hact, hlead]

/-- A domain below 27 follows the sequence it names (R567). -/
theorem leadOf_of_lt (hd : d < 27) : s.leadOf d = (s.getDom d).lead := if_pos hd

/-- DRAIN_LIMIT cuts short what the members of a running sequence still have outstanding (R53, R567). -/
theorem drainLimit_of_draining (hd : d < 27) (hst : (s.getDom d).state = .draining) (hlead : (s.getDom d).lead = d)
    (hlim : (s.getDom d).limit = false) : drainLimit d s =
      (s.groupIn d .draining).foldl (fun s m => if m < 8 then engineLimit m s else domCut m s)
        (s.setDom d { s.getDom d with limit := true, held := dumpEntries s (s.groupIn d .draining) }) := by
  have hself : s.leadOf d = d := (leadOf_of_lt hd).trans hlead
  unfold drainLimit
  dsimp only
  rw [hself, if_neg (by simp [hst, hlead, hlim])]

/-! ### The end of a dump -/

/-- Emptying a member leaves the domains and the islands. -/
theorem domClear_fault (m : Nat) (s : State) : (domClear m s).fault = s.fault := by
  unfold domClear
  split
  · rfl
  · split
    · rfl
    · split <;> rfl

theorem getDom_domClear (m e : Nat) (s : State) : (domClear m s).getDom e = s.getDom e := by
  rw [State.getDom, domClear_fault, State.getDom]

theorem getIsland_domClear (m e : Nat) (s : State) : (domClear m s).getIsland e = s.getIsland e := by
  rw [State.getIsland, domClear_fault, State.getIsland]

theorem getDom_updIsland (s : State) (i e : Nat) (f : Island → Island) : (s.updIsland i f).getDom e = s.getDom e := rfl

theorem getIsland_setDom (s : State) (i e : Nat) (x : Dom) : (s.setDom i x).getIsland e = s.getIsland e := rfl

/-- A sequence of one island whose dump is done and whose write-back is complete ends FENCED (R567). -/
theorem fencedNow_of_done (hd : d < 25) (hst : (s.getDom d).state = .dumping) (hlead : (s.getDom d).lead = d)
    (hareas : ∀ a ∈ (s.getDom d).areas, 2 ≤ a.stage) (hgroup : s.groupIn d .dumping = [d])
    (hclean : 8 ≤ d ∨ s.engDrained d = true) :
    ((fencedNow d s).getDom d).state = .fenced ∧ ((fencedNow d s).getIsland d).fenced = true ∧
      ∀ e, e ≠ d → (fencedNow d s).getDom e = s.getDom e ∧ (fencedNow d s).getIsland e = s.getIsland e := by
  have hdone : (s.getDom d).state = .dumping ∧ (s.getDom d).lead = d ∧
      (s.getDom d).areas.all (fun a => decide (2 ≤ a.stage)) ∧
      (s.groupIn d .dumping).all (fun m => decide (8 ≤ m) || s.engDrained m) := by
    refine ⟨hst, hlead, by simpa using hareas, ?_⟩
    simpa [hgroup] using hclean
  have hend : fencedNow d s =
      let t := ((domClear d s).setDom d { s.getDom d with state := .fenced }).updIsland d (fun x => { x with fenced := true })
      t.setDom d { t.getDom d with state := .fenced } := by
    refine (if_pos hdone).trans ?_
    rw [hgroup]
    simp [hd]
  rw [hend]
  dsimp only
  refine ⟨by rw [State.getDom_setDom], ?_, fun e he => ⟨?_, ?_⟩⟩
  · exact (congrArg Island.fenced (State.getIsland_setIsland _ d _) : _)
  · rw [State.getDom_setDom_other _ _ _ _ he]
    rw [getDom_updIsland, State.getDom_setDom_other _ _ _ _ he, getDom_domClear]
  · rw [getIsland_setDom, getIsland_updIsland, if_neg he, getIsland_setDom, getIsland_domClear]

/-- The areas of a dump as DUMP_LIMIT leaves them where every entry is written: a header under way is given up (R575). -/
def headersGivenUp (d : Nat) (s : State) : State :=
  s.setDom d { s.getDom d with
    areas := (s.getDom d).areas.map (fun a => if a.stage = 1 then { a with stage := 3 } else a) }

/-- DUMP_LIMIT of a sequence whose areas have all their entries (R575). -/
theorem dumpLimit_of_entries_done (hd : d < 27) (hst : (s.getDom d).state = .dumping) (hlead : (s.getDom d).lead = d)
    (hareas : ∀ a ∈ (s.getDom d).areas, a.stage ≠ 0) : dumpLimit d s = fencedNow d (headersGivenUp d s) := by
  have hself : s.leadOf d = d := (leadOf_of_lt hd).trans hlead
  unfold dumpLimit
  dsimp only
  rw [hself, if_neg (by simp [hst, hlead]), List.foldl_fixed']
  · rfl
  · intro i
    cases ha : (s.getDom d).areas[i]? with
    | none => rfl
    | some a => exact if_pos (hareas a (List.mem_of_getElem? ha))

/-- Giving up headers leaves the sequences and the engines. -/
theorem groupIn_headersGivenUp (d : Nat) (s : State) (st : DomState) (l : Nat) :
    (headersGivenUp d s).groupIn l st = s.groupIn l st := by
  have hsame : ∀ m, ((headersGivenUp d s).getDom m).lead = (s.getDom m).lead ∧
      ((headersGivenUp d s).getDom m).state = (s.getDom m).state := by
    intro m
    by_cases hm : m = d
    · subst hm
      rw [headersGivenUp, State.getDom_setDom]
      exact ⟨rfl, rfl⟩
    · rw [headersGivenUp, State.getDom_setDom_other _ _ _ _ hm]
      exact ⟨rfl, rfl⟩
  unfold State.groupIn
  congr 1
  funext m
  rw [(hsame m).1, (hsame m).2]

/-! ### Releases -/

/-- The owner's write of FAULT.RELEASE takes effect (R570). -/
theorem exec_releaseDomain_pf (hon : s.power = .on) (hroom : s.auditFull = false) (hreach : s.isolated 26 = false) :
    exec (.releaseDomain .pf d) s = .next (settle (releaseDomain d s)) := by
  rw [exec_of_run (f := regGuard (faultBase + 8) (decide (Master.pf = .pf)) (releaseDomain d)) hon rfl]
  exact congrArg (fun t => Host.Outcome.next (settle t)) (regGuard_of_permitted (a := faultBase + 8) hroom hreach)

/-- An island's domain that is FENCED, runs and has passed its tests is opened (R570). -/
theorem releaseDomain_of_fit (hd : d < 25) (hthere : s.hasIsland d = true) (hst : (s.getDom d).state = .fenced)
    (hruns : s.runs d = true) (hpass : (s.getIsland d).bistFail = false) (hrun : (s.getIsland d).bistRun = 0)
    (hwait : (s.getIsland d).bistWait = 0) :
    releaseDomain d s = domOpen d { s with fault := { s.fault with relStatus := 0, relDom := d } } := by
  have hname : s.domNamed d = true := by simp [State.domNamed, hd, hthere]
  have hcode : s.domState d = 3 := by rw [domState_of_single (.inl hd), code_eq_three, hst]
  have hsingle : ¬ (d = 32 ∨ d = 33) := by omega
  simp [releaseDomain, hname, hcode, hsingle, State.domMembers, hd, hruns, hpass, hrun, hwait]

/-- A domain that is not FENCED, or whose island does not run, is not released (R570). -/
theorem releaseDomain_of_unfit (hbad : s.domState d ≠ 3 ∨ (d < 25 ∧ s.runs d = false)) :
    releaseDomain d s = releaseRefuse d s := by
  unfold releaseDomain
  dsimp only
  split
  · rfl
  · next hfit =>
    have hfenced : ¬ s.domState d ≠ 3 := fun h => hfit (.inr h)
    obtain ⟨hd, hstill⟩ := hbad.resolve_left hfenced
    have hsingle : ¬ (d = 32 ∨ d = 33) := by omega
    have hdown : ((s.domMembers d).filter (· < 25)).any (fun i => !s.runs i) = true := by
      simp [State.domMembers, hsingle, hd, hstill]
    rw [if_pos (.inl hdown)]

/-- An island's domain that is opened is ACTIVE, with FENCED at 0, and touches nothing but Tide's slice besides (R570). -/
theorem domOpen_of_island (hd : d < 25) (s : State) : ∃ x,
    domOpen d s = { (s.setDom d {}).updIsland d (fun x => { x with fenced := false }) with tide := x } := by
  unfold domOpen
  dsimp only
  split
  · unfold tideResume
    dsimp only
    split
    · exact ⟨s.tide, rfl⟩
    · exact ⟨_, rfl⟩
  · exact ⟨s.tide, rfl⟩

/-- The domains after an island's domain is opened. -/
theorem getDom_domOpen (hd : d < 25) (s : State) (e : Nat) : (domOpen d s).getDom e = (s.setDom d {}).getDom e := by
  obtain ⟨x, hx⟩ := domOpen_of_island hd s
  rw [hx]
  rfl

/-- The islands after an island's domain is opened. -/
theorem getIsland_domOpen (hd : d < 25) (s : State) (e : Nat) :
    (domOpen d s).getIsland e = (s.updIsland d (fun x => { x with fenced := false })).getIsland e := by
  obtain ⟨x, hx⟩ := domOpen_of_island hd s
  rw [hx]
  rfl

end Sys2Proof.Machine

namespace Sys2Proof.Proofs

open Sys2Proof.Machine Sys2Proof.Claims

/-- Settles O33: each row runs one stage of the sequence, and both ends of a dump come to `fencedNow`. -/
theorem fenceSequenceRuns : Obligations.FenceSequenceRuns := by
  unfold Obligations.FenceSequenceRuns
  refine ⟨?fence, ?refused, ?limit, ?written, ?dropped⟩
  case fence =>
    intro d s u hon hroom hreach hd hname hst hu
    subst hu
    rw [exec_fenceDomain_pf hon hroom hreach (by omega), fenceDomain_of_active hd hname hst]
  case refused =>
    intro d s hon hroom hreach hd hst
    rw [exec_fenceDomain_pf hon hroom hreach hd, fenceDomain, if_pos (.inr hst)]
  case limit =>
    intro d s hon hst hlead hlim hd
    rw [exec_of_run (f := drainLimitExpiry d) hon rfl, drainLimitExpiry, drainLimit_of_draining hd hst hlead hlim]
  case written =>
    intro d s hon hst hlead hd hareas hgroup hclean
    refine ⟨fencedNow d s, ?_, fencedNow_of_done hd hst hlead hareas hgroup hclean⟩
    rw [exec_of_run (f := dumpWritten d) hon rfl, dumpWritten, leadOf_of_lt (by omega), hlead]
  case dropped =>
    intro d s hon hst hlead hd hareas hgroup hclean
    have hdom : (headersGivenUp d s).getDom d = { s.getDom d with
        areas := (s.getDom d).areas.map (fun a => if a.stage = 1 then { a with stage := 3 } else a) } :=
      State.getDom_setDom ..
    have hlate : ∀ a ∈ ((headersGivenUp d s).getDom d).areas, 2 ≤ a.stage := by
      rw [hdom]
      intro a ha
      obtain ⟨b, hb, rfl⟩ := List.mem_map.mp ha
      have hstage := hareas b hb
      split
      · exact Nat.le_succ 2
      · omega
    obtain ⟨hfenced, hout, -⟩ := fencedNow_of_done (s := headersGivenUp d s) hd (by rw [hdom]; exact hst)
      (by rw [hdom]; exact hlead) hlate ((groupIn_headersGivenUp d s _ d).trans hgroup) hclean
    refine ⟨fencedNow d (headersGivenUp d s), ?_, hfenced, hout⟩
    rw [exec_of_run (f := dumpLimit d) hon rfl, dumpLimit_of_entries_done (by omega) hst hlead hareas]

/-- Settles O34: a fit island is opened by `domOpen`, an unfit domain refused by `releaseRefuse`. -/
theorem releaseOfDomains : Obligations.ReleaseOfDomains := by
  unfold Obligations.ReleaseOfDomains
  refine ⟨?fit, ?unfit⟩
  case fit =>
    intro d s hon hroom hreach hd hthere hst hruns hpass hrun hwait
    refine ⟨_, exec_releaseDomain_pf hon hroom hreach, ?_⟩
    rw [releaseDomain_of_fit hd hthere hst hruns hpass hrun hwait]
    refine ⟨?state, ?status, ?dom, ?fenced, fun e he => ⟨?otherDom, ?otherIsland⟩, ?_⟩
    case state => rw [getDom_domOpen hd, State.getDom_setDom]
    case fenced => rw [getIsland_domOpen hd, getIsland_updIsland, if_pos rfl]
    case otherDom =>
      rw [getDom_domOpen hd, State.getDom_setDom_other _ _ _ _ he]
      rfl
    case otherIsland =>
      rw [getIsland_domOpen hd, getIsland_updIsland, if_neg he]
      rfl
    all_goals
      obtain ⟨x, hx⟩ := domOpen_of_island hd { s with fault := { s.fault with relStatus := 0, relDom := d } }
      rw [hx]
    case status => rfl
    case dom => rfl
    exact ⟨rfl, rfl, rfl, rfl, rfl⟩
  case unfit =>
    intro d s hon hroom hreach _ hbad
    rw [exec_releaseDomain_pf hon hroom hreach, releaseDomain_of_unfit hbad]
    rfl

end Sys2Proof.Proofs
end

section
/-! Berth commands and the KeyID map (R421, R428 to R433). -/

namespace Sys2Proof.Machine

variable {s u : State} {i v : Nat} {b : Berth}

/-! ### Read-backs and writes of a berth -/

/-- With no mismatch to come, a read-back is good (R40). -/
theorem readBackFails_of_good (hgood : s.keys.rbFail = []) : readBackFails s = (false, s) := by
  simp [readBackFails, readBack, hgood]

/-- A write of a berth that is read back good leaves it with its tag, and no engine with a copy (R40, R428). -/
theorem writeBerth_of_good (hgood : s.keys.rbFail = []) :
    writeBerth i b s = (.ok, dropCopies i (s.setBerth i (tagged s i b))) := by
  have hread : readBackFails (dropCopies i (s.setBerth i (tagged s i b))) =
      (false, dropCopies i (s.setBerth i (tagged s i b))) := readBackFails_of_good hgood
  simp [writeBerth, hread]

/-- A change of a berth that is read back good stands (R40). -/
theorem berthPut_of_good (hgood : s.keys.rbFail = []) : berthPut i s = (.ok, s) := by
  simp [berthPut, readBackFails_of_good hgood]

/-- No check of a list fails. -/
theorem firstFail_of_pass {d : Status} : ∀ {l : List (Bool × Status)}, (∀ c ∈ l, c.1 = false) → firstFail d l = d
  | [], _ => rfl
  | (c, st) :: l, h => by
    have hc : c = false := h (c, st) List.mem_cons_self
    rw [firstFail, hc, if_neg Bool.false_ne_true]
    exact firstFail_of_pass fun x hx => h x (List.mem_cons_of_mem _ hx)

/-- Drawing from the DRBG touches no key. -/
theorem drbg_keys {n : Nat} {k : Bytes} (h : drbg n s = some (k, u)) : u.keys = s.keys := by
  unfold drbg at h
  split at h
  · exact nomatch h
  · dsimp only at h
    split at h
    · exact nomatch h
    · next w hw =>
      obtain ⟨-, rfl⟩ := Prod.mk.inj (Option.some.inj h)
      split at hw
      · rw [Option.some.inj hw]
      · unfold reseed at hw
        split at hw
        · exact nomatch hw
        · rw [← Option.some.inj hw]
          rfl

/-- GEN of a berth that passes its checks (R430). -/
theorem berthGen_of_pass {k : Bytes} (hgood : s.keys.rbFail = []) (hpass : ∀ c ∈ fillChecks i b s, c.1 = false)
    (hdraw : drbg 32 s = some (k, u)) :
    berthGen i b s = (.ok, dropCopies i (u.setBerth i (tagged u i { b with key := k, state := .valid }))) := by
  have hgood' : u.keys.rbFail = [] := by rw [drbg_keys hdraw, hgood]
  simp [berthGen, firstFail_of_pass hpass, hdraw, writeBerth_of_good hgood']

/-- DERIVE of a berth that passes its checks, under a parent that is loaded (R421, R430). -/
theorem berthDerive_of_pass {root : Bool} {parent label : Nat} {ctx pk : Bytes} (hgood : s.keys.rbFail = [])
    (hpass : ∀ c ∈ fillChecks i b s, c.1 = false) (hparent : parentKey root parent label b s = (.ok, pk, s)) :
    berthDerive i b root parent label ctx s = (.ok, dropCopies i (s.setBerth i (tagged s i { b with
      key := kdf pk label (kdfCtx s label ctx), state := .valid }))) := by
  simp [berthDerive, firstFail_of_pass hpass, hparent, writeBerth_of_good hgood]

/-- UNWRAP of a berth that passes its checks, under a wrap-usage parent that opens the key (R430, R477). -/
theorem berthUnwrap_of_pass {parent label : Nat} {f : Bytes → Option Bytes} {pk key : Bytes} (hgood : s.keys.rbFail = [])
    (hlo : 4 < label) (hhi : label < 9) (hpass : ∀ c ∈ fillChecks i b s, c.1 = false)
    (hparent : berthLoad parent mKdf 3 (fun _ => true) s = (.ok, pk, s)) (hfits : parentFits (s.getBerth parent) b = true)
    (hopen : f pk = some key) :
    berthUnwrap i b false parent label f s =
      (.ok, dropCopies i (s.setBerth i (tagged s i { b with key := key, state := .valid }))) := by
  have hlo' : ¬ label ≤ 4 := by omega
  have hhi' : ¬ 9 ≤ label := by omega
  have hall : ∀ c ∈ fillChecks i b s ++ [(decide (9 ≤ label), .eEncoding),
      (false && !(decide (label ≤ 4) && s.rootOk), .eLc), (false || decide (label ≤ 4), .ePermission)], c.1 = false := by
    intro c hc
    obtain hc | hc := List.mem_append.mp hc
    · exact hpass c hc
    · simp only [hlo', hhi', decide_false, Bool.false_and, Bool.false_or, List.mem_cons, List.not_mem_nil, or_false] at hc
      obtain rfl | rfl | rfl := hc <;> rfl
  unfold berthUnwrap
  rw [firstFail_of_pass hall]
  simp [hparent, hfits, hopen, writeBerth_of_good hgood]

/-- SET_STATE of a VALID berth to REVOKING takes its holders along (R232, R428). -/
theorem berthSetState_of_valid (hgood : s.keys.rbFail = []) (hst : (s.getBerth i).state = .valid) :
    berthSetState i 2 s =
      (.ok, revokeHolders i ((dropCopies i s).setBerth i { s.getBerth i with state := .revoking })) := by
  have hrevoke : revokeBerth i s = (dropCopies i s).setBerth i { s.getBerth i with state := .revoking } := if_pos hst
  have hput : berthPut i (revokeBerth i s) = (.ok, revokeBerth i s) :=
    berthPut_of_good (by rw [hrevoke]; exact hgood)
  unfold berthSetState
  rw [hst]
  dsimp only
  rw [hput, hrevoke]
  exact if_pos rfl

/-- SET_STATE of a REVOKING berth to QUARANTINE zeroes its key (R428). -/
theorem berthSetState_of_revoking (hgood : s.keys.rbFail = []) (hst : (s.getBerth i).state = .revoking) :
    berthSetState i 3 s =
      (.ok, s.setBerth i (tagged s i { s.getBerth i with key := zeros 32, state := .quarantine })) := by
  have hkept : quarantineBerth i s =
      s.setBerth i (tagged s i { s.getBerth i with key := zeros 32, state := .quarantine }) := if_pos hst
  unfold berthSetState
  rw [hst]
  dsimp only
  rw [hkept]
  exact berthPut_of_good hgood

/-- SET_STATE of a QUARANTINE berth to EMPTY releases it (R428). -/
theorem berthSetState_of_quarantine (hgood : s.keys.rbFail = []) (hst : (s.getBerth i).state = .quarantine) :
    berthSetState i 0 s = (.ok, emptyBerth i s) := by
  simp [berthSetState, hst, readBackFails_of_good hgood, releaseBerth]

/-! ### The commands -/

/-- What an operation of BERTH_CMD does, by its OP, to the berth selected (R430, R450). -/
def berthOp (v : Nat) (s : State) : Status × State :=
  let i := s.keys.berthSel
  let b := stageBerth s.keys.stage
  match bits 0 4 v with
  | 1 => berthGen i b s
  | 2 => if decide (256 < bits 25 9 v) then (.eEncoding, s)
         else berthDerive i b (bit1 20 v) (bits 4 16 v) (bits 21 4 v) (s.keys.ctx 0 (bits 25 9 v)) s
  | 3 => berthZeroise i s
  | 4 => berthSetState i (stageState s.keys.stage) s
  | 5 => berthSetMasters i b.masters s
  | 6 => if decide (256 < bits 25 9 v) then (.eEncoding, s)
         else berthUnwrap i b (bit1 20 v) (bits 4 16 v) (bits 21 4 v) (s.keys.unwrap (bits 25 9 v)) s
  | _ => (.eEncoding, s)

/-- A berth command of the row's OP runs while the audit buffer has room (R430). -/
theorem berthCmd_of_op {n : Nat} (hroom : s.auditFull = false) (hreach : s.isolated 26 = false) (hop : bits 0 4 v = n)
    (hlo : 1 ≤ n) (hhi : n ≤ 6) :
    berthCmd (some n) v s = berthEnd (s.getBerth s.keys.berthSel) s.keys.berthSel (berthOp v s) := by
  have hwant : ¬ (if 1 ≤ (berthCmdOf v).op ∧ (berthCmdOf v).op ≤ 6 then some (berthCmdOf v).op else none) ≠ some n := by
    subst hop
    exact not_not.mpr (if_pos ⟨hlo, hhi⟩)
  refine (if_neg hwant).trans ?_
  exact regGuard_of_permitted (a := keyBase + 0x118) hroom hreach

/-- The end of a berth command leaves the berths, and reports the status (R430). -/
theorem berthEnd_keys (before : Berth) (i : Nat) (st : Status) (s : State) :
    (berthEnd before i (st, s)).keys = { s.keys with status := st.code, kdfCtx := [] } := by
  unfold berthEnd
  dsimp only
  split
  · rfl
  · obtain ⟨_, _, _, _, _, _, hlog⟩ := auditLog_noted 3 st 0 0 0 i
      ((State.getBerth { s with keys := { s.keys with status := st.code, kdfCtx := [] } } i).attr
        (State.getBerth { s with keys := { s.keys with status := st.code, kdfCtx := [] } } i).state.code)
      { s with keys := { s.keys with status := st.code, kdfCtx := [] } }
    rw [hlog]
    rfl

/-- Prity's write of a KeyID map entry that is fit and new takes effect and is logged (R21, R433). -/
theorem kmapWrite_of_fit (hroom : s.auditFull = false) (hreach : s.isolated 26 = false) (hgood : s.keys.rbFail = [])
    (hok : kmapOk s.keys.kmapSel (kmapOf v) s = true) (hnew : kmapOf v ≠ s.getKmap s.keys.kmapSel) :
    kmapWrite v s = auditLog 1 .ok 0 0 0 (keyBase + 0x308) (kmapOf v).word (kmapPut s.keys.kmapSel (kmapOf v) s) := by
  unfold kmapWrite
  dsimp only
  rw [hok, regGuard_of_permitted hroom (by rwa [islandOf_management (by decide)])]
  simp [policyWrite, readBackFails_of_good hgood, hnew]

end Sys2Proof.Machine

namespace Sys2Proof.Proofs

open Sys2Proof.Machine Sys2Proof.Claims

/-- Settles O35: each command is the operation of its OP, whose checks pass. -/
theorem berthCommandsFill : Obligations.BerthCommandsFill := by
  unfold Obligations.BerthCommandsFill
  refine ⟨?gen, ?derive, ?unwrap, ?ends⟩
  case gen =>
    intro v i b k s u hon hroom hreach hgood hop hi hb hpass hdraw
    subst hi hb
    rw [exec_of_live (f := berthCmd (some 1) v) hon rfl, berthCmd_of_op hroom hreach hop (by decide) (by decide), berthOp, hop]
    exact congrArg (fun r => Host.Outcome.next (berthEnd _ _ r)) (berthGen_of_pass hgood hpass hdraw)
  case derive =>
    intro v i b pk s hon hroom hreach hgood hop hctx hi hb hpass hparent
    subst hi hb
    rw [exec_of_live (f := berthCmd (some 2) v) hon rfl, berthCmd_of_op hroom hreach hop (by decide) (by decide), berthOp, hop]
    have hfit : ¬ decide (256 < bits 25 9 v) = true := by simpa using hctx
    exact congrArg (fun r => Host.Outcome.next (berthEnd _ _ r))
      ((if_neg hfit).trans (berthDerive_of_pass hgood hpass hparent))
  case unwrap =>
    intro v i b pk key s hon hroom hreach hgood hop hctx hroot hlo hhi hi hb hpass hparent hfits hopen
    subst hi hb
    rw [exec_of_live (f := berthCmd (some 6) v) hon rfl, berthCmd_of_op hroom hreach hop (by decide) (by decide), berthOp, hop]
    have hfit : ¬ decide (256 < bits 25 9 v) = true := by simpa using hctx
    rw [hroot]
    exact congrArg (fun r => Host.Outcome.next (berthEnd _ _ r))
      ((if_neg hfit).trans (berthUnwrap_of_pass hgood hlo hhi hpass hparent hfits hopen))
  case ends =>
    intro before i st s
    have hkeys := berthEnd_keys before i st s
    refine ⟨?_, by rw [hkeys], by rw [hkeys]⟩
    rw [State.getBerth, hkeys]
    rfl

/-- Settles O36: each command is the operation of its OP in the berth's state, read back good. -/
theorem berthCommandsChange : Obligations.BerthCommandsChange := by
  unfold Obligations.BerthCommandsChange
  refine ⟨fun v i b s hon hroom hreach hgood hi hb => ?_, fun v s hon hroom hreach hgood hok hnew => ?kmap⟩
  case kmap =>
    rw [exec_of_live (f := kmapWrite v) hon rfl, kmapWrite_of_fit hroom hreach hgood hok hnew]
  subst hi hb
  refine ⟨?zeroise, ?zeroiseRefused, ?revoke, ?quarantine, ?release, ?masters⟩
  case zeroise =>
    intro hop hst
    rw [exec_of_run (f := berthCmd (some 3) v) hon rfl, berthCmd_of_op hroom hreach hop (by decide) (by decide), berthOp, hop]
    simp [berthZeroise, hst, readBackFails_of_good hgood]
  case zeroiseRefused =>
    intro hop hnotValid hnotBad
    rw [exec_of_run (f := berthCmd (some 3) v) hon rfl, berthCmd_of_op hroom hreach hop (by decide) (by decide), berthOp, hop]
    simp [berthZeroise, hnotValid, hnotBad]
  case revoke =>
    intro hop hst hdst
    rw [exec_of_run (f := berthCmd (some 4) v) hon rfl, berthCmd_of_op hroom hreach hop (by decide) (by decide), berthOp, hop]
    exact congrArg (fun r => Host.Outcome.next (settle (berthEnd _ _ r)))
      ((congrArg (fun d => berthSetState _ d s) hdst).trans (berthSetState_of_valid hgood hst))
  case quarantine =>
    intro hop hst hdst
    rw [exec_of_run (f := berthCmd (some 4) v) hon rfl, berthCmd_of_op hroom hreach hop (by decide) (by decide), berthOp, hop]
    exact congrArg (fun r => Host.Outcome.next (settle (berthEnd _ _ r)))
      ((congrArg (fun d => berthSetState _ d s) hdst).trans (berthSetState_of_revoking hgood hst))
  case release =>
    intro hop hst hdst
    rw [exec_of_run (f := berthCmd (some 4) v) hon rfl, berthCmd_of_op hroom hreach hop (by decide) (by decide), berthOp, hop]
    exact congrArg (fun r => Host.Outcome.next (settle (berthEnd _ _ r)))
      ((congrArg (fun d => berthSetState _ d s) hdst).trans (berthSetState_of_quarantine hgood hst))
  case masters =>
    intro hop hst
    rw [exec_of_live (f := berthCmd (some 5) v) hon rfl, berthCmd_of_op hroom hreach hop (by decide) (by decide), berthOp, hop]
    simp [berthSetMasters, hst, writeBerth_of_good hgood, stageBerth]

end Sys2Proof.Proofs
end


section
/-! The mailbox: what it does with a command that it accepts, and by it the stages of FW_UPDATE (O38), the end of an
ACTIVATE (O39) and the reports (O40). -/

namespace Sys2Proof.Machine

open Sys2Proof.Claims (mbOn)

/-! ### An accepted mailbox command -/

/-- What the mailbox makes of a command's answer: the end it names, or the state in which the command goes on. -/
def mbAnswer (r : MbAns) : State :=
  match r.1 with
  | some (st, res) => mbEnd st res r.2
  | none => r.2

@[simp] theorem mbAnswer_some (st : Status) (res : Nat) (s : State) : mbAnswer (some (st, res), s) = mbEnd st res s := rfl

@[simp] theorem mbAnswer_none (s : State) : mbAnswer (none, s) = s := rfl

@[simp] theorem mbAnswer_fwOk (stage : Nat) (s : State) : mbAnswer (fwOk stage s) = mbEnd .ok 0 (fwOk stage s).2 := rfl

/-- The nonce of a QUOTE: operand words 1 to 4 (R465). -/
def State.quoteNonce (s : State) : Bytes := ((List.range 4).map (fun i => leBytes 8 (s.oper (1 + i)))).flatten

/-- FW_UPDATE and LC_TRANSITION are served by the boot ROM and while a transition is PENDING; every other command needs
Prity's firmware and none PENDING (R442, R447). -/
def MbServed (code : Nat) (s : State) : Prop :=
  code = 0x18 ∨ code = 0x60 ∨ (s.fw.up = true ∧ s.lc.pending = false)

variable {code : Nat} {lc : List Nat} {s : State}

/-- R335 to R338: a command that no check stops runs under BUSY, and ends as it answers. -/
theorem mbRun_of_accepted {f : State → MbAns} (hroom : s.auditFull = false) (hidle : s.mbox.busy = false)
    (hlc : lc.contains s.lcState = true) (hserved : MbServed code s) :
    mbRun code false lc true f s = mbAnswer (f (mbOn code s)) := by
  have hchecks : firstFail .ok [(false, .eEncoding), (!lc.contains s.lcState, .eLc),
      (!true || (!decide (code = 0x18 ∨ code = 0x60) && (!s.fw.up || s.lc.pending)), .eState)] = .ok := by
    refine firstFail_of_pass ?_
    simp only [List.forall_mem_cons, hlc, Bool.not_true, Bool.false_or, Bool.and_eq_false_iff]
    refine ⟨trivial, trivial, ?_, by simp⟩
    obtain h | h | ⟨hup, hpend⟩ := hserved
    · exact .inl (by simp [h])
    · exact .inl (by simp [h])
    · exact .inr (by simp [hup, hpend])
  unfold mbRun
  refine (if_neg (by simp [hroom])).trans ((if_neg (by simp [hidle])).trans ((if_neg ?_).trans rfl))
  exact fun h => h hchecks

/-- The stages of FW_UPDATE are those of R602, each accepted in any life-cycle state from 1 to 5. -/
theorem fwStage_of_accepted {stage : Nat} {f : State → MbAns} (hroom : s.auditFull = false) (hidle : s.mbox.busy = false)
    (hlo : 1 ≤ s.lcState) (hhi : s.lcState ≤ 5) (hop : s.oper 0 = stage) (hstage : stage ≤ 6) :
    fwStage stage f s = mbAnswer (f (mbOn 0x18 s)) := by
  have hlc : [1, 2, 3, 4, 5].contains s.lcState = true := by simp; omega
  have henc : decide (7 ≤ s.oper 0) = false := by simp; omega
  rw [fwStage, if_neg (by omega), henc]
  exact mbRun_of_accepted hroom hidle hlc (.inl rfl)

@[simp] theorem otpWord_otpPush (r : OtpReq) (i : Nat) (s : State) : (otpPush r s).otpWord i = s.otpWord i := by
  obtain ⟨_, _, _, _, _, _, h⟩ := otpPush_noted r s
  rw [h]
  rfl

@[simp] theorem mbOn_standby (code : Nat) (s : State) : (mbOn code s).standby = s.standby := rfl

@[simp] theorem mbOn_fwBank (code b : Nat) (s : State) : (mbOn code s).fwBank b = s.fwBank b := rfl

@[simp] theorem mbOn_drbgReady (code : Nat) (s : State) : (mbOn code s).drbgReady = s.drbgReady := rfl

@[simp] theorem mbOn_imageSigned (code : Nat) (d : Bytes) (s : State) : (mbOn code s).imageSigned d = s.imageSigned d := rfl

/-- QUOTE of the kind that a row takes is accepted while the block runs (R465); what it answers is left to the DRBG
and to its kind. -/
theorem quote_of_accepted {package : Bool} (hroom : s.auditFull = false) (hidle : s.mbox.busy = false)
    (hlc : [2, 3, 4].contains s.lcState = true) (hup : s.fw.up = true) (hpend : s.lc.pending = false)
    (hrun : s.running = true) (hop : s.oper 0 = if package then 1 else 0) :
    quote package s = mbAnswer
      (if !(mbOn 0x10 s).drbgReady then (some (.eNoRes, 0), mbOn 0x10 s)
       else if package then (none, reportBegin { kind := 1, nonce := s.quoteNonce, asker := .mailbox } (mbOn 0x10 s))
       else match instanceReport s.quoteNonce (mbOn 0x10 s) with
         | none => (some (.eNoRes, 0), mbOn 0x10 s)
         | some (d, s) => (some (.ok, d.length), mbPut d s)) := by
  have hkind : ¬ decide (s.oper 0 % 4 = 1) ≠ package := by cases package <;> simp [hop]
  have henc : decide (4 ≤ s.oper 0 ∨ 2 ≤ s.oper 0 % 4) = false := by cases package <;> simp [hop]
  rw [quote, if_neg hkind, henc, hrun, hpend]
  exact mbRun_of_accepted hroom hidle hlc (.inr (.inr ⟨hup, hpend⟩))

/-- Prity stopped by an ACTIVATE that goes to a bank, from a run state (R603). -/
def activating (prev bank svn : Nat) (s : State) : State :=
  { s with fw := { s.fw with activating := true, up := false, prevRun := prev, run := 1, bank := bank, svn := svn } }

/-! ### What the identity of an image leaves alone -/

theorem berthLoad_keyWorked (i master usage : Nat) (fits : Berth → Bool) (s : State) :
    KeyWorked s (berthLoad i master usage fits s).2.2 := by
  unfold berthLoad
  dsimp only
  split
  · exact .refl s
  · split
    · exact .refl s
    · split
      · exact (KeyWorked.of_noted ((bump_noted _ s).trans (raisePriv_noted ..))).trans (makeBad_keyWorked ..)
      · exact .refl s

theorem parentKey_keyWorked (root : Bool) (parent label : Nat) (b : Berth) (s : State) :
    KeyWorked s (parentKey root parent label b s).2.2 := by
  have hload := berthLoad_keyWorked parent mKdf (kdfUsage label) (fun _ => true) s
  unfold parentKey
  dsimp only
  repeat' split
  case isFalse.isFalse.isFalse.isTrue | isFalse.isFalse.isFalse.isFalse => exact hload
  all_goals exact .refl s

theorem berthDerive_keyWorked (i : Nat) (b : Berth) (root : Bool) (parent label : Nat) (ctx : Bytes) (s : State) :
    KeyWorked s (berthDerive i b root parent label ctx s).2 := by
  have hparent := parentKey_keyWorked root parent label b s
  unfold berthDerive
  dsimp only
  split
  · exact .refl s
  · split
    · exact hparent
    · exact hparent.trans (writeBerth_keyWorked ..)

/-- The identity is built in berths and in the key store: the firmware's state is as it was. -/
@[simp] theorem buildIdentity_fw (s : State) : (buildIdentity s).fw = s.fw := by
  have hstep : ∀ i b ctx, (berthStep i (berthDerive i b true 0 0 ctx) s).2.fw = s.fw := by
    intro i b ctx
    obtain ⟨_, _, _, _, _, _, _, _, _, h⟩ := berthStep_keyWorked (berthDerive_keyWorked i b true 0 0 ctx s)
    rw [h]
  unfold buildIdentity
  dsimp only
  split
  · rfl
  · cases s.att.store.uds with
    | some i => rfl
    | none =>
      cases s.freeBerth with
      | none => rfl
      | some i =>
        dsimp only
        split <;> exact hstep ..

end Sys2Proof.Machine

namespace Sys2Proof.Proofs

open Sys2Proof.Machine Sys2Proof.Claims

/-- Settles O38: each stage is accepted, and its own checks decide its answer. -/
theorem firmwareStagesRun : Obligations.FirmwareStagesRun := by
  unfold Obligations.FirmwareStagesRun
  intro s u x hon hroom hidle hlo hhi hu hx
  subst hu hx
  refine ⟨?begin, ?data, ?verify, ?unsigned, ?activate, ?commitNow, ?commitBurn, ?revert, ?abort, ?abortEmpty⟩
  case begin =>
    intro hop hmul hmin hmax hrun
    rw [exec_of_live (f := fwBegin) hon rfl, fwBegin, fwStage_of_accepted hroom hidle hlo hhi hop (by decide)]
    have hlen : ¬(s.oper 1 % 8 ≠ 0 ∨ s.oper 1 < 8193 ∨ 1048576 < s.oper 1) := by omega
    exact congrArg (fun r => Host.Outcome.next (mbAnswer r)) ((if_neg hlen).trans (if_neg hrun))
  case data =>
    intro hop hstate hat hlen
    rw [exec_of_live (f := fwData) hon rfl, fwData, fwStage_of_accepted hroom hidle hlo hhi hop (by decide)]
    have hfits : ¬(s.oper 1 ≠ (s.fwBank s.standby).data.length ∨ (s.fwBank s.standby).len < s.oper 1 + s.mbox.dataLen) := by
      omega
    exact congrArg (fun r => Host.Outcome.next (mbAnswer r)) ((if_neg (not_not.mpr hstate)).trans (if_neg hfits))
  case verify =>
    intro hop hstate hlen hsigned hmax harb hformat
    rw [exec_of_live (f := fwVerify) hon rfl, fwVerify, fwStage_of_accepted hroom hidle hlo hhi hop (by decide)]
    refine congrArg (fun r => Host.Outcome.next (mbAnswer r)) (if_neg (not_not.mpr (firstFail_of_pass ?_)))
    have hcomplete : ¬((s.fwBank s.standby).state ≠ .loading ∨ (s.fwBank s.standby).data.length < (s.fwBank s.standby).len) :=
      fun h => h.elim (fun h => h hstate) hlen.not_gt
    exact List.forall_mem_cons.mpr ⟨decide_eq_false hcomplete, List.forall_mem_cons.mpr ⟨congrArg not hsigned,
      List.forall_mem_cons.mpr ⟨decide_eq_false hmax.not_gt, List.forall_mem_cons.mpr ⟨decide_eq_false harb.not_gt,
      List.forall_mem_cons.mpr ⟨congrArg not hformat, by simp⟩⟩⟩⟩⟩
  case unsigned =>
    intro hop hstate hlen hsigned
    rw [exec_of_live (f := fwVerify) hon rfl, fwVerify, fwStage_of_accepted hroom hidle hlo hhi hop (by decide)]
    have hcomplete : ¬((s.fwBank s.standby).state ≠ .loading ∨ (s.fwBank s.standby).data.length < (s.fwBank s.standby).len) :=
      fun h => h.elim (fun h => h hstate) hlen.not_gt
    simp only [mbOn_standby, mbOn_fwBank, mbOn_imageSigned, hcomplete, hsigned, decide_false]
    rfl
  case activate =>
    intro hop hstate hheld hrom harb hrun
    rw [exec_of_live (f := fwActivate) hon rfl, fwActivate, fwStage_of_accepted hroom hidle hlo hhi hop (by decide)]
    have hmay : ¬((s.fwBank s.standby).state ≠ .verified ∨ s.fwHeld = true ∨ s.fw.romOnly = true) := by
      simp [hstate, hheld, hrom]
    have hstays : (if (mbOn 0x18 s).fw.run ≠ 0 then endSessions (mbOn 0x18 s) else mbOn 0x18 s) = mbOn 0x18 s :=
      if_neg (not_not.mpr hrun)
    refine (congrArg (fun r => Host.Outcome.next (mbAnswer r)) ((if_neg hmay).trans (if_neg harb.not_gt))).trans ?_
    simp only [mbAnswer_none, hstays]
    exact congrArg (fun n => Host.Outcome.next (activating n s.standby (s.fwBank s.standby).svn (mbOn 0x18 s))) hrun
  case commitNow =>
    intro hop hrun hsvn
    rw [exec_of_live (f := fwCommit) hon rfl, fwCommit, fwStage_of_accepted hroom hidle hlo hhi hop (by decide)]
    exact congrArg (fun r => Host.Outcome.next (mbAnswer r)) ((if_neg (not_not.mpr hrun)).trans (if_pos hsvn))
  case commitBurn =>
    intro hop hrun hsvn
    rw [exec_of_live (f := fwCommit) hon rfl, fwCommit, fwStage_of_accepted hroom hidle hlo hhi hop (by decide)]
    refine (congrArg (fun r => Host.Outcome.next (mbAnswer r)) ((if_neg (not_not.mpr hrun)).trans (if_neg hsvn.not_ge))).trans ?_
    simp only [mbAnswer_none, otpWord_otpPush]
    rfl
  case revert =>
    intro hop hrun hstate harb
    rw [exec_of_live (f := fwRevert) hon rfl, fwRevert, fwStage_of_accepted hroom hidle hlo hhi hop (by decide)]
    have hmay : ¬(s.fw.run ≠ 1 ∨ (s.fwBank s.standby).state ≠ .verified ∨ (s.fwBank s.standby).svn < s.arb) := by
      simp [hrun, hstate, harb]
    refine (congrArg (fun r => Host.Outcome.next (mbAnswer r)) (if_neg hmay)).trans ?_
    simp only [mbAnswer_fwOk]
    rfl
  case abort =>
    intro hop hstate
    rw [exec_of_live (f := fwAbort) hon rfl, fwAbort, fwStage_of_accepted hroom hidle hlo hhi hop (by decide)]
    exact congrArg (fun r => Host.Outcome.next (mbAnswer r)) (if_neg hstate)
  case abortEmpty =>
    intro hop hstate
    rw [exec_of_live (f := fwAbort) hon rfl, fwAbort, fwStage_of_accepted hroom hidle hlo hhi hop (by decide)]
    exact congrArg (fun r => Host.Outcome.next (mbAnswer r)) (if_pos hstate)

/-- Settles O39: the image's report or the time's end finds the ACTIVATE under way, or finds none. -/
theorem activationEnds : Obligations.ActivationEnds := by
  unfold Obligations.ActivationEnds
  refine ⟨fun s hon hact hprev => ?ready, fun s hon hact hprev => ?toRom, fun s hon hact hprev => ?toPrevious,
    fun s hon hact => ⟨?noReady, ?noTimeout⟩⟩
  case ready =>
    have hkeeps : (prityBoot s.fw.bank { s with fw := { s.fw with activating := false } }).fw.prevRun = 0 :=
      (congrArg Fw.prevRun (buildIdentity_fw _)).trans hprev
    rw [exec_of_live (f := imageReady) hon rfl, imageReady]
    refine congrArg Host.Outcome.next ((if_neg (by simp [hact])).trans ?_)
    exact congrArg (fun t => mbEnd .ok 0 (fwOk 3 t).2) (if_neg (not_not.mpr hkeeps))
  case toRom =>
    rw [exec_of_live (f := activateTimeout) hon rfl, activateTimeout]
    refine congrArg Host.Outcome.next ((if_neg (by simp [hact])).trans ?_)
    rw [hprev]
    rfl
  case toPrevious =>
    rw [exec_of_live (f := activateTimeout) hon rfl, activateTimeout]
    refine congrArg Host.Outcome.next ((if_neg (by simp [hact])).trans ?_)
    exact congrArg (mbEnd .eIntegrity 0) (if_neg hprev)
  case noReady =>
    rw [exec_of_live (f := imageReady) hon rfl, imageReady, if_pos (by simp [hact])]
  case noTimeout =>
    rw [exec_of_live (f := activateTimeout) hon rfl, activateTimeout, if_pos (by simp [hact])]

/-- Settles O40: a QUOTE is accepted and built, or is sent to the other dies; a package report ends with the entries
it has. -/
theorem quotesRun : Obligations.QuotesRun := by
  unfold Obligations.QuotesRun
  refine ⟨?report, ?package, ?noDrbg, ?timeout, ?noReport⟩
  case report =>
    intro d s t hready hrun hop hdrbg hreport
    obtain ⟨hon, hroom, hidle, hlc, hup, hpend⟩ := hready
    rw [exec_of_live (f := quote false) hon rfl, quote_of_accepted (package := false) hroom hidle hlc hup hpend hrun hop,
      if_neg (by simp [hdrbg]), if_neg (by decide), State.quoteNonce, hreport]
    rfl
  case package =>
    intro s j hready hrun hop hdrbg hnone hlead hfed hj
    obtain ⟨hon, hroom, hidle, hlc, hup, hpend⟩ := hready
    subst hj
    rw [exec_of_live (f := quote true) hon rfl, quote_of_accepted (package := true) hroom hidle hlc hup hpend hrun hop,
      if_neg (by simp [hdrbg]), if_pos rfl, reportBegin]
    exact congrArg Host.Outcome.next ((if_neg (Option.not_isSome_iff_eq_none.mpr hnone)).trans
      ((if_neg (ne_true_of_eq_false hlead)).trans (if_pos hfed)))
  case noDrbg =>
    intro s o hready hrun hop hkind hdrbg
    obtain ⟨hon, hroom, hidle, hlc, hup, hpend⟩ := hready
    have hquote : ∀ package : Bool, s.oper 0 = (if package then 1 else 0) →
        quote package s = mbEnd .eNoRes 0 (mbOn 0x10 s) := by
      intro package hop
      rw [quote_of_accepted hroom hidle hlc hup hpend hrun hop, if_pos (by simp [hdrbg])]
      rfl
    obtain rfl | rfl := hkind
    · exact (exec_of_live (f := quote false) hon rfl).trans (congrArg _ (hquote false hop))
    · exact (exec_of_live (f := quote true) hon rfl).trans (congrArg _ (hquote true hop))
  case timeout =>
    intro j d s t hon hj hlead hreport
    rw [exec_of_live (f := dieEntryTimeout) hon rfl, dieEntryTimeout, hj]
    refine congrArg Host.Outcome.next ((if_neg (by simp [hlead])).trans ?_)
    rw [reportFinish, hreport]
  case noReport =>
    intro s hon hnone
    rw [exec_of_live (f := dieEntryTimeout) hon rfl, dieEntryTimeout, hnone]

end Sys2Proof.Proofs
end


section
/-! The Lichen engines' upstream port (O41) and Prity's writes to them (O43). -/

namespace Sys2Proof.Machine

/-! ### A Lichen engine's upstream port -/

section
variable {n lane : Nat} {r : UpReq} {s : State}

theorem lanePort_of_runs (hn : n < 8) (hlane : lane < 12) (hruns : s.runs n = true) : s.lanePort n lane = true := by
  simp [State.lanePort, hn, hlane, hruns]

/-- A request on a lane that holds none is presented (R50). -/
theorem upstreamRequest_of_free (hport : s.lanePort n lane = true)
    (hfree : (Tab.get ({} : Lane) (s.eng n).lanes lane).held = none) :
    upstreamRequest n lane r s = presentReq n lane r s := if_pos ⟨hport, hfree⟩

/-- A partial write waits on its lane while every merge entry is held (R63). -/
theorem presentReq_of_full (hop : r.op = 2) (hfull : (s.eng n).mergeHeld = 64) :
    presentReq n lane r s = updLane n lane (fun l => { l with held := some r }) s := if_pos ⟨hop, hfull⟩

/-- Any other request is checked at once. -/
theorem presentReq_of_room (hroom : ¬(r.op = 2 ∧ (s.eng n).mergeHeld = 64)) : presentReq n lane r s = acceptReq n lane r s :=
  if_neg hroom

/-- The state in which a request is checked: its serial is used and its beats wait. -/
theorem acceptReq_eq : acceptReq n lane r s =
    let c := upCheck n r (Claims.laneTook n lane r s)
    if c.1 ≠ .ok then failReq n lane s.serial r c.1 c.2.2
    else advance n ((List.range (r.lines + 1)).foldl
      (fun s' i => acceptLine n (upLine n lane s.serial r c.2.1 i s'.fresh.1 s'.fresh.2) s'.fresh.2)
      (updLane n lane (fun l => { l with jobs := l.jobs ++ [{ serial := s.serial, req := r }] }) c.2.2)) := rfl

/-- A closed domain refuses a request before every other check (R57, R50). -/
theorem upCheck_of_closed (hclosed : s.closedDom n = true) : upCheck n r s = (.eFenced, [], s) := by
  simp only [upCheck, hclosed, firstFail]
  rfl

/-- In an open domain the encoding of a request comes first (R57). -/
theorem upCheck_of_encoding (hopen : s.closedDom n = false) (henc : r.op = 3 ∨ r.addr % 128 ≠ 0 ∨ (r.op = 2 ∧ r.lines ≠ 0)) :
    upCheck n r s = (.eEncoding, [], s) := by
  simp only [upCheck, hopen, henc, decide_true, firstFail]
  rfl

/-- A beat goes to the line that waits for it longest (R59, R60). -/
theorem writeDataBeat_of_line {serial idx be : Nat} {l : List (Nat × Nat)} {data : Bytes} {o : LineOp}
    (hport : s.lanePort n lane = true) (hbeats : (Tab.get ({} : Lane) (s.eng n).lanes lane).beats = (serial, idx) :: l)
    (hfind : ((updLane n lane (fun x => { x with beats := l }) s).eng n).ops.find?
      (fun o => decide (o.org = .up lane serial idx)) = some o) :
    writeDataBeat n lane data be s = advance n (putLine n { o with beat := some (slice 0 128 data, be % 2 ^ 128) }
      (updLane n lane (fun x => { x with beats := l }) s)) := by
  simp only [writeDataBeat, hport, hbeats, hfind, Bool.not_true, Bool.false_eq_true, if_false]

/-- A beat of a failed write is discarded (R60). -/
theorem writeDataBeat_of_no_line {serial idx be : Nat} {l : List (Nat × Nat)} {data : Bytes}
    (hport : s.lanePort n lane = true) (hbeats : (Tab.get ({} : Lane) (s.eng n).lanes lane).beats = (serial, idx) :: l)
    (hfind : ((updLane n lane (fun x => { x with beats := l }) s).eng n).ops.find?
      (fun o => decide (o.org = .up lane serial idx)) = none) :
    writeDataBeat n lane data be s = updLane n lane (fun x => { x with beats := l }) s := by
  simp only [writeDataBeat, hport, hbeats, hfind, Bool.not_true, Bool.false_eq_true, if_false]

end

/-! ### Prity's writes to Lichen -/

section
variable {n f dst : Nat} {s : State}

/-- An engine's registers lie in its own island (R28). -/
theorem islandOf_licBase (hn : n < 8) : islandOf (licBase n) = n := by
  interval_cases n <;> rfl

/-- A write of CTRL on a present engine is Prity's, or is counted (R170, R20). -/
theorem licCtrl_of_present {m : Master} {g : Nat → State → State} (hn : n < 8) (hthere : s.hasEng n = true)
    (hroom : s.auditFull = false) (hreach : s.isolated n = false) :
    licCtrl m n g s = if m = .prity then advance n (g n s) else bump (permAddr (licBase n)) s := by
  rw [licCtrl, if_pos hthere]
  have hmine : s.isolated (islandOf (licBase n)) = false := by rwa [islandOf_licBase hn]
  by_cases hm : m = .prity
  · rw [if_pos hm, decide_eq_true hm, regGuard_of_permitted hroom hmine]
  · rw [if_neg hm, decide_eq_false hm, regGuard_of_refused hroom hmine]

/-- INIT starts the fill where the range is empty and the configuration is right (R131). -/
theorem licInit_of_fit (hempty : (s.eng n).reg.limit ≤ (s.eng n).reg.base) (hidle : (s.eng n).reg.initBusy = false)
    (hcfg : (s.eng n).reg.cfgErr s.straps.tagSb = false) :
    licInit n s = initDue n (s.setEng n { s.eng n with reg := { (s.eng n).reg with initBusy := true }, fill := 0, cc := [] }) :=
  if_neg (by simp [hempty, hidle, hcfg])

/-- FLUSH of an engine with no dirty counter line queues nothing (R170). -/
theorem licFlush_of_clean (hclean : ∀ c ∈ (s.eng n).cc, c.dirty = false) :
    licFlush n s = s.setEng n { s.eng n with due := (s.eng n).due ++ [] } := by
  have hnone : ∀ p : CtrLine → Bool, (s.eng n).cc.filter (fun c => c.dirty && p c) = [] :=
    fun p => List.filter_eq_nil_iff.mpr fun c hc => by simp [hclean c hc]
  rw [licFlush]
  simp only [hnone, List.map_nil]

/-- A permitted change of a frozen region's STATE is made on every engine and logged (R162, R175). -/
theorem frzWrite_of_moves (hgood : s.keys.rbFail = []) (hmoves : s.frzMoves f dst = true) :
    (frzWrite f dst s).2 = s.engines.foldl (fun t n => auditLog 1 .ok 0 0 0 (frzAddr n f + 0x10)
      (fld 0 2 dst + fld 2 13 (s.frz f).keyid + fld 32 32 (if dst = 1 then (s.frz f).gen + 1 else (s.frz f).gen)) t)
      (frzEnter f dst s) := by
  simp only [frzWrite, hmoves, readBackFails_of_good hgood, Bool.not_true, Bool.false_eq_true, if_false]

/-- A change that R162 does not permit is counted on every engine. -/
theorem frzWrite_of_stays (hstays : s.frzMoves f dst = false) :
    (frzWrite f dst s).2 = s.engines.foldl (fun t n => bump (permAddr (frzAddr n f)) t) s := by
  simp only [frzWrite, hstays, Bool.not_false, if_true]
  rfl

/-- No region enters LOADING with its generation used up (R162). -/
theorem frzMoves_of_last_gen (hst : (s.frz f).state = 0 ∨ (s.frz f).state = 2) (hgen : (s.frz f).gen = 0xFFFFFFFF) :
    s.frzMoves f 1 = false := by
  obtain hst | hst := hst <;> simp [State.frzMoves, hst, hgen]

end

end Sys2Proof.Machine

namespace Sys2Proof.Proofs

open Sys2Proof.Machine Sys2Proof.Claims

/-- Settles O41: a request waits, fails or is accepted; a beat and a handed plaintext go to the line that waits. -/
theorem lichenUpstreamPort : Obligations.LichenUpstreamPort := by
  unfold Obligations.LichenUpstreamPort
  refine ⟨?request, fun n r s => ⟨upCheck_of_closed, upCheck_of_encoding⟩, ?waits, ?beat, ?chain⟩
  case request =>
    intro n lane r st key s v hon hn hlane hruns hfree hroom hcheck
    rw [exec_of_run (f := upstreamRequest n lane r) hon rfl, upstreamRequest_of_free (lanePort_of_runs hn hlane hruns) hfree,
      presentReq_of_room hroom, acceptReq_eq, hcheck]
    exact ⟨fun hfail => congrArg (fun t => Host.Outcome.next (settle t)) (if_pos hfail),
      fun hok => congrArg (fun t => Host.Outcome.next (settle t)) (if_neg (not_not.mpr hok))⟩
  case waits =>
    intro n lane r s hon hn hlane hruns hop hfull
    have hport := lanePort_of_runs hn hlane hruns
    refine ⟨fun hfree => ?_, fun hfree => ?_, fun u hu hheld hstill => ?_⟩
    · rw [exec_of_run (f := upstreamRequest n lane r) hon rfl, upstreamRequest_of_free hport hfree,
        presentReq_of_full hop hfull]
    · rw [exec_of_run (f := requestWithdrawal n lane r) hon rfl, requestWithdrawal, if_neg (by simp [hfree])]
    · subst hu
      rw [exec_of_run (f := requestWithdrawal n lane r) hon rfl, requestWithdrawal,
        if_pos ⟨hport, Option.isSome_iff_ne_none.mpr hheld, hfull⟩, presentReq_of_full hop hstill]
  case beat =>
    intro n lane serial idx l data be s u hon hn hlane hruns hbeats hu
    subst hu
    have hport := lanePort_of_runs hn hlane hruns
    rw [exec_of_run (f := writeDataBeat n lane data be) hon rfl]
    exact ⟨fun o hfind => by rw [writeDataBeat_of_line hport hbeats hfind],
      fun hfind => by rw [writeDataBeat_of_no_line hport hbeats hfind]⟩
  case chain =>
    intro n entry o next p s hon hentry hphase hplain hnext
    rw [exec_of_run (f := chainHandoff n entry) hon rfl, chainHandoff]
    simp only [hentry, hphase, hplain, hnext]

/-- Settles O43: Prity's write takes effect, another master's is counted; a frozen region moves as R162 permits. -/
theorem lichenControlWrites : Obligations.LichenControlWrites := by
  unfold Obligations.LichenControlWrites
  refine ⟨?control, ?frozen, fun f s => ⟨frzMoves_of_last_gen, fun hst => ?empties, fun hst => by simp [State.frzMoves, hst]⟩⟩
  case control =>
    intro n s hon hn hthere hroom hreach
    refine ⟨fun hempty hidle hcfg => ?init, ?flush, licFlush_of_clean, ?initRefused, ?flushRefused⟩
    case init =>
      rw [exec_of_run (f := licCtrl .prity n licInit) hon rfl, licCtrl_of_present hn hthere hroom hreach, if_pos rfl,
        licInit_of_fit hempty hidle hcfg]
    case flush =>
      rw [exec_of_run (f := licCtrl .prity n licFlush) hon rfl, licCtrl_of_present hn hthere hroom hreach, if_pos rfl]
    case initRefused =>
      rw [exec_of_run (f := licCtrl .pf n licInit) hon rfl, licCtrl_of_present hn hthere hroom hreach, if_neg nofun]
    case flushRefused =>
      rw [exec_of_run (f := licCtrl .pf n licFlush) hon rfl, licCtrl_of_present hn hthere hroom hreach, if_neg nofun]
  case frozen =>
    intro f dst s hon hroom hgood hf hdst
    have hrow : exec (.frzStateWrite f dst) s = .next (settle (frzWrite f dst s).2) := by
      rw [exec_of_run (f := fun s => if s.auditFull then s else (frzWrite (f % 64) (dst % 4) s).2) hon rfl,
        if_neg (ne_true_of_eq_false hroom), Nat.mod_eq_of_lt hf, Nat.mod_eq_of_lt hdst]
    exact ⟨fun hmoves => by rw [hrow, frzWrite_of_moves hgood hmoves], fun hstays => by rw [hrow, frzWrite_of_stays hstays]⟩
  case empties =>
    obtain hst | hst := hst <;> simp [State.frzMoves, hst]

end Sys2Proof.Proofs
end


section
/-! Tide: the commands of O44. -/

namespace Sys2Proof.Machine

open Sys2Proof.Claims (mbOn)

variable {n j : Nat} {s v : State}

/-! ### REKEY -/

/-- A REKEY that ends with OK has drawn its key into the lowest EMPTY berth and queued its job (R180, R179). -/
theorem rekeyStart_of_ok {o : Nat} {key : Bytes} (hok : (rekeyStart o s).1 = .ok) (hgood : s.keys.rbFail = [])
    (hdraw : drbg 32 s = some (key, v)) :
    rekeyStart o s =
      let k := s.getKmap (bits 0 13 o)
      let ob := if k.altMask ≠ 0 ∧ bits 16 8 o = k.altMask then k.alt else k.berth
      let old := s.getBerth ob
      let b := v.freeBerth.getD 0
      (.ok, queueJob (v.freeJob.getD 0)
        { kind := 1, keyid := bits 0 13 o, moor := (old.ten.bind tenMoor).getD 0, mask := bits 16 8 o, oldBerth := ob
          newBerth := b }
        (dropCopies b (v.setBerth b (tagged v b
          { key := key, masters := old.masters, world := old.world, tenant := old.tenant, lcmask := old.lcmask
            usage := 0, state := .valid })))) := by
  have hgood' : v.keys.rbFail = [] := by rw [drbg_keys hdraw, hgood]
  unfold rekeyStart at hok ⊢
  dsimp only at hok ⊢
  generalize firstFail .ok _ = st at hok ⊢
  split at hok
  · next hst => exact absurd (hst.symm.trans hok) (by decide)
  · split at hok
    · next hst => exact absurd hok hst
    · next hstate hst =>
      rw [if_neg hstate, if_neg hst, hdraw]
      simp only [fillBerth, writeBerth_of_good hgood', ne_eq, not_true_eq_false, if_false]

/-- REKEY with an operand in its encoding runs, and ends with its status. -/
theorem rekeyCmd_of_ready (hroom : s.auditFull = false) (hidle : s.mbox.busy = false) (hlc : lcAny.contains s.lcState = true)
    (hup : s.fw.up = true) (hpend : s.lc.pending = false) (henc : strays (s.oper 0) 0xFF1FFF = false) :
    rekeyCmd s = mbEnd (rekeyStart (s.oper 0) (mbOn 0x30 s)).1 0 (rekeyStart (s.oper 0) (mbOn 0x30 s)).2 := by
  rw [rekeyCmd, henc]
  exact mbRun_of_accepted hroom hidle hlc (.inr (.inr ⟨hup, hpend⟩))

/-! ### A slice takes a scrub job -/

@[simp] theorem job_setJob (s : State) (j : Nat) (x : TideJob) : (s.setJob j x).job j = x := Tab.get_set_same _ _ _

@[simp] theorem tslice_setSlice (s : State) (n : Nat) (z : Slice) : (s.setSlice n z).tslice n = z := Tab.get_set_same _ _ _

/-- The slice of a scrub job, over the intervals of the tenant that leaves (R179, R193). -/
def scrubSlice (n j : Nat) (x : TideJob) (s : State) : Slice :=
  let z := { s.tslice n with localFirst := 0, localEnd := 0, poolFirst := 0, poolEnd := 0, more := s.scrubIvs x.moor n
                             newBerth := s.tide.scrubBerth, oldBerth := 0 }
  let first := (z.ivs.head?.map (·.1)).getD 0
  { z with kind := 2, held := false, job := j, keyid := 0, moor := x.moor, tideLine := first, next := first, fin := []
           credit := 0, other := 0, press := false }

/-- The state in which an engine has begun a scrub job: its slice is set up and the slice's counts start at 0. -/
def scrubBegun (n j : Nat) (x : TideJob) (s : State) : State :=
  [0x38, 0x40, 0x48, 0x50].foldl (fun s o => { s with cnt := Tab.set 0 s.cnt (sliceBase n + o) 0 })
    ((s.setJob j { x with state := 2, began := x.began + 2 ^ n }).setSlice n (scrubSlice n j x s))

@[simp] theorem scrubBegun_tslice (x : TideJob) : (scrubBegun n j x s).tslice n = scrubSlice n j x s :=
  tslice_setSlice _ n _

@[simp] theorem scrubBegun_job (x : TideJob) : (scrubBegun n j x s).job j = { x with state := 2, began := x.began + 2 ^ n } :=
  job_setJob s j { x with state := 2, began := x.began + 2 ^ n }

/-- An idle slice of a NORMAL block takes the oldest job that names its engine (R179). -/
theorem tideJobStart_of_scrub {x : TideJob} (hthere : s.hasEng n = true) (hopen : s.closedDom n = false)
    (hidle : (s.tslice n).kind = 0) (hnormal : s.mode = .normal) (hjob : oldestJob n s.tide.jobs = some (j, x))
    (hkind : x.kind = 2) : tideJobStart n s = sliceCheck n (scrubBegun n j x s) := by
  have hmay : ¬(!s.hasEng n ∨ s.closedDom n ∨ (s.tslice n).kind ≠ 0 ∨ s.mode ≠ .normal) := by
    simp [hthere, hopen, hidle, hnormal]
  unfold tideJobStart
  refine (if_neg hmay).trans ?_
  rw [hjob]
  obtain ⟨state, kind, keyid, moor, mask, done, start, order⟩ := x
  subst hkind
  simp only [if_true, OfNat.ofNat_ne_one, if_false]
  rfl

/-! ### Pace and turns -/

/-- Under pressure an engine's slice goes at MIN_PCT (R188). -/
theorem tidePaceWindow_of_pressed (hkind : (s.tslice n).kind ≠ 0) (hpress : s.pressed n = true) :
    tidePaceWindow n s = s.setSlice n { s.tslice n with
      rate := s.tide.minPct, credit := s.tide.minPct * 24000, other := 0, press := false } := by
  simp [tidePaceWindow, hkind, hpress]

/-- Without pressure it takes what the rest leaves, from BASE_PCT to MAX_PCT (R188). -/
theorem tidePaceWindow_of_spare (hkind : (s.tslice n).kind ≠ 0) (hpress : s.pressed n = false)
    (hslice : (s.tslice n).press = false) (hqlvl : (s.eng n).qlvl < s.tide.qlvlHi) :
    tidePaceWindow n s = s.setSlice n { s.tslice n with
      rate := min s.tide.maxPct (max s.tide.basePct (100 - (s.tslice n).other * 100 / 2400000))
      credit := min s.tide.maxPct (max s.tide.basePct (100 - (s.tslice n).other * 100 / 2400000)) * 24000
      other := 0, press := false } := by
  simp [tidePaceWindow, hkind, hpress, hslice, hqlvl.not_ge]

/-- A turn that the credit does not cover waits (R181, R188). -/
theorem tideTurn_of_poor (hpoor : (s.tslice n).credit <
      s.turnCost n ((s.tslice n).pick 512 (s.tslice n).next) (decide ((s.tslice n).kind = 2))) :
    tideTurn n s = s := by
  unfold tideTurn
  exact if_pos (by simp only [hpoor, or_true])

/-- A scrub turn that the credit covers takes the lock of its slot's line (R181, R193). -/
theorem tideTurn_of_scrub {x a : Nat} {z : Slice} (hz : z = s.tslice n) (hkind : z.kind = 2) (hheld : z.held = false)
    (hopen : s.closedDom n = false) (hjob : (s.job z.job).state ≠ 3) (hx : x = z.pick 512 z.next)
    (hholds : z.holds x = true) (hflight : s.inFlight n < 512)
    (hnear : posIn z.ivs x < posIn z.ivs z.tideLine + 512) (hcredit : s.turnCost n x true ≤ z.credit)
    (haddr : (s.eng n).slotAddr x = some (false, a)) :
    tideTurn n s = advance n (acceptLine n
      { id := s.serial, org := .turn x true, kind := .scrub, pool := false, line := a / 128, dline := x, slot := x
        keyid := z.keyid, ten := z.moor, ctx := 0, key := (s.getBerth z.newBerth).key
        key2 := (s.getBerth z.newBerth).key, cls := s.classOf a, cyc := s.cyc }
      { s.setSlice n { z with next := nextIn z.ivs x, credit := z.credit - s.turnCost n x true } with
        serial := s.serial + 1 }) := by
  subst hz hx
  have hmay : ¬((s.tslice n).kind = 0 ∨ (s.tslice n).held = true ∨ s.closedDom n = true ∨
      (s.job (s.tslice n).job).state = 3 ∨ !(s.tslice n).holds ((s.tslice n).pick 512 (s.tslice n).next) ∨
      512 ≤ s.inFlight n ∨ posIn (s.tslice n).ivs (s.tslice n).tideLine + 512 ≤
        posIn (s.tslice n).ivs ((s.tslice n).pick 512 (s.tslice n).next) ∨
      (s.tslice n).credit < s.turnCost n ((s.tslice n).pick 512 (s.tslice n).next) true) := by
    simp [hkind, hheld, hopen, hjob, hholds, hflight, hnear, hcredit]
  unfold tideTurn
  simp only [hkind, decide_true] at hmay ⊢
  rw [if_neg hmay, haddr]
  rfl

end Sys2Proof.Machine

namespace Sys2Proof.Proofs

open Sys2Proof.Machine Sys2Proof.Claims

/-- Settles O44: a REKEY ends as its checks say, a slice takes its job, and pace and turns follow the credit. -/
theorem tideCommandsRun : Obligations.TideCommandsRun := by
  unfold Obligations.TideCommandsRun
  refine ⟨?rekey, fun n s hon hkind => ⟨fun hpress => ?pressed, fun hpress hslice hqlvl => ?spare⟩, ?job,
    fun n s hon _ hpoor => ?poor, ?turn⟩
  case rekey =>
    intro s u v key k old ob b hready henc hu hk hob hold
    obtain ⟨hon, hroom, hidle, hlc, hup, hpend⟩ := hready
    rw [exec_of_run (f := rekeyCmd) hon rfl, rekeyCmd_of_ready hroom hidle hlc hup hpend henc]
    subst hu hk hob hold
    refine ⟨fun _ => rfl, fun hok hgood hdraw hb => ?_⟩
    subst hb
    rw [rekeyStart_of_ok hok hgood hdraw]
    rfl
  case pressed => rw [exec_of_live (f := tidePaceWindow n) hon rfl, tidePaceWindow_of_pressed hkind hpress]
  case spare => rw [exec_of_live (f := tidePaceWindow n) hon rfl, tidePaceWindow_of_spare hkind hpress hslice hqlvl]
  case job =>
    intro n j x s hon hthere hopen hidle hnormal hjob hkind
    refine ⟨scrubBegun n j x s, scrubSlice n j x s, ?_, scrubBegun_tslice x, rfl, rfl, rfl, rfl, rfl, rfl, rfl,
      scrubBegun_job x, rfl, rfl⟩
    rw [exec_of_run (f := tideJobStart n) hon rfl, tideJobStart_of_scrub hthere hopen hidle hnormal hjob hkind]
  case poor => rw [exec_of_run (f := tideTurn n) hon rfl, tideTurn_of_poor hpoor]
  case turn =>
    intro n x a z s hon hz hkind hheld hopen hjob hx hholds hflight hnear hcredit haddr
    rw [exec_of_run (f := tideTurn n) hon rfl,
      tideTurn_of_scrub hz hkind hheld hopen hjob hx hholds hflight hnear hcredit haddr]

end Sys2Proof.Proofs
end


section
/-! The session commands (O47) and the chunks of a reduction (O48). -/

namespace Sys2Proof.Machine

open Sys2Proof.Claims (mbOn)

variable {i j code : Nat} {lc : List Nat} {s t : State}

/-! ### Checks of a mailbox command -/

/-- A list of checks that ends with OK holds none that fails. -/
theorem pass_of_firstFail_ok : ∀ {l : List (Bool × Status)}, (∀ c ∈ l, c.2 ≠ .ok) → firstFail .ok l = .ok →
    ∀ c ∈ l, c.1 = false
  | [], _, _ => by simp
  | (true, st) :: _, hst, hok => absurd hok (hst (true, st) List.mem_cons_self)
  | (false, st) :: l, hst, hok => List.forall_mem_cons.mpr
      ⟨rfl, pass_of_firstFail_ok (fun c hc => hst c (List.mem_cons_of_mem _ hc)) hok⟩

/-- A command in a mode that does not allow it ends with E_STATE, and is logged (R337, R338). -/
theorem mbRun_of_wrong_mode {f : State → MbAns} (hroom : s.auditFull = false) (hidle : s.mbox.busy = false)
    (hlc : lc.contains s.lcState = true) :
    mbRun code false lc false f s = mbEnd .eState 0 (mbRefuse code .eState (mbOn code s)) := by
  have hchecks : ∀ b : Bool, firstFail .ok [(false, .eEncoding), (!lc.contains s.lcState, .eLc), (!false || b, .eState)]
      = .eState := by
    intro b
    rw [hlc]
    rfl
  unfold mbRun
  refine (if_neg (by simp [hroom])).trans ((if_neg (by simp [hidle])).trans ((if_pos ?_).trans ?_))
  · exact fun h => absurd ((hchecks _).symm.trans h) (by decide)
  · exact congrArg (fun st => mbEnd st 0 (mbRefuse code st (mbOn code s))) (hchecks _)

/-- A number of n bits strays outside no mask of n ones. -/
theorem strays_of_lt {v n : Nat} (hv : v < 2 ^ n) : strays v (2 ^ n - 1) = false := by
  rw [strays, Nat.and_two_pow_sub_one_eq_mod, Nat.mod_eq_of_lt hv, decide_eq_false (not_not.mpr rfl)]

/-! ### SESSION_OPEN -/

theorem deriveGen_keyWorked (i d r berth : Nat) (s : State) : KeyWorked s (deriveGen i d r berth s).2 := by
  unfold deriveGen
  dsimp only
  split
  · exact .refl s
  · next m _ =>
    have hload := berthLoad_keyWorked m mKdf 1 (·.fits (s.getSess i).ten) s
    split
    · exact hload
    · exact hload.trans (setBerth_keyWorked ..)

theorem KeyWorked.getSess (h : KeyWorked s t) (i : Nat) : t.getSess i = s.getSess i := by
  obtain ⟨_, _, _, _, _, _, _, _, _, rfl⟩ := h
  rfl

/-- The keys of a generation join their session; nothing else of it changes. -/
theorem getSess_openGen (i r tx rx : Nat) (s : State) :
    ∃ ks ls, (openGen i r tx rx s).getSess i = { s.getSess i with txKeys := ks, rxKeys := ls } := by
  have hworked := (deriveGen_keyWorked i (s.getSess i).dir r tx s).trans (deriveGen_keyWorked i (1 - (s.getSess i).dir) r rx _)
  unfold openGen State.updSess
  dsimp only
  rw [State.getSess_setSess, hworked.getSess]
  exact ⟨_, _, rfl⟩

/-- A session begun with OK is OPEN on the quay and for the peer named, under its serial, and starts from its first
numbers (R212). -/
theorem getSess_of_sessBegin {q ten dest peer serial lcmask : Nat} {gw : Bool} {area : Option Nat} {link : Bytes}
    (h : sessBegin i q ten dest peer serial gw area lcmask link s = (.ok, t)) :
    (t.getSess i).state = .opened ∧ (t.getSess i).quay = q ∧ (t.getSess i).ten = ten ∧ (t.getSess i).dest = dest ∧
      (t.getSess i).peerSess = peer ∧ (t.getSess i).serial = serial ∧ (t.getSess i).seq = 1 ∧ (t.getSess i).ctl = 0 := by
  unfold sessBegin at h
  dsimp only at h
  split at h
  · next m t0 t1 r0 r1 b0 b1 hberths =>
    obtain ⟨-, rfl⟩ := Prod.mk.inj h
    obtain ⟨ks, ls, hsecond⟩ := getSess_openGen i 1 t1 r1 (openGen i 0 t0 r0 _)
    obtain ⟨ks', ls', hfirst⟩ := getSess_openGen i 0 t0 r0 _
    rw [hsecond, hfirst, State.getSess_setSess]
    exact ⟨rfl, rfl, rfl, rfl, rfl, rfl, rfl, rfl⟩
  · exact nomatch (Prod.mk.inj h).1

/-- SESSION_OPEN that ends with OK has passed its checks of the index, and has begun the session (R209, R211). -/
theorem sessOpenRun_of_ok (h : sessOpenRun s = (some (.ok, 0), t)) :
    (s.getSess (bits 0 12 (s.oper 0))).state = .closed ∧ (s.getSess (bits 0 12 (s.oper 0))).serial < s.oper 2 ∧
      ∃ gw area lcmask link u, sessBegin (bits 0 12 (s.oper 0)) (bits 16 4 (s.oper 0)) (bits 20 9 (s.oper 0))
        (bits 0 24 (s.oper 1)) (bits 32 12 (s.oper 1)) (s.oper 2) gw area lcmask link u = (.ok, t) := by
  unfold sessOpenRun at h
  dsimp only at h
  generalize hchecks : ([_, _, _, _, _, _] : List (Bool × Status)) = checks at h
  split at h
  · next hst => exact absurd (Prod.mk.inj (Option.some.inj (Prod.mk.inj h).1)).1 hst
  · next hst =>
    subst hchecks
    have hpass := pass_of_firstFail_ok (by simp) (not_not.mp hst)
    simp only [List.forall_mem_cons, Bool.or_eq_false_iff, decide_eq_false_iff_not, not_not, not_le] at hpass
    obtain ⟨-, -, ⟨hclosed, -⟩, hserial, -⟩ := hpass
    refine ⟨hclosed, hserial, ?_⟩
    split at h
    · next hload => exact absurd (Prod.mk.inj (Option.some.inj (Prod.mk.inj h).1)).1 hload
    · obtain ⟨hend, rfl⟩ := Prod.mk.inj h
      exact ⟨_, _, _, _, _, Prod.ext (Prod.mk.inj (Option.some.inj hend)).1 rfl⟩

/-! ### Chunks of a reduction -/

/-- What has come back of a local operand decides the chunk: it is staged, it fails the slot, or it waits (R254, R259). -/
theorem operandArrives_of_armed {n k : Nat} (harmed : (s.getSlot n).armed = true) :
    operandArrives n k s = match ((s.getSlot n).chunk k).opBack with
      | none => s
      | some .ok => s.updChunk n k (fun y => { y with
          staged := y.staged ++ [{ first := (s.getSlot n).localRank, count := 1
                                   vals := decodeVals (s.getSlot n).fmt ((s.getSlot n).chunkLen k)
                                     ((s.getSlot n).chunk k).opData
                                     (match ((s.getSlot n).chunk k).operand with | some r => r.buf | none => []) }]
          loaded := true, operand := none, opData := [], opBack := none })
      | some st => slotFail n st s := by
  rw [operandArrives, harmed]
  rfl

/-- What has come back of a chunk's store decides it (R254, R261). -/
theorem chunkStored_of_armed {n k : Nat} (harmed : (s.getSlot n).armed = true) :
    chunkStored n k s = match ((s.getSlot n).chunk k).storeBack with
      | none => s
      | some .ok => chunkOut n k s
      | some st => slotFail n st s := by
  rw [chunkStored, harmed]
  rfl

end Sys2Proof.Machine

namespace Sys2Proof.Proofs

open Sys2Proof.Machine Sys2Proof.Claims

/-- Settles O47: each command is accepted or meets a state that does not allow it, and an open that ends with OK leaves its
index OPEN. -/
theorem sessionCommandsRun : Obligations.SessionCommandsRun := by
  unfold Obligations.SessionCommandsRun
  refine ⟨?open', ?change, ?migrate⟩
  case open' =>
    intro i st s t hready hfit hnormal hrun hi
    obtain ⟨hon, hroom, hidle, hlc, hup, hpend⟩ := hready
    subst hi
    refine ⟨?_, fun hst => ?_⟩
    · rw [exec_of_run (f := sessionOpen) hon rfl, sessionOpen, hfit, hnormal,
        mbRun_of_accepted hroom hidle hlc (.inr (.inr ⟨hup, hpend⟩)), hrun]
      rfl
    · subst hst
      obtain ⟨hclosed, hserial, _, _, _, _, _, hbegin⟩ := sessOpenRun_of_ok hrun
      obtain ⟨hopen, hquay, hten, hdest, hpeer, hser, hseq, hctl⟩ := getSess_of_sessBegin hbegin
      exact ⟨hclosed, hserial, hopen, hquay, hten, hdest, hpeer, hser, hseq, hctl⟩
  case change =>
    intro i s hready hop hi hnormal
    obtain ⟨hon, hroom, hidle, hlc, hup, hpend⟩ := hready
    have henc : strays (s.oper 0) 0xFFF = false := by rw [hop]; exact strays_of_lt (n := 12) hi
    have hindex : s.oper 0 % 4096 = i := by rw [hop, Nat.mod_eq_of_lt hi]
    have hserved : ∀ code, MbServed code s := fun code => .inr (.inr ⟨hup, hpend⟩)
    refine ⟨fun hst => ?_, fun hst => ?_, fun hst => ?_, fun hst => ?_⟩
    · have hmode : (s.normal && decide ((s.getSess i).state = .opened ∨ (s.getSess i).state = .broken)) = true := by
        rw [hnormal, decide_eq_true hst]; rfl
      rw [exec_of_run (f := sessionClose) hon rfl, sessionClose]
      simp only [hindex, henc, hmode]
      rw [mbRun_of_accepted hroom hidle hlc (hserved _)]
      rfl
    · rw [exec_of_run (f := sessionClose) hon rfl, sessionClose]
      simp only [hindex, henc, hst, hnormal, reduceCtorEq, or_self, decide_false, Bool.and_false]
      rw [mbRun_of_wrong_mode hroom hidle hlc]
    · have hmode : (s.normal && decide ((s.getSess i).state = .opened)) = true := by rw [hnormal, decide_eq_true hst]; rfl
      rw [exec_of_run (f := sessionRotate) hon rfl, sessionRotate]
      simp only [hindex, henc, hmode]
      rw [mbRun_of_accepted hroom hidle hlc (hserved _)]
      rfl
    · rw [exec_of_run (f := sessionRotate) hon rfl, sessionRotate]
      simp only [hindex, henc, hst, decide_false, Bool.and_false]
      rw [mbRun_of_wrong_mode hroom hidle hlc]
  case migrate =>
    intro q q' s t hready hfrom hto hq hq' hnormal hnone hnowait
    obtain ⟨hon, hroom, hidle, hlc, hup, hpend⟩ := hready
    have hmode : (s.normal && s.migr.isNone && s.migrWait.isEmpty) = true := by rw [hnormal, hnone, hnowait]; rfl
    have henc : (strays (s.oper 0) 15 || strays (s.oper 1) 15) = false := by
      rw [hfrom, hto, Bool.or_eq_false_iff]
      exact ⟨strays_of_lt (n := 4) hq, strays_of_lt (n := 4) hq'⟩
    have hthere : ∀ k < 16, (mbOn 0x42 s).hasIsland (8 + k) = true := by
      intro k hk
      rw [State.hasIsland, if_neg (by omega), decide_eq_true (by omega)]
    have hrow : exec .sessionMigrate s = .next (settle (mbAnswer (
        if !(migrStart q q' (mbOn 0x42 s)).1 then (some (.eNoRes, 0), (migrStart q q' (mbOn 0x42 s)).2)
        else (if (migrStart q q' (mbOn 0x42 s)).2.migr.isNone then some (.ok, 0) else none,
          (migrStart q q' (mbOn 0x42 s)).2)))) := by
      rw [exec_of_run (f := sessionMigrate) hon rfl, sessionMigrate]
      simp only [henc, hmode]
      rw [mbRun_of_accepted hroom hidle hlc (.inr (.inr ⟨hup, hpend⟩))]
      simp only [hfrom, hto, Nat.mod_eq_of_lt hq, Nat.mod_eq_of_lt hq', hthere q hq, hthere q' hq', Bool.not_true,
        Bool.false_eq_true, if_false, if_true]
    refine ⟨fun hstart => ?_, fun hstart => ?_⟩
    · rw [hrow, hstart, if_neg (by simp)]
      cases t.migr.isNone <;> rfl
    · rw [hrow, hstart]
      rfl

/-- Settles O48: an armed slot's chunk goes by what has come back for it. -/
theorem reductionChunksGoOn : Obligations.ReductionChunksGoOn := by
  unfold Obligations.ReductionChunksGoOn
  intro n k x c s hon hx harmed hc
  subst hx hc
  rw [exec_of_run (f := operandArrives n k) hon rfl, operandArrives_of_armed harmed,
    exec_of_run (f := chunkStored n k) hon rfl, chunkStored_of_armed harmed]
  refine ⟨fun r hback hoperand => by rw [hback, hoperand], fun st hst hback => ?operandFails, fun hback => by rw [hback],
    fun hback => by rw [hback], fun st hst hback => ?storeFails, fun hback => by rw [hback]⟩
  case operandFails =>
    rw [hback]
    cases st with
    | ok => exact absurd rfl hst
    | _ => rfl
  case storeFails =>
    rw [hback]
    cases st with
    | ok => exact absurd rfl hst
    | _ => rfl

end Sys2Proof.Proofs
end


section
/-! The registers of a submission queue and ALLOC_DB (O49). -/

namespace Sys2Proof.Machine

variable {k q t v value tail : Nat} {s : State}

/-! ### Doorbells and the enable -/

/-- A doorbell of a tenant's own queue reaches it (R342). -/
theorem sqDoorbell_of_tenant (hroom : s.auditFull = false) (hreach : s.isolated 26 = false)
    (hten : s.vfMoor v true = some t) (hk : k < (s.getMoor t).adm.qCount) (htail : tail < 0x10000) :
    sqDoorbell (.vf v true) k tail s = doorbellWrite ((s.getMoor t).adm.qFirst + k) tail s := by
  have hof : s.sqOf (.vf v true) k 0x10 (8 * k) = (some ((s.getMoor t).adm.qFirst + k), winBase t + 8 * k) := by
    simp only [State.sqOf, hten, if_pos hk]
  have hmine : s.isolated (islandOf (winBase t + 8 * k)) = false := by rwa [islandOf_management (Nat.le_trans (by decide) (le_winBase_add ..))]
  rw [sqDoorbell, hof, Nat.mod_eq_of_lt htail]
  exact regGuard_of_permitted hroom hmine

/-- A value that fits an enabled queue of a world that runs becomes its TAIL (R292). -/
theorem doorbellWrite_of_fit (hfit : tail < (s.getQueue q).slots) (hen : (s.getQueue q).en = true)
    (hruns : s.worldRuns (s.getQueue q).ten = true) :
    doorbellWrite q tail s = s.setQueue q { s.getQueue q with tail := tail } :=
  if_neg (by simp [hfit, hen, hruns])

/-- A value that does not fit, or a queue with EN at 0, has the write ignored and counted (R292). -/
theorem doorbellWrite_of_unfit (hunfit : (s.getQueue q).slots ≤ tail ∨ (s.getQueue q).en = false) :
    doorbellWrite q tail s = dbErr (s.getQueue q).ten s := by
  refine if_pos ?_
  obtain h | h := hunfit
  · exact .inl h
  · exact .inr (.inl (by simp [h]))

/-- The owner's control word of one of its own queues reaches it (R340). -/
theorem queueEnable_of_owner (hroom : s.auditFull = false) (hreach : s.isolated 26 = false) (hk : k < 4096)
    (hown : (s.getQueue k).ten = 0x100) :
    queueEnable .pf k value s =
      queueCtrlWrite (qctlBase k + 8) k (bits 0 5 value) (bits 5 8 value) (bits 13 4 value) (bit1 26 value) s := by
  have hof : s.sqOf .pf k 8 0x1010 = (some k, qctlBase k + 8) := by
    simp only [State.sqOf, if_pos (And.intro hk hown)]
  have hmine : s.isolated (islandOf (qctlBase k + 8)) = false := by
    rwa [islandOf_management (by unfold qctlBase; omega)]
  unfold queueEnable
  rw [hof]
  exact regGuard_of_permitted hroom hmine

/-- Setting EN of a queue whose size stays checks its configuration first (R291). -/
theorem queueCtrlWrite_of_enable {a eq quay : Nat} (hoff : (s.getQueue q).en = false) (hgood : (s.getQueue q).bad = false) :
    queueCtrlWrite a q (s.getQueue q).size eq quay true s =
      let y := { s.getQueue q with eq := eq, quay := quay }
      s.setQueue q (if s.queueCheck y = .ok then { y with en := true, stopped := false, stopSt := 0, fetching := [] }
        else { y with en := false, stopped := true, stopSt := (s.queueCheck y).code }) := by
  unfold queueCtrlWrite
  refine (if_neg (by simp [hoff])).trans ?_
  simp only [ne_eq, not_true_eq_false, if_false, hoff, hgood, Bool.not_false, and_self, if_true, Bool.false_eq_true]

/-! ### Ring fetches -/

/-- The line that holds the next pending entry is read, for two entries where it starts the line (R293). -/
theorem ringFetch_of_pending (hen : (s.getQueue q).en = true) (hgood : (s.getQueue q).bad = false)
    (hidle : (s.getQueue q).fetching = []) (hpend : (s.getQueue q).pending ≠ 0) :
    ringFetch q s = submitLine (.ring q) .read ((s.getQueue q).base + (s.getQueue q).head / 2 * 128)
      (s.getQueue q).ten 0 none false (s.setQueue q { s.getQueue q with
        fetching := [((s.getQueue q).head, if (s.getQueue q).head % 2 = 0 ∧ 2 ≤ (s.getQueue q).pending then 2 else 1)] }) :=
  if_neg (by simp [hen, hgood, hidle, hpend])

theorem ringFetch_of_empty (hpend : (s.getQueue q).pending = 0) : ringFetch q s = s :=
  if_pos (.inr (.inr (.inl hpend)))

/-! ### ALLOC_DB -/

/-- A tenant's write of ALLOC_DB reaches its own window (R342). -/
theorem allocDb_of_tenant {m : Master} (hroom : s.auditFull = false) (hreach : s.isolated 26 = false)
    (hten : s.tenantOf m = some t) : allocDb m value s = allocDbWrite t value s := by
  have hmine : s.isolated (islandOf (winBase t + 0x1100)) = false := by rwa [islandOf_management (Nat.le_trans (by decide) (le_winBase_add ..))]
  rw [allocDb, hten]
  exact regGuard_of_permitted hroom hmine

/-- A request while PENDING is 1 is ignored and counted (R329). -/
theorem allocDbWrite_of_pending (hpend : (s.getMoor t).win.allocPending = true) : allocDbWrite t value s = dbErr t s :=
  if_pos hpend

/-- An allocation of a size in range (R329). -/
theorem allocDbWrite_of_alloc {r : Nat × State} (hfree : (s.getMoor t).win.allocPending = false)
    (hop : bit1 0 value = false) (hmin : 12 ≤ bits 2 5 value) (hmax : bits 2 5 value ≤ 30)
    (hr : r = startOp { own := .allocDb t, ten := t, ctx := bits 7 20 value, code := 7, body := .plain, counted := false }
      (s.updWin t (fun w => { w with allocPending := true }))) :
    allocDbWrite t value s =
      let a := allocNow t (bits 7 20 value) (2 ^ bits 2 5 value) (bit1 1 value) r.2
      finishOp r.1 a.1 a.2.1 a.2.2.1 a.2.2.2 := by
  subst hr
  have hrange : ¬(bits 2 5 value < 12 ∨ 30 < bits 2 5 value) := by omega
  unfold allocDbWrite
  simp only [hop]
  refine (if_neg (ne_true_of_eq_false hfree)).trans ((if_neg Bool.false_ne_true).trans (if_neg hrange))

/-- A free of a handle that passes its checks (R329). -/
theorem allocDbWrite_of_free {r : Nat × State} {u : State} (hfree : (s.getMoor t).win.allocPending = false)
    (hop : bit1 0 value = true) (hu : u = s.updWin t (fun w => { w with allocPending := true }))
    (hpass : ∀ c ∈ handleChecks [(bits 32 32 value, [.extent])] t u, c.1 = false)
    (hr : r = startOp { own := .allocDb t, ten := t, ctx := bits 7 20 value, code := 8
                        body := .objFree (handleIdx (bits 32 32 value)), counted := false } u) :
    allocDbWrite t value s = objFreeStart r.1 (handleIdx (bits 32 32 value)) r.2 := by
  subst hr hu
  unfold allocDbWrite
  simp only [hop, firstFail_of_pass hpass, if_true, ne_eq, not_true_eq_false, if_false]
  exact if_neg (ne_true_of_eq_false hfree)

/-- An entry without references is freed, and what waits for it ends (R313). -/
theorem objZero_of_unreferenced (hst : (s.getObj q).state = .freeing) (hrefs : (s.getObj q).refs = 0) :
    objZero q s = match (s.getObj q).waiter with
      | none => retireObj q s
      | some id => finishOp id .ok 0 0 (retireObj q s) := if_pos ⟨hst, hrefs⟩

end Sys2Proof.Machine

namespace Sys2Proof.Proofs

open Sys2Proof.Machine Sys2Proof.Claims

/-- Settles O49: each register reaches its queue or its window, and the checks of R291, R292 and R329 decide there. -/
theorem queueRegistersAct : Obligations.QueueRegistersAct := by
  unfold Obligations.QueueRegistersAct
  refine ⟨?doorbell, ?enable, ?fetch, ?alloc, fun i s hon hst hrefs => ⟨fun id hwaiter => ?waited, fun hwaiter => ?unwaited⟩⟩
  case doorbell =>
    intro v t k tail q x s hon hroom hreach hten hk hq hx htail
    subst hx hq
    rw [exec_of_run (f := sqDoorbell (.vf v true) k tail) hon rfl, sqDoorbell_of_tenant hroom hreach hten hk htail]
    exact ⟨fun hfit hen hruns => by rw [doorbellWrite_of_fit hfit hen hruns],
      fun hunfit => by rw [doorbellWrite_of_unfit hunfit]⟩
  case enable =>
    intro k value x y s hon hroom hreach hk hx hown hoff hset hsize hgood hy
    subst hx hy
    rw [exec_of_run (f := queueEnable .pf k value) hon rfl, queueEnable_of_owner hroom hreach hk hown, hset, ← hsize,
      queueCtrlWrite_of_enable hoff hgood]
    exact ⟨fun hok => congrArg (fun y => Host.Outcome.next (settle (s.setQueue k y))) (if_pos hok),
      fun hbad => congrArg (fun y => Host.Outcome.next (settle (s.setQueue k y))) (if_neg hbad)⟩
  case fetch =>
    intro q x s hon hx hen hgood hidle
    subst hx
    rw [exec_of_run (f := ringFetch q) hon rfl]
    exact ⟨fun hpend => by rw [ringFetch_of_pending hen hgood hidle hpend], fun hpend => by rw [ringFetch_of_empty hpend]⟩
  case alloc =>
    intro v t value s hon hroom hreach hten
    have halloc : bit1 0 value = false →
        exec (.allocDbAlloc (.vf v true) value) s = .next (settle (allocDbWrite t value s)) := by
      intro hop
      rw [exec_of_run (f := fun s => if bit1 0 value then s else allocDb (.vf v true) value s) hon rfl,
        if_neg (ne_true_of_eq_false hop), allocDb_of_tenant hroom hreach hten]
    have hfree : bit1 0 value = true →
        exec (.allocDbFree (.vf v true) value) s = .next (settle (allocDbWrite t value s)) := by
      intro hop
      rw [exec_of_run (f := fun s => if bit1 0 value then allocDb (.vf v true) value s else s) hon rfl,
        if_pos hop, allocDb_of_tenant hroom hreach hten]
    refine ⟨fun hpend hop => ?_, fun hpend hop => ?_, fun r hidle hop hmin hmax hr => ?_, fun r u hidle hop hu hpass hr => ?_⟩
    · rw [halloc hop, allocDbWrite_of_pending hpend]
    · rw [hfree hop, allocDbWrite_of_pending hpend]
    · rw [halloc hop, allocDbWrite_of_alloc hidle hop hmin hmax hr]
      exact ⟨_, rfl, rfl⟩
    · rw [hfree hop, allocDbWrite_of_free hidle hop hu hpass hr]
  case waited =>
    rw [exec_of_run (f := objZero i) hon rfl, objZero_of_unreferenced hst hrefs, hwaiter]
  case unwaited =>
    rw [exec_of_run (f := objZero i) hon rfl, objZero_of_unreferenced hst hrefs, hwaiter]

end Sys2Proof.Proofs
end


section
/-! A quay's receive side (O46). -/

namespace Sys2Proof.Machine

variable {q i v : Nat} {fr : Bytes} {bad framing : Bool} {s u : State}

/-! ### Received frames -/

/-- A quay takes frames while it runs, its domain is open and its link is up (R82, R85). -/
def State.quayRx (s : State) (q : Nat) : Prop :=
  s.runs (8 + q) = true ∧ s.closedDom (8 + q) = false ∧ (s.getQuay q).linkUp = true

theorem receives {α : Type} {a b : α} (hrx : s.quayRx q) :
    (if !s.runs (8 + q) ∨ s.closedDom (8 + q) ∨ !(s.getQuay q).linkUp then a else b) = b := by
  obtain ⟨hruns, hopen, hlink⟩ := hrx
  exact if_neg (by simp [hruns, hopen, hlink])

/-- A frame that the link marks bad is dropped and counted (R82). -/
theorem receiveFrame_of_bad (hrx : s.quayRx q) (hbad : bad = true) :
    receiveFrame q fr bad framing s = bump (quayBase q + 0x138) s :=
  (receives hrx).trans (if_pos hbad)

/-- A frame of a length out of range, or of bad framing, is dropped and counted (R82). -/
theorem receiveFrame_of_framing (hrx : s.quayRx q) (hgood : bad = false)
    (hlen : fr.length < 48 ∨ 2096 < fr.length ∨ framing = false) :
    receiveFrame q fr bad framing s = bump (quayBase q + 0x140) s := by
  refine (receives hrx).trans ((if_neg (by simp [hgood])).trans (if_pos ?_))
  simpa using hlen

/-- The state in which a well framed frame's header is checked. -/
structure WellFramed (fr : Bytes) (bad framing : Bool) : Prop where
  good : bad = false
  framed : framing = true
  min : 48 ≤ fr.length
  max : fr.length ≤ 2096

theorem wellFramed_checks {α : Type} {a b c : α} (hframe : WellFramed fr bad framing) :
    (if bad then a else if fr.length < 48 ∨ 2096 < fr.length ∨ !framing then b else c) = c := by
  obtain ⟨hgood, hframed, hmin, hmax⟩ := hframe
  rw [if_neg (by simp [hgood]), if_neg (by simp [hframed, hmin, hmax])]

/-- A frame for another quay, or of a session that is not open here, fails R217. -/
theorem receiveFrame_of_stranger {h : FrameHdr} {ok : Bool} (hrx : s.quayRx q) (hframe : WellFramed fr bad framing)
    (hhdr : frameHdr fr = (h, ok)) (hstranger : h.dest ≠ (s.getQuay q).addr ∨ (s.getSess h.sess).openOn q = false) :
    receiveFrame q fr bad framing s = bump (quayBase q + 0x158) (bump (quayBase q + 0x150) s) := by
  refine (receives hrx).trans ((wellFramed_checks hframe).trans ?_)
  rw [hhdr]
  refine if_pos ?_
  obtain h | h := hstranger
  · exact .inl h
  · exact .inr (.inl (by simp [h]))

/-- A data frame that its session awaits and that decrypts under a key of its generation is taken in an epoch that
stands, and dropped in another (R217, R218, R227). -/
theorem receiveFrame_of_decrypted {h : FrameHdr} {ok : Bool} {k : GenKey} {key d : Bytes} (hrx : s.quayRx q)
    (hframe : WellFramed fr bad framing) (hhdr : frameHdr fr = (h, ok)) (hdest : h.dest = (s.getQuay q).addr)
    (hopen : (s.getSess h.sess).openOn q = true) (hsrc : instAddr h.src = instAddr (s.getSess h.sess).dest)
    (hroom : s.reasmUsed q + 8 ≤ 2048) (hok : ok = true) (hversion : h.version = 1) (htyp : h.typ = 0)
    (hplen : h.plen = fr.length - 48) (hseq : h.seq < 2 ^ 63)
    (hfind : (s.getSess h.sess).rxKeys.find? (fun k => k.ready && decide (k.gen % 4 = h.kgen)) = some k)
    (hkey : genKey (s.getSess h.sess) k s = (.ok, key, u))
    (hplain : gcmOpen key (frameIv k.salt h.seq) (fr.take 32) ((fr.drop 32).take (fr.length - 48))
      (fr.drop (32 + (fr.length - 48))) = some d) :
    receiveFrame q fr bad framing s =
      if !u.epochOk h.epoch then rxFail q 0x160 u else authFrame q h.sess h k.gen d u := by
  refine (receives hrx).trans ((wellFramed_checks hframe).trans ?_)
  have hmine : ¬(h.dest ≠ (s.getQuay q).addr ∨ !(s.getSess h.sess).openOn q ∨
      instAddr h.src ≠ instAddr (s.getSess h.sess).dest) := by simp [hdest, hopen, hsrc]
  have hfits : ¬(2048 < s.reasmUsed q + 8) := by omega
  have hform : ¬(!ok ∨ h.version ≠ 1 ∨ 5 < h.typ ∨
      (h.plen ≠ fr.length - 48 ∧ !(h.plen = 0xFFFF ∧ (h.typ = 0 ∨ h.typ = 2))) ∨ (h.typ = 4 ∧ fr.length - 48 ≠ 40) ∨
      (h.typ = 5 ∧ fr.length - 48 ≠ 16) ∨ (h.typ < 4 ∧ 2 ^ 63 ≤ h.seq) ∨ (4 ≤ h.typ ∧ h.seq < 2 ^ 63)) := by
    simpa [hok, hversion, htyp, hplen] using hseq
  have hbulk : ¬(h.typ = 3 ∧ (bulkRecords 2048 d).isNone) := by simp [htyp]
  rw [hhdr]
  refine (if_neg hmine).trans ((if_neg hfits).trans ((if_neg hform).trans ?_))
  simp only [hfind, hkey, hplain, ne_eq, not_true_eq_false, if_false, if_neg hbulk]

/-! ### Release of a flit, keys and links -/

/-- A flit payload goes to the port when it is ready, and waits otherwise (R219, R222). -/
theorem releaseFrame_of_flit {fed : Nat → Bytes → State → State} {f : RxFrame} (hopen : (s.getSess i).state = .opened)
    (hruns : s.runs (8 + (s.getSess i).quay) = true) (hdom : s.closedDom (8 + (s.getSess i).quay) = false)
    (hnext : (s.getSess i).rx.any (fun f => f.1 = (s.getSess i).rel + 1) = true)
    (hf : f = Tab.get ({ typ := 0, data := [], gen := 0 } : RxFrame) (s.getSess i).rx ((s.getSess i).rel + 1))
    (hdone : f.done = 0) (htyp : f.typ = 0) (hfed : (s.getSess i).fed = false) (hrecv : (s.getSess i).recv = none) :
    releaseFrame fed i s = if (s.getQuay (s.getSess i).quay).rxReady
      then advanceRel i (emit (.flRx (s.getSess i).quay i 0 (s.getSess i).ten f.data) s) else s := by
  subst hf
  have hmay : ¬((s.getSess i).state ≠ .opened ∨ !s.runs (8 + (s.getSess i).quay) ∨ s.closedDom (8 + (s.getSess i).quay) ∨
      !(s.getSess i).rx.any (fun f => f.1 = (s.getSess i).rel + 1)) := by simp [hopen, hruns, hdom, hnext]
  refine (if_neg hmay).trans ((if_neg (not_not.mpr hdone)).trans ((if_pos htyp).trans ?_))
  rw [hfed, hrecv]
  rfl

/-- The derivation of the newest receive generation puts its key among the ready ones (R227). -/
theorem rxDerived_of_key {k n : GenKey} (hfind : (s.getSess i).rxKeys.find? (fun k => !k.ready) = some k)
    (hderive : deriveGen i (1 - (s.getSess i).dir) k.gen k.berth s = (some n, u)) :
    rxDerived i s = u.setSess i { s.getSess i with
      rxKeys := (s.getSess i).rxKeys.filter (·.ready) ++ [n]
      ackHold := !(((s.getSess i).rxKeys.filter (·.ready)).length + 1 = (s.getSess i).rxKeys.length) } := by
  rw [rxDerived, hfind]
  simp only [hderive]

/-- Every quay's island is present (R28). -/
theorem hasIsland_quay (hq : q < 16) : s.hasIsland (8 + q) = true := by
  rw [State.hasIsland, if_neg (by omega), decide_eq_true (by omega)]

/-- A link that falls asks for its sessions to move to the spare quay (R233). -/
theorem linkFalls_of_up (hq : q < 16) (hup : (s.getQuay q).linkUp = true) :
    linkFalls q s = migrAsk q (s.getQuay q).spare (s.updQuay q (fun x => { x with linkUp := false })) := by
  refine (if_neg (by simp [hasIsland_quay hq, hup])).trans ?_
  simp only [State.updQuay, State.getQuay_setQuay]

theorem linkRises_of_quay (hq : q < 16) : linkRises q s = s.updQuay q (fun x => { x with linkUp := true }) :=
  if_neg (by simp [hasIsland_quay hq, hq])

/-! ### The copy of a session to the target quay -/

/-- The end of one session's copy: the move ends with its last session (R234). -/
def movedEnd (q : Nat) (t : State) : State :=
  if (t.homed q).any (fun p => decide (p.2.state = .migrating)) then t else migrDone t

variable {q' : Nat}

/-- A copy that finds the target's link down breaks the session (R234). -/
theorem moveComplete_of_down (hmigr : s.migr = some (q, q')) (hst : (s.getSess i).state = .migrating)
    (hhome : (s.getSess i).quay = q) (hdown : (s.getQuay q').linkUp = false) :
    moveComplete i s = movedEnd q (breakSess i .eNoRes s) := by
  rw [moveComplete, hmigr]
  refine (if_neg (by simp [hst, hhome])).trans ?_
  exact congrArg (movedEnd q) (if_pos (.inl (by simp [hdown])))

/-- A copy that fits opens the session on the target quay, and asks for a PROBE there (R234, R235). -/
theorem moveComplete_of_fit (hmigr : s.migr = some (q, q')) (hst : (s.getSess i).state = .migrating)
    (hhome : (s.getSess i).quay = q) (hup : (s.getQuay q').linkUp = true) (hhomed : (s.homed q').length < 4096)
    (hreplay : s.replayUsed q' + ((s.getSess i).replay.map (fun f => beatsOf f.data.length)).foldl (· + ·) 0 ≤ 2048) :
    moveComplete i s = movedEnd q (raiseBoth .ok (8 + q') 7 (s.getSess i).ten 0 i q' (ctlDue q' (.probe i true) (rxMove i
      (((s.getSess i).berths.foldl (fun s b =>
          (writeBerth b { s.getBerth b with masters := fld (mQuay q') 1 1 + fld mKdf 1 1 } s).2)
        (moveQueues q q' i s)).setSess i { s.getSess i with
          state := .opened, quay := q', rx := [], replay := (s.getSess i).replay.map (fun f => { f with sack := false })
          probe := some 0 })))) := by
  rw [moveComplete, hmigr]
  refine (if_neg (by simp [hst, hhome])).trans ?_
  exact congrArg (movedEnd q) (if_neg (by simp [hup, hreplay, hhomed]))

/-! ### CTRL -/

/-- A quay's registers lie in its own island (R28). -/
theorem islandOf_quayBase (hq : q < 16) : islandOf (quayBase q) = 8 + q := by
  interval_cases q <;> rfl

/-- The owner's change of CTRL to values in their ranges takes effect and is logged, and another is counted (R244). -/
theorem quayCtrl_of_change {x y : Quay} (hq : q < 16) (hroom : s.auditFull = false) (hreach : s.isolated (8 + q) = false)
    (hx : x = s.getQuay q) (hy : y = x.withCtrl v) (hchange : x ≠ y) :
    (y.ctrlOk = true → x.gwEn = y.gwEn →
      quayCtrl .pf q v s = auditLog 1 .ok 0x10 1 0 (quayBase q) v (s.setQuay q y)) ∧
    (y.ctrlOk = false → quayCtrl .pf q v s = bump (permAddr (quayBase q)) s) := by
  subst hx hy
  have hmine : s.isolated (islandOf (quayBase q)) = false := by rwa [islandOf_quayBase hq]
  refine ⟨fun hok hgw => ?_, fun hbad => ?_⟩
  · unfold quayCtrl
    simp only [hok, Bool.and_true, Bool.true_or]
    refine (if_neg hq.not_ge).trans ((regGuard_of_permitted hroom hmine).trans ?_)
    simp only [policyWrite, decide_eq_true hchange, if_true, hgw, ne_eq, not_true_eq_false, if_false]
    rfl
  · unfold quayCtrl
    simp only [hbad, Bool.and_false, Bool.false_or, decide_eq_false hchange]
    exact (if_neg hq.not_ge).trans (regGuard_of_refused hroom hmine)

end Sys2Proof.Machine

namespace Sys2Proof.Proofs

open Sys2Proof.Machine Sys2Proof.Claims

/-- Settles O46: a frame meets the checks of R217 in their order; flits, keys, links, moves and CTRL act as their lemmas
say. -/
theorem quayReceiveSide : Obligations.QuayReceiveSide := by
  unfold Obligations.QuayReceiveSide
  refine ⟨?frame, ?flit, ?key, fun q s hon hq => ⟨fun hup => ?down, ?up⟩, ?move, ?ctrl⟩
  case frame =>
    intro q fr bad framing h ok x s hon hruns hdom hlink hhdr hx
    subst hx
    have hrx : s.quayRx q := ⟨hruns, hdom, hlink⟩
    rw [exec_of_run (f := receiveFrame q fr bad framing) hon rfl]
    refine ⟨fun hbad => by rw [receiveFrame_of_bad hrx hbad], fun hgood hlen => by rw [receiveFrame_of_framing hrx hgood hlen],
      fun hgood hframed hmin hmax => ?_⟩
    have hframe : WellFramed fr bad framing := ⟨hgood, hframed, hmin, hmax⟩
    refine ⟨fun hstranger => by rw [receiveFrame_of_stranger hrx hframe hhdr hstranger], ?_⟩
    intro k key d u hdest hopen hsrc hroom hok hversion htyp hplen hseq hfind hkey hplain
    rw [receiveFrame_of_decrypted hrx hframe hhdr hdest hopen hsrc hroom hok hversion htyp hplen hseq hfind hkey hplain]
    exact ⟨fun hepoch => by rw [if_neg (by simp [hepoch])], fun hepoch => by rw [if_pos (by simp [hepoch])]; rfl⟩
  case flit =>
    intro i f x s hon hx hopen hruns hdom hnext hf hdone htyp hfed hrecv
    subst hx
    rw [exec_of_run (f := releaseFrame fedFrame i) hon rfl,
      releaseFrame_of_flit hopen hruns hdom hnext hf hdone htyp hfed hrecv]
    exact ⟨fun hready => by rw [if_pos hready], fun hbusy => by rw [if_neg (ne_true_of_eq_false hbusy)]⟩
  case key =>
    intro i x k n s u hon hx hfind hderive
    subst hx
    rw [exec_of_run (f := rxDerived i) hon rfl, rxDerived_of_key hfind hderive]
  case down => rw [exec_of_run (f := linkFalls q) hon rfl, linkFalls_of_up hq hup]
  case up => rw [exec_of_run (f := linkRises q) hon rfl, linkRises_of_quay hq]
  case move =>
    intro i q q' x s hon hx hmigr hst hhome
    subst hx
    rw [exec_of_run (f := moveComplete i) hon rfl]
    refine ⟨fun hdown => ⟨_, rfl, ?_⟩, fun hup hhomed hreplay => ⟨_, rfl, ?_⟩⟩
    · rw [moveComplete_of_down hmigr hst hhome hdown]
      rfl
    · rw [moveComplete_of_fit hmigr hst hhome hup hhomed hreplay]
      rfl
  case ctrl =>
    intro q v x y s hon hq hroom hreach hx hy hchange
    obtain ⟨hfit, hunfit⟩ := quayCtrl_of_change hq hroom hreach hx hy hchange
    rw [exec_of_run (f := quayCtrl .pf q v) hon rfl]
    exact ⟨fun hok hgw => by rw [hfit hok hgw], fun hbad => by rw [hunfit hbad]⟩

end Sys2Proof.Proofs
end


section
/-! The SPDM requests of a connection and of its sessions (O56). -/

namespace Sys2Proof.Machine

open Sys2Proof.Claims

variable {h : SpdmHdr} {s u v w : State}

/-! ### Serving a message -/

/-- A message that a channel in service takes, outside a session or in one that exists (R44, R456). -/
theorem spdmTake_of_served {stage sessStage : Nat} {inSess : Option Bool} {f : State → State}
    (hserves : s.spdmServes h = true) :
    spdmTake h stage inSess sessStage f s =
      match h.sess, (spdmNoted h s).spdmSess h with
      | some _, none => spdmNoted h s
      | some _, some x =>
        let t := updSess h (fun x => { x with seqReq := x.seqReq + 1, seqRsp := x.seqRsp + 1 }) (spdmNoted h s)
        if inSess = some false ∨ x.stage ≠ sessStage then spdmError h 4 0 [] t else f t
      | none, _ =>
        if inSess = some true ∨ ((spdmNoted h s).conn h.ch).stage < stage then spdmError h 4 0 [] (spdmNoted h s)
        else f (spdmNoted h s) :=
  if_neg (by simp [hserves])

/-- Outside any session the connection's stage decides (R456). -/
theorem spdmTake_outside {stage sessStage : Nat} {inSess : Option Bool} {f : State → State} (hout : SpdmOutside h s u) :
    spdmTake h stage inSess sessStage f s =
      if inSess = some true ∨ (u.conn h.ch).stage < stage then spdmError h 4 0 [] u else f u := by
  obtain ⟨-, hserves, hsess, rfl⟩ := hout
  rw [spdmTake_of_served hserves, hsess]

/-- A request of a stage that the connection has reached is answered. -/
theorem spdmTake_outside_of_reached {stage sessStage : Nat} {inSess : Option Bool} {f : State → State}
    (hout : SpdmOutside h s u) (hin : inSess ≠ some true) (hstage : stage ≤ (u.conn h.ch).stage) :
    spdmTake h stage inSess sessStage f s = f u := by
  rw [spdmTake_outside hout, if_neg (by simp [hin, hstage])]

/-- A request before its stage is out of order. -/
theorem spdmTake_outside_of_early {stage sessStage : Nat} {inSess : Option Bool} {f : State → State}
    (hout : SpdmOutside h s u) (hstage : (u.conn h.ch).stage < stage) :
    spdmTake h stage inSess sessStage f s = spdmError h 4 0 [] u := by
  rw [spdmTake_outside hout, if_pos (.inr hstage)]

/-- In a session the session's stage decides (R456). -/
theorem spdmTake_inside {stage id st : Nat} {x : SpdmSess} {inSess : Option Bool} {f : State → State}
    (hin : SpdmInside h id st x s u) (hmay : inSess ≠ some false) : spdmTake h stage inSess st f s = f u := by
  obtain ⟨-, hserves, hsess, hfound, hstage, rfl⟩ := hin
  rw [spdmTake_of_served hserves, hsess, hfound]
  exact if_neg (by simp [hmay, hstage])

/-- A request that belongs outside any session is out of order in one. -/
theorem spdmTake_inside_of_outside_only {stage id st ss : Nat} {x : SpdmSess} {f : State → State}
    (hin : SpdmInside h id st x s u) : spdmTake h stage (some false) ss f s = spdmError h 4 0 [] u := by
  obtain ⟨-, hserves, hsess, hfound, -, rfl⟩ := hin
  rw [spdmTake_of_served hserves, hsess, hfound]
  exact if_pos (.inl rfl)

/-! ### Signatures -/

/-- A random value leaves the moorings and the audit unit. -/
theorem drbg_frame {n : Nat} {k : Bytes} (hdraw : drbg n s = some (k, v)) : v.moor = s.moor ∧ v.audit = s.audit := by
  unfold drbg at hdraw
  split at hdraw
  · exact nomatch hdraw
  · dsimp only at hdraw
    split at hdraw
    · exact nomatch hdraw
    · next t ht =>
      obtain ⟨-, rfl⟩ := Prod.mk.inj (Option.some.inj hdraw)
      split at ht
      · obtain rfl := Option.some.inj ht
        exact ⟨rfl, rfl⟩
      · unfold reseed at ht
        split at ht
        · exact nomatch ht
        · obtain rfl := Option.some.inj ht
          exact ⟨rfl, rfl⟩

/-- A signature leaves the moorings and the persistent registers. -/
theorem signEc_frame {m sig : Bytes} (hsign : signEc m s = some (sig, v)) : v.moor = s.moor ∧ v.audit = s.audit := by
  unfold signEc at hsign
  split at hsign
  · obtain ⟨-, rfl⟩ := Prod.mk.inj (Option.some.inj hsign)
    exact ⟨rfl, rfl⟩
  · obtain ⟨⟨k, t⟩, hdraw, hpair⟩ := Option.map_eq_some_iff.mp hsign
    obtain ⟨-, rfl⟩ := Prod.mk.inj hpair
    exact drbg_frame hdraw

/-- A follower of a pilot, or a holder of an identity, signs (R461). -/
theorem not_unsigned (hidentity : s.follower = true ∨ s.att.store.valid = true) :
    ¬(!(s.follower || s.att.store.valid)) = true := by
  obtain h | h := hidentity <;> simp [h]

theorem sessWorld_of_frame {c : Channel} {leaf : Option Bytes} (hmoor : v.moor = s.moor) (haudit : v.audit = s.audit) :
    v.sessWorld c leaf = s.sessWorld c leaf := by
  unfold State.sessWorld State.ownerHash
  rw [hmoor, haudit]

end Sys2Proof.Machine

namespace Sys2Proof.Proofs

open Sys2Proof.Machine Sys2Proof.Claims

/-- Settles O56: each request is taken where its connection or session stands, and answered as its own definition says. -/
theorem spdmRequestsAnswered : Obligations.SpdmRequestsAnswered := by
  unfold Obligations.SpdmRequestsAnswered
  refine ⟨?outside, ?finish, ?inside, ?unsupported⟩
  case outside =>
    intro h s u c hout hc
    have hon : s.power = .on := hout.1
    subst hc
    refine ⟨?version, fun hstage => ?capabilities, fun hstage => ?algorithms, fun hstage => ?digests,
      fun hstage => ?certificate, fun hstage => ?challenge, fun hstage => ?measurements, fun hstage hfull r => ?sessionsFull,
      fun hstage => ?exchange, fun hstage r => ⟨?earlyDigests, ?earlyExchange⟩, ?finishOutside⟩
    case version =>
      intro rsp hrsp
      subst hrsp
      rw [exec_of_live (f := getVersion h) hon rfl, getVersion,
        spdmTake_outside_of_reached hout (by simp) (Nat.zero_le _)]
    case capabilities =>
      rw [exec_of_live (f := getCapabilities h) hon rfl, getCapabilities,
        spdmTake_outside_of_reached hout (by simp) hstage]
      exact ⟨_, _, _, rfl, rfl⟩
    case algorithms =>
      rw [exec_of_live (f := negotiateAlgorithms h) hon rfl, negotiateAlgorithms,
        spdmTake_outside_of_reached hout (by simp) hstage]
      exact ⟨_, _, _, rfl, rfl, rfl⟩
    case digests =>
      intro rsp hrsp
      subst hrsp
      rw [exec_of_live (f := getDigests h) hon rfl, getDigests, spdmTake_outside_of_reached hout (by simp) hstage]
    case certificate =>
      intro slot off len part rsp hslot hoff hoffMax hlenMax hpart hrsp
      subst hpart hrsp
      rw [exec_of_live (f := getCertificate h slot off len) hon rfl, getCertificate,
        spdmTake_outside_of_reached hout (by simp) hstage]
      exact congrArg Host.Outcome.next (if_neg (by omega))
    case challenge =>
      intro nonce mine v head sig w hnonce hdraw hidentity hhead hsign
      subst hhead
      have hfit : ¬((0 : Nat) ≠ 0 ∨ nonce.length ≠ 32) := by simp [hnonce]
      have hsigner := not_unsigned hidentity
      rw [exec_of_live (f := challenge h 0 nonce) hon rfl, challenge, spdmTake_outside_of_reached hout (by simp) hstage,
        if_neg hfit, hdraw]
      refine congrArg Host.Outcome.next ((if_neg hsigner).trans ?_)
      rw [hsign]
    case measurements =>
      intro nonce mine v head sig w blocks hnonce hdraw hidentity hblocks hhead hsign
      subst hhead hblocks
      have hfit : ¬((6 ≤ 0xFF ∧ (0xFF : Nat) ≠ 0xFF) ∨ nonce.length ≠ 32) := by simp [hnonce]
      have hsigner := not_unsigned hidentity
      rw [exec_of_live (f := getMeasurements h 0xFF nonce) hon rfl, getMeasurements,
        spdmTake_outside_of_reached hout (by simp) hstage, if_neg hfit, hdraw]
      refine congrArg Host.Outcome.next ((if_neg hsigner).trans ?_)
      generalize hall : signEc _ v = answer
      obtain rfl : answer = some (sig, w) := hall.symm.trans hsign
      rfl
    case sessionsFull =>
      rw [exec_of_live (f := keyExchange h r) hon rfl, keyExchange, spdmTake_outside_of_reached hout (by simp) hstage]
      exact congrArg Host.Outcome.next (if_pos hfull)
    case exchange =>
      intro hfree r seed v rand w dhe hidentity hseed hrand hshared hsign
      have hsigner := not_unsigned hidentity
      rw [exec_of_live (f := keyExchange h r) hon rfl, keyExchange, spdmTake_outside_of_reached hout (by simp) hstage]
      dsimp only
      rw [if_neg hfree.not_ge, if_neg hsigner, hseed]
      dsimp only
      rw [hrand, hshared]
      dsimp only
      generalize hanswer : signEc _ _ = answer
      obtain ⟨sig, z, rfl⟩ : ∃ sig z, answer = some (sig, z) := hanswer ▸ hsign _
      obtain ⟨hmoor, haudit⟩ := signEc_frame hanswer
      exact ⟨_, _, z, rfl, rfl, sessWorld_of_frame hmoor haudit, rfl, rfl, rfl, rfl, rfl⟩
    case earlyDigests =>
      rw [exec_of_live (f := getDigests h) hon rfl, getDigests, spdmTake_outside_of_early hout hstage]
    case earlyExchange =>
      rw [exec_of_live (f := keyExchange h r) hon rfl, keyExchange, spdmTake_outside_of_early hout hstage]
    case finishOutside =>
      rw [exec_of_live (f := finish h []) hon rfl, finish, spdmTake_outside hout, if_pos (.inl rfl)]
  case finish =>
    intro h id x y verify s u hin hy
    rw [exec_of_live (f := finish h verify) hin.1 rfl, finish, spdmTake_inside hin (by simp), hy]
    refine ⟨fun hproof => ⟨_, congrArg Host.Outcome.next (if_neg (not_not.mpr hproof)), rfl, rfl, rfl, rfl, rfl, rfl⟩,
      fun hforged => congrArg Host.Outcome.next (if_pos hforged)⟩
  case inside =>
    intro h id x s u hin
    refine ⟨?heartbeat, ?updateOne, ?updateBoth, ?endSession, ?versionInside⟩
    case heartbeat =>
      rw [exec_of_live (f := spdmHeartbeat h) hin.1 rfl, spdmHeartbeat, spdmTake_inside hin (by simp)]
    case updateOne =>
      rw [exec_of_live (f := keyUpdate h false) hin.1 rfl, keyUpdate, spdmTake_inside hin (by simp)]
      rfl
    case updateBoth =>
      rw [exec_of_live (f := keyUpdate h true) hin.1 rfl, keyUpdate, spdmTake_inside hin (by simp)]
      rfl
    case endSession => rw [exec_of_live (f := endSession h) hin.1 rfl, endSession, spdmTake_inside hin (by simp)]
    case versionInside =>
      rw [exec_of_live (f := getVersion h) hin.1 rfl, getVersion, spdmTake_inside_of_outside_only hin]
  case unsupported =>
    intro h code s hon hserves
    rw [exec_of_live (f := unsupportedRequest h code) hon rfl, unsupportedRequest, if_neg (by simp [hserves])]

end Sys2Proof.Proofs
end


section
/-! The vendor requests, TDISP, IDE key management and the DOE mailbox (O57). -/

namespace Sys2Proof.Machine

open Sys2Proof.Claims

variable {h : SpdmHdr} {s u v : State}

/-! ### TDISP and IDE_KM messages -/

/-- A TDISP message of a session on the physical function's DOE, for a virtual function (R472). -/
theorem tdispTake_inside {id vf : Nat} {x : SpdmSess} {f : State → State} (hin : SpdmInside h id 1 x s u)
    (hch : h.ch = .doe .pf) (hvf : vf < 4096) : tdispTake h vf f s = f u := by
  rw [tdispTake, spdmTake_inside hin (by simp), hch]
  exact if_neg hvf.not_ge

/-- An IDE_KM message of an owner-world session (R474). -/
theorem ideTake_of_owner {id : Nat} {x y : SpdmSess} {f : State → State} (hin : SpdmInside h id 1 x s u)
    (hy : u.spdmSess h = some y) (hworld : y.world = .owner) : ideTake h f s = f u := by
  rw [ideTake, spdmTake_inside hin (by simp), hy]
  exact if_pos hworld

theorem ideTake_of_other {id : Nat} {x y : SpdmSess} {f : State → State} (hin : SpdmInside h id 1 x s u)
    (hy : u.spdmSess h = some y) (hworld : y.world ≠ .owner) : ideTake h f s = spdmError h 4 0 [] u := by
  rw [ideTake, spdmTake_inside hin (by simp), hy]
  exact if_neg hworld

theorem ideFits_of_lt {k : IdeKm} (hstream : k.stream < s.straps.ideStreams) (hport : k.port = 0) : ideFits k s = true := by
  simp [ideFits, hstream, hport]

/-- With no key command under way the next goes to the engine at once (R474). -/
theorem idePut_of_idle {op : Nat} {k : IdeKm} (hidle : s.att.ideQ = []) :
    idePut op h k s = emit (.idek op k) { s with att := { s.att with ideQ := [⟨op, k, h⟩] } } := by
  rw [idePut, hidle]
  rfl

/-! ### Held objects -/

/-- What is held for a session is what the session holds. -/
theorem heldObjs_of_session {y : SpdmSess} (hy : s.spdmSess h = some y) : s.heldObjs h = y.held := by
  rw [State.heldObjs, hy]

/-- A request for a held object of a session, in its encoding, is answered from it (R460). -/
theorem getObject_of_held {id : Nat} {x y : SpdmSess} {r : ObjReq} {o : HeldObj} (hin : SpdmInside h id 1 x s u)
    (hy : u.spdmSess h = some y) (hobj : r.obj = 3) (hnonce : r.nonce = zeros 32) (hmin : 0 < r.length)
    (hmax : r.length ≤ 3840) (hheld : y.held.find? (fun o => decide (o.obj = r.obj ∧ o.nonce = r.nonce)) = some o) :
    getObject h r s = objectAnswer h o.data r.offset r.length u := by
  have hlen : r.nonce.length = 32 := by rw [hnonce]; rfl
  have henc : ¬(r.obj = 0 ∨ 4 < r.obj ∨ r.length = 0 ∨ 3840 < r.length ∨ r.nonce.length ≠ 32 ∨
      (3 ≤ r.obj ∧ r.nonce ≠ zeros 32)) := by
    rintro (h | h | h | h | h | ⟨-, h⟩)
    · omega
    · omega
    · omega
    · omega
    · exact h hlen
    · exact h hnonce
  have hsess : h.sess.isSome = true := by rw [hin.2.2.1]; rfl
  rw [getObject, spdmTake_inside hin (by simp), if_neg henc, heldObjs_of_session hy, hheld, hobj]
  exact if_neg (by simp [hsess])

/-! ### The owner key and the mailbox -/

/-- The master that the audit ring records of a request's channel (R593). -/
def auditSide (h : SpdmHdr) : Nat := match h.ch with | .sideband => 0x11 | _ => 0x10

/-- SET_OWNER_KEY in a bound session of the owner starts the six register writes (R458). -/
theorem setOwnerKey_of_bound {id : Nat} {x y : SpdmSess} {hash : Bytes} (hin : SpdmInside h id 1 x s u)
    (hy : u.spdmSess h = some y) (hlen : hash.length = 48) (hpq : y.pq = 2) (hworld : y.world = .owner)
    (hnone : u.att.ownerSet = none) (hwear : ∀ i < 6, (pregPush (2 + i) 0 false u).1 = .ok) :
    setOwnerKey h hash s =
      let t := (List.range 6).foldl (fun s i => (pregPush (2 + i) (beNat (slice (8 * i) 8 hash)) false s).2) u
      { t with att := { t.att with ownerSet := some h } } := by
  have hfresh : ¬(List.range 6).any (fun i => decide ((pregPush (2 + i) 0 false u).1 ≠ .ok)) = true := by
    simpa using hwear
  rw [setOwnerKey, spdmTake_inside hin (by simp), hy]
  refine (if_neg (not_not.mpr hlen)).trans ((if_neg ?_).trans ((if_neg ?_).trans (if_neg hfresh)))
  · simp [hpq, hworld]
  · simp [hnone]

/-- In a session that PQ_BIND has not bound it is refused and logged (R458, R463). -/
theorem setOwnerKey_of_unbound {id : Nat} {x y : SpdmSess} {hash : Bytes} (hin : SpdmInside h id 1 x s u)
    (hy : u.spdmSess h = some y) (hlen : hash.length = 48) (hpq : y.pq ≠ 2) :
    setOwnerKey h hash s = vendorStatus h .ePermission
      (auditLog 2 .ePermission (auditSide h) (if y.world = .owner then 1 else 0) 0 3 0 u) := by
  rw [setOwnerKey, spdmTake_inside hin (by simp), hy]
  refine (if_neg (not_not.mpr hlen)).trans ((if_pos (by simp [hpq])).trans ?_)
  simp only [decide_eq_true_eq]
  rfl

/-- The mailbox with a request's data, operands and session, as MBOX hands it over (R334, R460). -/
def mbHanded (h : SpdmHdr) (r : MboxReq) (s : State) : State :=
  let t := mbPut r.data s
  { t with mbox := { t.mbox with
    sess := h.sess, eq := s.mbox.eq
    oper := (List.range 8).foldl (fun t i => Tab.set 0 t i (r.opers.getD i 0 % 2 ^ 64)) [] } }

section
variable {id : Nat} {x y : SpdmSess} {r : MboxReq} {start : Nat → State → State}

/-- MBOX of a bound owner session on the sideband, in its encoding, is left to the mailbox (R334, R460). -/
theorem vendorMbox_of_owner (hin : SpdmInside h id 1 x s u) (hy : u.spdmSess h = some y) (hch : h.ch = .sideband)
    (hworld : y.world = .owner) (hpq : y.pq = 2) (hcmd : r.cmd < 256) (hopers : r.opers.length ≤ 8)
    (hdata : r.data.length ≤ 3584) :
    vendorMbox start h r s = if u.mbox.busy ∨ u.auditFull then vendorStatus h .eBusy u
      else spdmError h 0x42 0 [15, 0xFE, 0, 10] (updSess h (fun x => { x with mbox := true }) (start r.cmd (mbHanded h r u))) := by
  have hfit : ¬(256 ≤ r.cmd ∨ 8 < r.opers.length ∨ 3584 < r.data.length) := by omega
  rw [vendorMbox, spdmTake_inside hin (by simp), hy, hch]
  exact (if_neg (by simp [hworld])).trans ((if_neg (by simp [hpq])).trans (if_neg hfit))

theorem vendorMbox_of_busy (hin : SpdmInside h id 1 x s u) (hy : u.spdmSess h = some y) (hch : h.ch = .sideband)
    (hworld : y.world = .owner) (hpq : y.pq = 2) (hcmd : r.cmd < 256) (hopers : r.opers.length ≤ 8)
    (hdata : r.data.length ≤ 3584) (hbusy : u.mbox.busy = true) :
    vendorMbox start h r s = vendorStatus h .eBusy u :=
  (vendorMbox_of_owner hin hy hch hworld hpq hcmd hopers hdata).trans (if_pos (.inl hbusy))

theorem vendorMbox_of_idle (hin : SpdmInside h id 1 x s u) (hy : u.spdmSess h = some y) (hch : h.ch = .sideband)
    (hworld : y.world = .owner) (hpq : y.pq = 2) (hcmd : r.cmd < 256) (hopers : r.opers.length ≤ 8)
    (hdata : r.data.length ≤ 3584) (hidle : u.mbox.busy = false) (hroom : u.auditFull = false) :
    vendorMbox start h r s = spdmError h 0x42 0 [15, 0xFE, 0, 10]
      (updSess h (fun x => { x with mbox := true }) (start r.cmd (mbHanded h r u))) :=
  (vendorMbox_of_owner hin hy hch hworld hpq hcmd hopers hdata).trans (if_neg (by simp [hidle, hroom]))

end

end Sys2Proof.Machine

namespace Sys2Proof.Proofs

open Sys2Proof.Machine Sys2Proof.Claims

/-- Settles O57: each request is taken in its session, and answered as its own definition says. -/
theorem vendorTdispIdeRequests : Obligations.VendorTdispIdeRequests := by
  unfold Obligations.VendorTdispIdeRequests
  refine ⟨?requests, ?acks, ?doe, fun a s hon => ⟨?entdaa, ?setdasa⟩⟩
  case requests =>
    intro h id x y s u hin hy
    have hon : s.power = .on := hin.1
    refine ⟨?object, ?bind, ?ownerKey, ?mbox, fun hwait hidle => ?ready, fun hnone => ?notReady, ?tdisp, ?ide,
      fun k hworld => ?ideOther⟩
    case object =>
      intro r o hobj hnonce hmin hmax hheld
      rw [exec_of_live (f := getObject h r) hon rfl, getObject_of_held hin hy hobj hnonce hmin hmax hheld]
      refine ⟨fun hpast => congrArg Host.Outcome.next (if_pos hpast), fun part hinside hpart => ?_⟩
      subst hpart
      exact congrArg Host.Outcome.next (if_neg hinside.not_ge)
    case bind =>
      intro ct hct
      rw [exec_of_live (f := pqBind h ct) hon rfl, pqBind, spdmTake_inside hin (by simp), hy]
      refine ⟨fun hpq => ?_, fun hpq => ?_⟩
      · exact congrArg Host.Outcome.next ((if_neg (not_not.mpr hct)).trans (if_neg (not_not.mpr hpq)))
      · exact congrArg Host.Outcome.next ((if_neg (not_not.mpr hct)).trans (if_pos hpq))
    case ownerKey =>
      intro hash hlen
      rw [exec_of_live (f := setOwnerKey h hash) hon rfl]
      refine ⟨fun hpq hworld hnone hwear => ⟨_, ?_, rfl⟩, fun hpq => ⟨auditSide h, ?_⟩⟩
      · rw [setOwnerKey_of_bound hin hy hlen hpq hworld hnone hwear]
      · rw [setOwnerKey_of_unbound hin hy hlen hpq]
    case mbox =>
      intro r hch hworld hpq hcmd hopers hdata
      rw [exec_of_run (f := vendorMbox mbCmd h r) hon rfl]
      refine ⟨fun hbusy => ?_, fun hidle hroom => ⟨mbHanded h r u, ?_, rfl, rfl, rfl, rfl⟩⟩
      · rw [vendorMbox_of_busy hin hy hch hworld hpq hcmd hopers hdata hbusy]
      · rw [vendorMbox_of_idle hin hy hch hworld hpq hcmd hopers hdata hidle hroom]
    case ready =>
      rw [exec_of_live (f := respondIfReady h) hon rfl, respondIfReady, spdmTake_inside hin (by simp), hy]
      exact congrArg Host.Outcome.next ((if_neg (by simp [hwait])).trans (if_neg (by simp [hidle])))
    case notReady =>
      rw [exec_of_live (f := respondIfReady h) hon rfl, respondIfReady, spdmTake_inside hin (by simp), hy]
      exact congrArg Host.Outcome.next (if_pos (by simp [hnone]))
    case tdisp =>
      intro vf hch hvf
      have htake : ∀ f, tdispTake h vf f s = f u := fun f => tdispTake_inside hin hch hvf
      refine ⟨?version, ?capabilities, ?lock, ?report, ?state, fun nonce => ⟨?start, ?startRefused⟩, ?stop, ?stopRefused,
        ?unsupported⟩
      case version => rw [exec_of_live (f := getTdispVersion h vf) hon rfl, getTdispVersion, htake]
      case capabilities => rw [exec_of_live (f := getTdispCapabilities h vf) hon rfl, getTdispCapabilities, htake]
      case lock =>
        intro stream noFw nonce v hfree hactive hstream huse hdraw
        have hmay : ¬((u.tdi vf).state ≠ .unlocked ∨
            !(u.moor.any (fun p => decide (p.2.vf = some vf ∧ p.2.state = .active))) ∨ u.straps.ideStreams ≤ stream ∨
            Tab.get 0 u.att.ideUse stream = 0) := by
          rw [hactive]; simp [hfree, hstream, huse]
        rw [exec_of_live (f := lockInterface h vf stream noFw) hon rfl, lockInterface, htake]
        refine congrArg Host.Outcome.next ((if_neg hmay).trans ?_)
        rw [hdraw]
      case report =>
        intro hst
        refine ⟨_, rfl, ?_⟩
        rw [exec_of_live (f := getInterfaceReport h vf) hon rfl, getInterfaceReport, htake]
        obtain hst | hst := hst <;> rw [hst]
      case state => rw [exec_of_live (f := getInterfaceState h vf) hon rfl, getInterfaceState, htake]
      case start =>
        intro hst hnonce
        rw [exec_of_live (f := startInterface h vf nonce) hon rfl, startInterface, htake]
        exact congrArg Host.Outcome.next (if_pos ⟨hst, hnonce⟩)
      case startRefused =>
        intro hnonce
        rw [exec_of_live (f := startInterface h vf nonce) hon rfl, startInterface, htake]
        exact congrArg Host.Outcome.next (if_neg fun h => hnonce h.2)
      case stop =>
        intro hst
        rw [exec_of_live (f := stopInterface h vf) hon rfl, stopInterface, htake, if_neg hst]
      case stopRefused =>
        intro hst
        rw [exec_of_live (f := stopInterface h vf) hon rfl, stopInterface, htake, if_pos hst]
      case unsupported => rw [exec_of_live (f := tdispUnsupported h vf) hon rfl, tdispUnsupported, htake]
    case ide =>
      intro k hworld hstream hport hidle
      have hfits := ideFits_of_lt hstream hport
      have htake : ∀ f, ideTake h f s = f u := fun f => ideTake_of_owner hin hy hworld
      refine ⟨?query, ?prog, ?go, ?stop⟩
      case query => rw [exec_of_live (f := ideKmQuery h 0) hon rfl, ideKmQuery, htake, if_neg (by simp)]
      case prog => rw [exec_of_live (f := keyProg h k) hon rfl, keyProg, htake, if_pos hfits, idePut_of_idle hidle]
      case go => rw [exec_of_live (f := kSet 1 h k) hon rfl, kSet, htake, if_pos hfits, idePut_of_idle hidle]
      case stop => rw [exec_of_live (f := kSet 2 h k) hon rfl, kSet, htake, if_pos hfits, idePut_of_idle hidle]
    case ideOther => rw [exec_of_live (f := keyProg h k) hon rfl, keyProg, ideTake_of_other hin hy hworld]
  case acks =>
    intro k h s u hon hu
    subst hu
    refine ⟨fun hq => ?prog, fun hq => ⟨_, rfl, ?go⟩⟩
    case prog =>
      rw [exec_of_live (f := idekAck 0) hon rfl, idekAck, hq]
      rfl
    case go =>
      rw [exec_of_live (f := idekAck 0) hon rfl, idekAck, hq]
      rfl
  case doe =>
    intro f dw s hon
    refine ⟨fun hlong => ?_, fun hpf hlen hfree htyp => ?_⟩
    · rw [exec_of_live (f := doeObject f dw) hon rfl]
      exact congrArg Host.Outcome.next (if_pos (.inl hlong))
    · subst hpf
      have htaken : ¬(4096 < dw.length ∨ !true ∨ s.att.doeHeld.contains 1) := by
        rw [hfree]
        simpa using hlen
      rw [exec_of_live (f := doeObject .pf dw) hon rfl]
      exact congrArg Host.Outcome.next ((if_neg htaken).trans (if_neg htyp))
  case entdaa => exact exec_of_live (f := dynamicAddress (some a)) hon rfl
  case setdasa => exact exec_of_live (f := dynamicAddress none) hon rfl

end Sys2Proof.Proofs
end
